-- ==== Sys2Proof/Word.lean ====
section
/-!
DEFINITION. The word types of the MA208-B1 model, the sparse map that every numbered collection uses, and their
plainest arithmetic (00: numbers and units; 02/R30).
-/
namespace Sys2Proof

/-- One byte of memory. -/
abbrev Byte := BitVec 8
/-- A half word, a word, a general register (02/R30) and the wider values of 02/R30 and 03/R85. -/
abbrev W16 := BitVec 16
abbrev W32 := BitVec 32
abbrev W64 := BitVec 64
abbrev W128 := BitVec 128
abbrev W256 := BitVec 256

/-- A string of bytes, lowest address first. -/
abbrev Bytes := List Byte

/-- A sparse map: key and value pairs, keys rising; a key that is not listed has the collection's default value. -/
abbrev FMap (α : Type) := List (Nat × α)

/-- The value at a key, or the default. -/
def FMap.get {α : Type} (d : α) : FMap α → Nat → α
  | [], _ => d
  | (j, w) :: r, k => if j = k then w else FMap.get d r k

/-- The map with one key set. -/
def FMap.set {α : Type} : FMap α → Nat → α → FMap α
  | [], k, v => [(k, v)]
  | (j, w) :: r, k, v =>
    if k < j then (k, v) :: (j, w) :: r
    else if k = j then (k, v) :: r
    else (j, w) :: FMap.set r k v

/-- The map without a key. -/
def FMap.erase {α : Type} : FMap α → Nat → FMap α
  | [], _ => []
  | (j, w) :: r, k => if j = k then FMap.erase r k else (j, w) :: FMap.erase r k

/-- Is the key listed? -/
def FMap.has {α : Type} : FMap α → Nat → Bool
  | [], _ => false
  | (j, _) :: r, k => if j = k then true else FMap.has r k

/-- The field [hi:lo] of a 64-bit word, as a number (00: bit ranges). -/
def fld (w : W64) (hi lo : Nat) : Nat := (w.toNat >>> lo) % 2 ^ (hi + 1 - lo)

/-- One bit of a 64-bit word. -/
def tbit (w : W64) (n : Nat) : Bool := w.getLsbD n

/-- A 64-bit word with the field [hi:lo] replaced. -/
def setFld (w : W64) (hi lo v : Nat) : W64 :=
  let m : W64 := BitVec.ofNat 64 ((2 ^ (hi + 1 - lo) - 1) <<< lo)
  (w &&& ~~~ m) ||| (BitVec.ofNat 64 (v <<< lo) &&& m)

/-- A Boolean as 0 or 1. -/
def b2n (b : Bool) : Nat := if b then 1 else 0

/-- The 64-bit word of a number. -/
abbrev w64 (n : Nat) : W64 := BitVec.ofNat 64 n

end Sys2Proof
end

