-- ==== Sys2Proof/Syntax.lean ====
section
/-!
DEFINITION. The commands of the block: the operand types, and `Instr`, one constructor for each row of the table of
operations and events.
-/
namespace Sys2Proof

/-- The number of a general register, a predicate register, a vector register (02/R30); the ordering mark (02/R36). -/
abbrev Reg := BitVec 6
abbrev PReg := BitVec 4
abbrev VReg := BitVec 5
abbrev Mark := BitVec 2
/-- A logical core (01/R15), a creel (09/R252), a port slot (10/R276). -/
abbrev CoreId := Fin 192
abbrev CreelId := Fin 64
abbrev Slot := Fin 128
/-- A line number: physical address bits [51:6] (07/R202). A third-level slice, a memory channel, a QoS port. -/
abbrev LineNo := BitVec 46
abbrev SliceId := Fin 224
abbrev ChanId := Fin 16
abbrev QosPort := Fin 96
/-- A coherent agent: physical tiles 0 to 223, then the sequencer caches (07/R215). -/
abbrev CohAgent := Fin 311

/-- A sequencer: 14 in the Hamper, 4 in each of the 16 + 2 Plaiter units, the Stake's lockstep pair (04: the sequencer). -/
inductive SeqId where
  | hamper (k : Fin 14)
  | plaiter (u : Fin 18) (k : Fin 4)
  | stake
  deriving DecidableEq, Repr

/-- What executes MIS-3: a core or a sequencer (02). -/
inductive Agent where
  | core (n : CoreId)
  | seq (q : SeqId)
  deriving DecidableEq, Repr

/-- Operand widths: binary64 or binary32, decimal64 or decimal128, vector element widths. -/
inductive FpFmt where
  | d | s
  deriving DecidableEq, Repr
inductive DecFmt where
  | d | q
  deriving DecidableEq, Repr
inductive VWidth where
  | b | h | w | d
  deriving DecidableEq, Repr

/-- What a translated access is for (06/R188). -/
inductive AccKind where
  | fetch | load | store | atomic
  deriving DecidableEq, Repr

/-- What a lookup in a cache or a directory meets (07/R207-R209). `tagParity k`: a tag parity error for which `k`
candidate addresses check on a dirty line. -/
inductive LookupErr where
  | none | dataCorrected | dataUncorrectable | tagParity (candidates : Nat) | dirCorrected | dirUncorrectable
  deriving DecidableEq, Repr

/-- How a line's 40-bit bursts come back from the ten x4 devices of its subchannel (08/R228, R232): without error, with the bits of
some devices wrong, or written at another address. -/
inductive ReadOutcome where
  | clean | errors (device : Fin 10) (more : List (Fin 10)) | wrongAddress
  deriving DecidableEq, Repr

/-- An object on an officer card (21/R577): a key component, or an approval (its name: a handle or a set number). -/
inductive CardObj where
  | component (creel : CreelId) (set : BitVec 16) (ix : Fin 3) (key : Bytes) (kcv : BitVec 24)
  | approval (creel : CreelId) (name : W64) (op : BitVec 16)
  deriving DecidableEq, Repr

/-- What a pairing frame carries (15/R439): a line with its poison mark, a key object or its end, a session, an audit
chain, a commit marker, an acknowledgement, a Stake command, the end of a creel's copy, the words of a heartbeat, the sender's
Hoop time, the beginning or the end of a creel's move (R462), a copy to begin again (R461). -/
inductive PairMsg where
  | line (creel : CreelId) (no : LineNo) (bytes : Bytes) (poison : Bool)
  | object (creel : CreelId) (attrs : List W64) (secret pub : Bytes)
  | noObject (creel : CreelId) (handle : W64)
  | session (creel : CreelId) (n : Fin 4096) (words : List W64)
  | chain (creel : CreelId) (seq : Nat) (head : Bytes)
  | marker (creel : CreelId) (id : Nat)
  | ack (id : Nat)
  | mailbox (words : List W64)
  | copyEnd (creel : CreelId)
  | beat (words : List Nat)
  | time (sec : W64) (frac : W32)
  | move (creel : CreelId) (final : Bool)
  | copyAgain (creel : CreelId)
  deriving DecidableEq, Repr

/-- An AtomicOp of PCIe (16/R472). -/
inductive InAtomic where
  | fetchAdd | swap | cas
  deriving DecidableEq, Repr
/-- An inbound request to memory space (16/R468, R472, R480). -/
inductive Inbound where
  | read (addr : W64) (len : Nat)
  | write (addr : W64) (bytes : Bytes) (poisoned : Bool)
  | atomic (addr : W64) (size : Nat) (op : InAtomic) (operand compare : Nat)
  deriving DecidableEq, Repr
/-- The completer status of a completion (16/R478). -/
inductive CplStatus where
  | ok | ur | ca
  deriving DecidableEq, Repr
/-- What the host writes in a function's configuration or MSI-X structures (16/R487, R488). -/
inductive HostCfg where
  | busMaster (on : Bool) | vfEnable (on : Bool) | numVfs (n : Nat) | functionMask (on : Bool)
  | vector (n : Nat) (addr : W64) (data : W32) (mask : Bool) | timeout (enc : BitVec 4)
  deriving DecidableEq, Repr
/-- A reference input (22/R597). -/
inductive RefClock where
  | lg (n : Fin 10) | pair | linePorts | memory | hoopXo
  deriving DecidableEq, Repr
/-- A link that trains (18/R528, 16/R472): a root port (as CXL or not, narrower than the port or not), a host-attach endpoint, a line port. -/
inductive TrainedLink where
  | root (lg : Fin 10) (port : Fin 4) (cxl narrow : Bool) | endpoint (lg : Fin 10) | line (port : Fin 8)
  deriving DecidableEq, Repr
/-- A memory module as its data tell (08/R228-R230): RDIMM or MRDIMM, made of x4 devices, with refresh management, its capacity in
bytes, its ranks, its speed bin in MT/s, the bytes of a row and the banks of a rank. -/
structure MemModule where
  mrdimm : Bool
  x4 : Bool
  refresh : Bool
  capacity : Nat
  ranks : Nat
  bin : Nat
  rowBytes : Nat
  banks : Nat
  deriving DecidableEq, Repr
/-- What a start finds of the board and its own tests: the modules of each channel, the ranks of each channel that fail training, the
modules' temperature in °C, whether border, entropy tests, the BBKM check word and the slack baselines pass (08/R229, R237, R250;
18/R528, 19/R551, 21/R569). -/
structure StartIn where
  modules : List (List MemModule)
  failed : List (BitVec 8)
  temp : Int
  borderOk : Bool
  selfTestOk : Bool
  entropyOk : Bool
  bbkmOk : Bool
  baselinesOk : Bool
  deriving DecidableEq, Repr

/-- The commands of the block: one constructor for each row of the table of operations and events. -/
inductive Instr where
  /-- ADD (R50) -/
  | add (a : Agent) (q : PReg) (d : Reg) (s1 : Reg) (s2 : Reg)
  /-- SUB (R50) -/
  | sub (a : Agent) (q : PReg) (d : Reg) (s1 : Reg) (s2 : Reg)
  /-- AND (R50) -/
  | and (a : Agent) (q : PReg) (d : Reg) (s1 : Reg) (s2 : Reg)
  /-- OR (R50) -/
  | or (a : Agent) (q : PReg) (d : Reg) (s1 : Reg) (s2 : Reg)
  /-- XOR (R50) -/
  | xor (a : Agent) (q : PReg) (d : Reg) (s1 : Reg) (s2 : Reg)
  /-- ANDN (R50) -/
  | andn (a : Agent) (q : PReg) (d : Reg) (s1 : Reg) (s2 : Reg)
  /-- ORN (R50) -/
  | orn (a : Agent) (q : PReg) (d : Reg) (s1 : Reg) (s2 : Reg)
  /-- XNOR (R50) -/
  | xnor (a : Agent) (q : PReg) (d : Reg) (s1 : Reg) (s2 : Reg)
  /-- SLL (R50) -/
  | sll (a : Agent) (q : PReg) (d : Reg) (s1 : Reg) (s2 : Reg)
  /-- SRL (R50) -/
  | srl (a : Agent) (q : PReg) (d : Reg) (s1 : Reg) (s2 : Reg)
  /-- SRA (R50) -/
  | sra (a : Agent) (q : PReg) (d : Reg) (s1 : Reg) (s2 : Reg)
  /-- ROL (R50) -/
  | rol (a : Agent) (q : PReg) (d : Reg) (s1 : Reg) (s2 : Reg)
  /-- ROR (R50) -/
  | ror (a : Agent) (q : PReg) (d : Reg) (s1 : Reg) (s2 : Reg)
  /-- ADDW (R50) -/
  | addw (a : Agent) (q : PReg) (d : Reg) (s1 : Reg) (s2 : Reg)
  /-- SUBW (R50) -/
  | subw (a : Agent) (q : PReg) (d : Reg) (s1 : Reg) (s2 : Reg)
  /-- MUL (R51) -/
  | mul (a : Agent) (q : PReg) (d : Reg) (s1 : Reg) (s2 : Reg)
  /-- MULHS (R51) -/
  | mulhs (a : Agent) (q : PReg) (d : Reg) (s1 : Reg) (s2 : Reg)
  /-- MULHU (R51) -/
  | mulhu (a : Agent) (q : PReg) (d : Reg) (s1 : Reg) (s2 : Reg)
  /-- DIV (R52) -/
  | div (a : Agent) (q : PReg) (d : Reg) (s1 : Reg) (s2 : Reg)
  /-- DIVU (R52) -/
  | divu (a : Agent) (q : PReg) (d : Reg) (s1 : Reg) (s2 : Reg)
  /-- REM (R52) -/
  | rem (a : Agent) (q : PReg) (d : Reg) (s1 : Reg) (s2 : Reg)
  /-- REMU (R52) -/
  | remu (a : Agent) (q : PReg) (d : Reg) (s1 : Reg) (s2 : Reg)
  /-- MIN (R53) -/
  | min (a : Agent) (q : PReg) (d : Reg) (s1 : Reg) (s2 : Reg)
  /-- MAX (R53) -/
  | max (a : Agent) (q : PReg) (d : Reg) (s1 : Reg) (s2 : Reg)
  /-- MINU (R53) -/
  | minu (a : Agent) (q : PReg) (d : Reg) (s1 : Reg) (s2 : Reg)
  /-- MAXU (R53) -/
  | maxu (a : Agent) (q : PReg) (d : Reg) (s1 : Reg) (s2 : Reg)
  /-- CLZ (R53) -/
  | clz (a : Agent) (q : PReg) (d : Reg) (s1 : Reg)
  /-- CTZ (R53) -/
  | ctz (a : Agent) (q : PReg) (d : Reg) (s1 : Reg)
  /-- POPC (R53) -/
  | popc (a : Agent) (q : PReg) (d : Reg) (s1 : Reg)
  /-- BSWAP (R53) -/
  | bswap (a : Agent) (q : PReg) (d : Reg) (s1 : Reg)
  /-- SEXTB (R54) -/
  | sextb (a : Agent) (q : PReg) (d : Reg) (s1 : Reg)
  /-- SEXTH (R54) -/
  | sexth (a : Agent) (q : PReg) (d : Reg) (s1 : Reg)
  /-- SEXTW (R54) -/
  | sextw (a : Agent) (q : PReg) (d : Reg) (s1 : Reg)
  /-- ZEXTB (R54) -/
  | zextb (a : Agent) (q : PReg) (d : Reg) (s1 : Reg)
  /-- ZEXTH (R54) -/
  | zexth (a : Agent) (q : PReg) (d : Reg) (s1 : Reg)
  /-- ZEXTW (R54) -/
  | zextw (a : Agent) (q : PReg) (d : Reg) (s1 : Reg)
  /-- MOVPG (R55) -/
  | movpg (a : Agent) (q : PReg) (d : Reg)
  /-- MOVGP (R55) -/
  | movgp (a : Agent) (q : PReg) (s1 : Reg)
  /-- ADDI (R56) -/
  | addi (a : Agent) (q : PReg) (d : Reg) (s1 : Reg) (imm : BitVec 9)
  /-- ANDI (R56) -/
  | andi (a : Agent) (q : PReg) (d : Reg) (s1 : Reg) (imm : BitVec 9)
  /-- ORI (R56) -/
  | ori (a : Agent) (q : PReg) (d : Reg) (s1 : Reg) (imm : BitVec 9)
  /-- XORI (R56) -/
  | xori (a : Agent) (q : PReg) (d : Reg) (s1 : Reg) (imm : BitVec 9)
  /-- SLLI (R57) -/
  | slli (a : Agent) (q : PReg) (d : Reg) (s1 : Reg) (n : BitVec 6)
  /-- SRLI (R57) -/
  | srli (a : Agent) (q : PReg) (d : Reg) (s1 : Reg) (n : BitVec 6)
  /-- SRAI (R57) -/
  | srai (a : Agent) (q : PReg) (d : Reg) (s1 : Reg) (n : BitVec 6)
  /-- RORI (R57) -/
  | rori (a : Agent) (q : PReg) (d : Reg) (s1 : Reg) (n : BitVec 6)
  /-- LDI (R58) -/
  | ldi (a : Agent) (q : PReg) (d : Reg) (imm : BitVec 15)
  /-- SHI (R58) -/
  | shi (a : Agent) (q : PReg) (d : Reg) (imm : BitVec 15)
  /-- CMP_EQ (R63) -/
  | cmpEq (a : Agent) (q : PReg) (pt : PReg) (pf : PReg) (s1 : Reg) (s2 : Reg)
  /-- CMP_NE (R63) -/
  | cmpNe (a : Agent) (q : PReg) (pt : PReg) (pf : PReg) (s1 : Reg) (s2 : Reg)
  /-- CMP_LT (R63) -/
  | cmpLt (a : Agent) (q : PReg) (pt : PReg) (pf : PReg) (s1 : Reg) (s2 : Reg) (u : Bool)
  /-- CMP_GE (R63) -/
  | cmpGe (a : Agent) (q : PReg) (pt : PReg) (pf : PReg) (s1 : Reg) (s2 : Reg) (u : Bool)
  /-- CMP_TST (R63) -/
  | cmpTst (a : Agent) (q : PReg) (pt : PReg) (pf : PReg) (s1 : Reg) (s2 : Reg)
  /-- PAND (R64) -/
  | pand (a : Agent) (q : PReg) (pt : PReg) (pf : PReg) (pa : PReg) (pb : PReg)
  /-- POR (R64) -/
  | por (a : Agent) (q : PReg) (pt : PReg) (pf : PReg) (pa : PReg) (pb : PReg)
  /-- PXOR (R64) -/
  | pxor (a : Agent) (q : PReg) (pt : PReg) (pf : PReg) (pa : PReg) (pb : PReg)
  /-- PANDN (R64) -/
  | pandn (a : Agent) (q : PReg) (pt : PReg) (pf : PReg) (pa : PReg) (pb : PReg)
  /-- BR (R65) -/
  | br (a : Agent) (q : PReg) (disp : BitVec 21)
  /-- CALL (R65) -/
  | call (a : Agent) (q : PReg) (disp : BitVec 21)
  /-- JMPR (R66) -/
  | jmpr (a : Agent) (q : PReg) (s1 : Reg)
  /-- CALLR (R66) -/
  | callr (a : Agent) (q : PReg) (s1 : Reg)
  /-- RET (R67) -/
  | ret (a : Agent) (q : PReg) (s1 : Reg)
  /-- LOOP (R69) -/
  | loop (a : Agent) (q : PReg) (d : Reg) (n : BitVec 9)
  /-- ILLEGAL_INSTRUCTION (R38) -/
  | illegalInstruction (a : Agent) (word : BitVec 32)
  /-- LDB (R73) -/
  | ldb (a : Agent) (q : PReg) (data : Reg) (base : Reg) (off : BitVec 7) (mark : Mark)
  /-- LDBU (R73) -/
  | ldbu (a : Agent) (q : PReg) (data : Reg) (base : Reg) (off : BitVec 7) (mark : Mark)
  /-- LDH (R73) -/
  | ldh (a : Agent) (q : PReg) (data : Reg) (base : Reg) (off : BitVec 7) (mark : Mark)
  /-- LDHU (R73) -/
  | ldhu (a : Agent) (q : PReg) (data : Reg) (base : Reg) (off : BitVec 7) (mark : Mark)
  /-- LDW (R73) -/
  | ldw (a : Agent) (q : PReg) (data : Reg) (base : Reg) (off : BitVec 7) (mark : Mark)
  /-- LDWU (R73) -/
  | ldwu (a : Agent) (q : PReg) (data : Reg) (base : Reg) (off : BitVec 7) (mark : Mark)
  /-- LDD (R73) -/
  | ldd (a : Agent) (q : PReg) (data : Reg) (base : Reg) (off : BitVec 7) (mark : Mark)
  /-- STB (R73) -/
  | stb (a : Agent) (q : PReg) (data : Reg) (base : Reg) (off : BitVec 7) (mark : Mark)
  /-- STH (R73) -/
  | sth (a : Agent) (q : PReg) (data : Reg) (base : Reg) (off : BitVec 7) (mark : Mark)
  /-- STW (R73) -/
  | stw (a : Agent) (q : PReg) (data : Reg) (base : Reg) (off : BitVec 7) (mark : Mark)
  /-- STD (R73) -/
  | std (a : Agent) (q : PReg) (data : Reg) (base : Reg) (off : BitVec 7) (mark : Mark)
  /-- LDP (R73) -/
  | ldp (a : Agent) (q : PReg) (data : Reg) (base : Reg) (off : BitVec 7) (mark : Mark)
  /-- STP (R73) -/
  | stp (a : Agent) (q : PReg) (data : Reg) (base : Reg) (off : BitVec 7) (mark : Mark)
  /-- SWAP (R78) -/
  | swap (a : Agent) (q : PReg) (d : Reg) (s1 : Reg) (s2 : Reg) (mark : Mark)
  /-- ATOMIC_ADD (R78) -/
  | atomicAdd (a : Agent) (q : PReg) (d : Reg) (s1 : Reg) (s2 : Reg) (mark : Mark)
  /-- ATOMIC_AND (R78) -/
  | atomicAnd (a : Agent) (q : PReg) (d : Reg) (s1 : Reg) (s2 : Reg) (mark : Mark)
  /-- ATOMIC_OR (R78) -/
  | atomicOr (a : Agent) (q : PReg) (d : Reg) (s1 : Reg) (s2 : Reg) (mark : Mark)
  /-- ATOMIC_XOR (R78) -/
  | atomicXor (a : Agent) (q : PReg) (d : Reg) (s1 : Reg) (s2 : Reg) (mark : Mark)
  /-- ATOMIC_MIN (R78) -/
  | atomicMin (a : Agent) (q : PReg) (d : Reg) (s1 : Reg) (s2 : Reg) (mark : Mark)
  /-- ATOMIC_MAX (R78) -/
  | atomicMax (a : Agent) (q : PReg) (d : Reg) (s1 : Reg) (s2 : Reg) (mark : Mark)
  /-- ATOMIC_MINU (R78) -/
  | atomicMinu (a : Agent) (q : PReg) (d : Reg) (s1 : Reg) (s2 : Reg) (mark : Mark)
  /-- ATOMIC_MAXU (R78) -/
  | atomicMaxu (a : Agent) (q : PReg) (d : Reg) (s1 : Reg) (s2 : Reg) (mark : Mark)
  /-- CAS (R79) -/
  | cas (a : Agent) (q : PReg) (data : Reg) (base : Reg) (off : BitVec 7) (mark : Mark)
  /-- CAS16 (R79) -/
  | cas16 (a : Agent) (q : PReg) (data : Reg) (base : Reg) (off : BitVec 7) (mark : Mark)
  /-- FENCE (R154) -/
  | fence (a : Agent) (q : PReg)
  /-- FENCE_IO (R161) -/
  | fenceIo (a : Agent) (q : PReg)
  /-- FENCE_ST (R154) -/
  | fenceSt (a : Agent) (q : PReg)
  /-- FENCE_SPEC (R81) -/
  | fenceSpec (a : Agent) (q : PReg)
  /-- ISYNC (R97) -/
  | isync (a : Agent) (q : PReg)
  /-- PBAR (R121) -/
  | pbar (a : Agent) (q : PReg)
  /-- PFLUSH (R82) -/
  | pflush (a : Agent) (q : PReg)
  /-- FADD (R84) -/
  | fadd (a : Agent) (q : PReg) (f : FpFmt) (d : Reg) (s1 : Reg) (s2 : Reg)
  /-- FSUB (R84) -/
  | fsub (a : Agent) (q : PReg) (f : FpFmt) (d : Reg) (s1 : Reg) (s2 : Reg)
  /-- FMUL (R84) -/
  | fmul (a : Agent) (q : PReg) (f : FpFmt) (d : Reg) (s1 : Reg) (s2 : Reg)
  /-- FDIV (R84) -/
  | fdiv (a : Agent) (q : PReg) (f : FpFmt) (d : Reg) (s1 : Reg) (s2 : Reg)
  /-- FMA (R84) -/
  | fma (a : Agent) (q : PReg) (f : FpFmt) (d : Reg) (s1 : Reg) (s2 : Reg)
  /-- FMIN (R84) -/
  | fmin (a : Agent) (q : PReg) (f : FpFmt) (d : Reg) (s1 : Reg) (s2 : Reg)
  /-- FMAX (R84) -/
  | fmax (a : Agent) (q : PReg) (f : FpFmt) (d : Reg) (s1 : Reg) (s2 : Reg)
  /-- FSQRT (R84) -/
  | fsqrt (a : Agent) (q : PReg) (f : FpFmt) (d : Reg) (s1 : Reg)
  /-- FCMP (R84) -/
  | fcmp (a : Agent) (q : PReg) (f : FpFmt) (d : Reg) (s1 : Reg) (s2 : Reg)
  /-- FCVT_D_L (R84) -/
  | fcvtDL (a : Agent) (q : PReg) (f : FpFmt) (d : Reg) (s1 : Reg)
  /-- FCVT_L_D (R84) -/
  | fcvtLD (a : Agent) (q : PReg) (f : FpFmt) (d : Reg) (s1 : Reg)
  /-- FCVT_D_S (R84) -/
  | fcvtDS (a : Agent) (q : PReg) (d : Reg) (s1 : Reg)
  /-- FCVT_S_D (R84) -/
  | fcvtSD (a : Agent) (q : PReg) (d : Reg) (s1 : Reg)
  /-- FCLASS (R84) -/
  | fclass (a : Agent) (q : PReg) (f : FpFmt) (d : Reg) (s1 : Reg)
  /-- DADD (R86) -/
  | dadd (a : Agent) (q : PReg) (f : DecFmt) (d : Reg) (s1 : Reg) (s2 : Reg)
  /-- DSUB (R86) -/
  | dsub (a : Agent) (q : PReg) (f : DecFmt) (d : Reg) (s1 : Reg) (s2 : Reg)
  /-- DMUL (R86) -/
  | dmul (a : Agent) (q : PReg) (f : DecFmt) (d : Reg) (s1 : Reg) (s2 : Reg)
  /-- DDIV (R86) -/
  | ddiv (a : Agent) (q : PReg) (f : DecFmt) (d : Reg) (s1 : Reg) (s2 : Reg)
  /-- DQUA (R86) -/
  | dqua (a : Agent) (q : PReg) (f : DecFmt) (d : Reg) (s1 : Reg) (s2 : Reg)
  /-- DRINT (R86) -/
  | drint (a : Agent) (q : PReg) (f : DecFmt) (d : Reg) (s1 : Reg)
  /-- DCMP (R86) -/
  | dcmp (a : Agent) (q : PReg) (f : DecFmt) (d : Reg) (s1 : Reg) (s2 : Reg)
  /-- DFROMI (R86) -/
  | dfromi (a : Agent) (q : PReg) (f : DecFmt) (d : Reg) (s1 : Reg)
  /-- DTOI (R86) -/
  | dtoi (a : Agent) (q : PReg) (f : DecFmt) (d : Reg) (s1 : Reg)
  /-- DGETEXP (R86) -/
  | dgetexp (a : Agent) (q : PReg) (f : DecFmt) (d : Reg) (s1 : Reg)
  /-- DWIDEN (R86) -/
  | dwiden (a : Agent) (q : PReg) (d : Reg) (s1 : Reg)
  /-- DNARROW (R86) -/
  | dnarrow (a : Agent) (q : PReg) (d : Reg) (s1 : Reg)
  /-- VADD (R92) -/
  | vadd (a : Agent) (q : PReg) (e : VWidth) (d : VReg) (s1 : VReg) (s2 : VReg)
  /-- VSUB (R92) -/
  | vsub (a : Agent) (q : PReg) (e : VWidth) (d : VReg) (s1 : VReg) (s2 : VReg)
  /-- VMUL (R92) -/
  | vmul (a : Agent) (q : PReg) (e : VWidth) (d : VReg) (s1 : VReg) (s2 : VReg)
  /-- VMIN (R92) -/
  | vmin (a : Agent) (q : PReg) (e : VWidth) (d : VReg) (s1 : VReg) (s2 : VReg)
  /-- VMAX (R92) -/
  | vmax (a : Agent) (q : PReg) (e : VWidth) (d : VReg) (s1 : VReg) (s2 : VReg)
  /-- VMINU (R92) -/
  | vminu (a : Agent) (q : PReg) (e : VWidth) (d : VReg) (s1 : VReg) (s2 : VReg)
  /-- VMAXU (R92) -/
  | vmaxu (a : Agent) (q : PReg) (e : VWidth) (d : VReg) (s1 : VReg) (s2 : VReg)
  /-- VCMPEQ (R92) -/
  | vcmpeq (a : Agent) (q : PReg) (e : VWidth) (d : VReg) (s1 : VReg) (s2 : VReg)
  /-- VAND (R92) -/
  | vand (a : Agent) (q : PReg) (d : VReg) (s1 : VReg) (s2 : VReg)
  /-- VOR (R92) -/
  | vor (a : Agent) (q : PReg) (d : VReg) (s1 : VReg) (s2 : VReg)
  /-- VXOR (R92) -/
  | vxor (a : Agent) (q : PReg) (d : VReg) (s1 : VReg) (s2 : VReg)
  /-- VANDN (R92) -/
  | vandn (a : Agent) (q : PReg) (d : VReg) (s1 : VReg) (s2 : VReg)
  /-- VSEL (R92) -/
  | vsel (a : Agent) (q : PReg) (d : VReg) (s1 : VReg) (s2 : VReg)
  /-- VBCAST (R92) -/
  | vbcast (a : Agent) (q : PReg) (d : VReg) (s1 : Reg)
  /-- VINS (R92) -/
  | vins (a : Agent) (q : PReg) (d : VReg) (s1 : Reg) (lane : BitVec 2)
  /-- VEXT (R92) -/
  | vext (a : Agent) (q : PReg) (d : Reg) (s1 : VReg) (lane : BitVec 2)
  /-- VSLLI (R92) -/
  | vslli (a : Agent) (q : PReg) (e : VWidth) (d : VReg) (s1 : VReg) (n : BitVec 6)
  /-- VSRLI (R92) -/
  | vsrli (a : Agent) (q : PReg) (e : VWidth) (d : VReg) (s1 : VReg) (n : BitVec 6)
  /-- VSRAI (R92) -/
  | vsrai (a : Agent) (q : PReg) (e : VWidth) (d : VReg) (s1 : VReg) (n : BitVec 6)
  /-- VPERM_B (R92) -/
  | vpermB (a : Agent) (q : PReg) (d : VReg) (s1 : VReg) (s2 : VReg)
  /-- VREDADD_D (R92) -/
  | vredaddD (a : Agent) (q : PReg) (d : Reg) (s1 : VReg)
  /-- VCMPGT_D (R92) -/
  | vcmpgtD (a : Agent) (q : PReg) (d : VReg) (s1 : VReg) (s2 : VReg)
  /-- VLD (R93) -/
  | vld (a : Agent) (q : PReg) (d : VReg) (s1 : Reg) (s2 : Reg)
  /-- VST (R93) -/
  | vst (a : Agent) (q : PReg) (d : VReg) (s1 : Reg) (s2 : Reg)
  /-- VFADD (R92) -/
  | vfadd (a : Agent) (q : PReg) (f : FpFmt) (d : VReg) (s1 : VReg) (s2 : VReg)
  /-- VFSUB (R92) -/
  | vfsub (a : Agent) (q : PReg) (f : FpFmt) (d : VReg) (s1 : VReg) (s2 : VReg)
  /-- VFMUL (R92) -/
  | vfmul (a : Agent) (q : PReg) (f : FpFmt) (d : VReg) (s1 : VReg) (s2 : VReg)
  /-- VFDIV (R92) -/
  | vfdiv (a : Agent) (q : PReg) (f : FpFmt) (d : VReg) (s1 : VReg) (s2 : VReg)
  /-- VFMA (R92) -/
  | vfma (a : Agent) (q : PReg) (f : FpFmt) (d : VReg) (s1 : VReg) (s2 : VReg)
  /-- VFMIN (R92) -/
  | vfmin (a : Agent) (q : PReg) (f : FpFmt) (d : VReg) (s1 : VReg) (s2 : VReg)
  /-- VFMAX (R92) -/
  | vfmax (a : Agent) (q : PReg) (f : FpFmt) (d : VReg) (s1 : VReg) (s2 : VReg)
  /-- VFCMPLT (R92) -/
  | vfcmplt (a : Agent) (q : PReg) (f : FpFmt) (d : VReg) (s1 : VReg) (s2 : VReg)
  /-- VCVT_S_W (R92) -/
  | vcvtSW (a : Agent) (q : PReg) (d : VReg) (s1 : VReg)
  /-- VCVT_W_S (R92) -/
  | vcvtWS (a : Agent) (q : PReg) (d : VReg) (s1 : VReg)
  /-- VCVT_D_L (R92) -/
  | vcvtDL (a : Agent) (q : PReg) (d : VReg) (s1 : VReg)
  /-- VCVT_L_D (R92) -/
  | vcvtLD (a : Agent) (q : PReg) (d : VReg) (s1 : VReg)
  /-- AESE (R94) -/
  | aese (a : Agent) (q : PReg) (d : VReg) (s1 : VReg) (s2 : VReg)
  /-- AESEL (R94) -/
  | aesel (a : Agent) (q : PReg) (d : VReg) (s1 : VReg) (s2 : VReg)
  /-- AESD (R94) -/
  | aesd (a : Agent) (q : PReg) (d : VReg) (s1 : VReg) (s2 : VReg)
  /-- AESDL (R94) -/
  | aesdl (a : Agent) (q : PReg) (d : VReg) (s1 : VReg) (s2 : VReg)
  /-- AESIMC (R94) -/
  | aesimc (a : Agent) (q : PReg) (d : VReg) (s1 : VReg)
  /-- CLMUL (R94) -/
  | clmul (a : Agent) (q : PReg) (d : Reg) (s1 : Reg) (s2 : Reg)
  /-- CLMULH (R94) -/
  | clmulh (a : Agent) (q : PReg) (d : Reg) (s1 : Reg) (s2 : Reg)
  /-- SHA256MS0 (R94) -/
  | sha256ms0 (a : Agent) (q : PReg) (d : VReg) (s1 : VReg) (s2 : VReg)
  /-- SHA256MS1 (R94) -/
  | sha256ms1 (a : Agent) (q : PReg) (d : VReg) (s1 : VReg) (s2 : VReg)
  /-- SHA512MS0 (R94) -/
  | sha512ms0 (a : Agent) (q : PReg) (d : VReg) (s1 : VReg) (s2 : VReg)
  /-- SHA512MS1 (R94) -/
  | sha512ms1 (a : Agent) (q : PReg) (d : VReg) (s1 : VReg) (s2 : VReg)
  /-- RDSYS (R95) -/
  | rdsys (a : Agent) (q : PReg) (d : Reg) (n : BitVec 9)
  /-- WRSYS (R95) -/
  | wrsys (a : Agent) (q : PReg) (s1 : Reg) (n : BitVec 9)
  /-- SYSCALL (R106) -/
  | syscall (a : Agent) (q : PReg)
  /-- BREAK (R106) -/
  | break_ (a : Agent) (q : PReg)
  /-- ERET (R106) -/
  | eret (a : Agent) (q : PReg)
  /-- WAIT (R106) -/
  | wait (a : Agent) (q : PReg)
  /-- WRPKEY (R189) -/
  | wrpkey (a : Agent) (q : PReg) (s1 : Reg)
  /-- RDPKEY (R106) -/
  | rdpkey (a : Agent) (q : PReg) (d : Reg)
  /-- RDHOOP (R107) -/
  | rdhoop (a : Agent) (q : PReg) (d : Reg)
  /-- RDBEAT (R564) -/
  | rdbeat (a : Agent) (q : PReg) (d : Reg)
  /-- TLBINV_L_ALL (R192) -/
  | tlbinvAll (a : Agent) (q : PReg)
  /-- TLBINV_L_ASID (R192) -/
  | tlbinvAsid (a : Agent) (q : PReg) (s1 : Reg)
  /-- TLBINV_L_VA (R192) -/
  | tlbinvVa (a : Agent) (q : PReg) (s1 : Reg) (s2 : Reg)
  /-- TLBINV_L_VAALL (R192) -/
  | tlbinvVaall (a : Agent) (q : PReg) (s1 : Reg)
  /-- CLEAN_P (R219) -/
  | cleanP (a : Agent) (q : PReg) (s1 : Reg)
  /-- CLEAN_D (R219) -/
  | cleanD (a : Agent) (q : PReg) (s1 : Reg)
  /-- FLUSH_P (R219) -/
  | flushP (a : Agent) (q : PReg) (s1 : Reg)
  /-- FLUSH_D (R219) -/
  | flushD (a : Agent) (q : PReg) (s1 : Reg)
  /-- INTERRUPT_ENTRY (R502) -/
  | interruptEntry (n : CoreId)
  /-- STORE_DRAIN (R123) -/
  | storeDrain (n : CoreId)
  /-- PARKED_LOAD (R126) -/
  | parkedLoad (n : CoreId)
  /-- MEMORY_ORDER_REPLAY (R128) -/
  | memoryOrderReplay (n : CoreId) (loadAddr : W64)
  /-- CACHE_FILL (R199) -/
  | cacheFill (ag : CohAgent) (line : LineNo) (fetch : Bool) (wrongPath : Bool) (err : LookupErr)
  /-- TABLE_WALK (R183) -/
  | tableWalk (n : CoreId) (va : W64) (kind : AccKind) (wrongPath : Bool)
  /-- SEQUENCER_MISS_FILL (R141) -/
  | sequencerMissFill (a : SeqId)
  /-- LONG_LATENCY_COMPLETION (R137) -/
  | longLatencyCompletion (a : SeqId)
  /-- SEQ_MODE_IN_FORCE (R105) -/
  | seqModeInForce (a : SeqId)
  /-- READ (R216) -/
  | read (ag : CohAgent) (line : LineNo) (err : LookupErr)
  /-- READ_FOR_OWNERSHIP (R216) -/
  | readForOwnership (ag : CohAgent) (line : LineNo)
  /-- UPGRADE (R216) -/
  | upgrade (ag : CohAgent) (line : LineNo)
  /-- WRITEBACK (R221) -/
  | writeback (ag : CohAgent) (line : LineNo)
  /-- FORWARDED_READ (R216) -/
  | forwardedRead (ag : CohAgent) (line : LineNo)
  /-- INVALIDATION (R216) -/
  | invalidation (ag : CohAgent) (line : LineNo)
  /-- VICTIM_WRITEBACK_ACK (R220) -/
  | victimWritebackAck (slice : SliceId) (line : LineNo)
  /-- WAY_RETIREMENT (R210) -/
  | wayRetirement (slice : SliceId) (way : Fin 16)
  /-- WAY_CLEANING_COMPLETION (R211) -/
  | wayCleaningCompletion (slice : SliceId)
  /-- WIRE_GROUP_FAILURE (R227) -/
  | wireGroupFailure (base : Fin 4) (bridge : Fin 8)
  /-- CHANNEL_READ (R233) -/
  | channelRead (ch : ChanId) (line : LineNo) (port : QosPort) (out : ReadOutcome) (latencyNs : Nat) (yielded : Bool) (sameRow : Bool)
  /-- CHANNEL_WRITE (R234) -/
  | channelWrite (ch : ChanId) (line : LineNo) (port : QosPort) (sameRow : Bool)
  /-- ROW_ACTIVATION (R241) -/
  | rowActivation (ch : ChanId) (bank : Nat) (row : Nat) (port : QosPort)
  /-- REFRESH_WINDOW_END (R241) -/
  | refreshWindowEnd (ch : ChanId)
  /-- SCRUB (R235) -/
  | scrub (ch : ChanId) (out : ReadOutcome)
  /-- ROW_REPAIR (R236) -/
  | rowRepair (ch : ChanId) (bank : Nat) (row : Nat) (soft : Bool) (outs : List ReadOutcome)
  /-- RANK_COPY_COMPLETION (R238) -/
  | rankCopyCompletion (ch : ChanId)
  /-- RETRAINING (R250) -/
  | retraining (ch : ChanId) (rank : Fin 8) (begins : Bool) (passes : Bool) (temp : Int) (fallbackFails : BitVec 8)
  /-- SPEED_CHANGE_DEFERRAL_EXPIRY (R250) -/
  | speedChangeDeferralExpiry
  /-- THROUGHPUT_INTERVAL (R271) -/
  | throughputInterval (ch : ChanId) (port : QosPort) (waiting : Bool) (belowShare : Bool)
  /-- MBX_DOORBELL (R281) -/
  | mbxDoorbell (p : Slot) (v : W64) (slots : List (Nat × W64))
  /-- MBX_CQ_CONS (R284) -/
  | mbxCqCons (p : Slot) (v : W64)
  /-- COMMAND_ACCEPTANCE (R282) -/
  | commandAcceptance
  /-- MAILBOX_COMPLETION (R281) -/
  | mailboxCompletion (p : Slot)
  /-- PORT_SUSPENSION (R292) -/
  | portSuspension (p : Slot)
  /-- PORT_SUSPENSION_END (R292) -/
  | portSuspensionEnd (p : Slot)
  /-- OFFICER_SESSION_OPEN (R295) -/
  | officerSessionOpen (c0 : BitVec 384) (c1 : BitVec 384) (good0 : Bool) (good1 : Bool)
  /-- OFFICER_SESSION_END (R295) -/
  | officerSessionEnd (removed : Bool)
  /-- CHALLENGE_LOCKOUT_END (R295) -/
  | challengeLockoutEnd
  /-- CARD_POLL (R577) -/
  | cardPoll (card : Fin 2) (obj : CardObj) (good : Bool)
  /-- APPROVAL_EXPIRY (R319) -/
  | approvalExpiry
  /-- AUDITOR_SESSION_OPEN (R299) -/
  | auditorSessionOpen (key : BitVec 384)
  /-- AUDITOR_MESSAGE (R299) -/
  | auditorMessage (a : Fin 2) (m : Bytes)
  /-- AUDITOR_SESSION_END (R299) -/
  | auditorSessionEnd (a : Fin 2) (closed : Bool)
  /-- ECHO (R296) -/
  | echo (p : Slot) (k : Fin 16)
  /-- DEVICE_STATUS (R296) -/
  | deviceStatus (p : Slot) (k : Fin 16)
  /-- LOG_READ (R296) -/
  | logRead (p : Slot) (k : Fin 16)
  /-- SENSOR_READ (R602) -/
  | sensorRead (p : Slot) (k : Fin 16)
  /-- TAKE_OWNERSHIP (R296) -/
  | takeOwnership (p : Slot) (k : Fin 16) (flashFault : Bool)
  /-- CEREMONY_OPEN (R293) -/
  | ceremonyOpen (p : Slot) (k : Fin 16)
  /-- CEREMONY_CLOSE (R293) -/
  | ceremonyClose (p : Slot) (k : Fin 16) (flashFault : Bool)
  /-- OWNER_LOCK (R293) -/
  | ownerLock (p : Slot) (k : Fin 16)
  /-- OWNER_UNLOCK (R293) -/
  | ownerUnlock (p : Slot) (k : Fin 16)
  /-- RETIRE (R293) -/
  | retire (p : Slot) (k : Fin 16)
  /-- OFFICER_ENROLL (R296) -/
  | officerEnroll (p : Slot) (k : Fin 16) (cert : BitVec 384)
  /-- PAT_WRITE (R287) -/
  | patWrite (p : Slot) (k : Fin 16)
  /-- PAT_READ (R296) -/
  | patRead (p : Slot) (k : Fin 16)
  /-- DEBUG_UNLOCK (R573) -/
  | debugUnlock (p : Slot) (k : Fin 16)
  /-- CRED_SET (R299) -/
  | credSet (p : Slot) (k : Fin 16)
  /-- CREEL_ASSIGN (R252) -/
  | creelAssign (p : Slot) (k : Fin 16)
  /-- GRANT_SET (R254) -/
  | grantSet (p : Slot) (k : Fin 16)
  /-- CREEL_RELEASE (R320) -/
  | creelRelease (p : Slot) (k : Fin 16)
  /-- CREEL_QUOTA (R298) -/
  | creelQuota (p : Slot) (k : Fin 16)
  /-- WAY_SET (R262) -/
  | waySet (p : Slot) (k : Fin 16)
  /-- QOS_SET (R247) -/
  | qosSet (p : Slot) (k : Fin 16)
  /-- CREEL_START (R530) -/
  | creelStart (p : Slot) (k : Fin 16)
  /-- CREEL_STOP (R296) -/
  | creelStop (p : Slot) (k : Fin 16)
  /-- CREEL_RESET (R266) -/
  | creelReset (p : Slot) (k : Fin 16)
  /-- SEGMENT_SET (R261) -/
  | segmentSet (p : Slot) (k : Fin 16)
  /-- SEGMENT_READ (R296) -/
  | segmentRead (p : Slot) (k : Fin 16)
  /-- RESOURCE_ALLOC (R298) -/
  | resourceAlloc (p : Slot) (k : Fin 16)
  /-- RESOURCE_FREE (R298) -/
  | resourceFree (p : Slot) (k : Fin 16)
  /-- CORE_GATE (R132) -/
  | coreGate (p : Slot) (k : Fin 16)
  /-- CORE_WAKE (R132) -/
  | coreWake (p : Slot) (k : Fin 16)
  /-- BREACH_RESET (R272) -/
  | breachReset (p : Slot) (k : Fin 16)
  /-- MEM_STATUS (R249) -/
  | memStatus (p : Slot) (k : Fin 16)
  /-- MEM_SPEED (R250) -/
  | memSpeed (p : Slot) (k : Fin 16)
  /-- RANK_COPY (R238) -/
  | rankCopy (p : Slot) (k : Fin 16)
  /-- ADDR_DECODE (R231) -/
  | addrDecode (p : Slot) (k : Fin 16)
  /-- SCRUB_PERIOD (R235) -/
  | scrubPeriod (p : Slot) (k : Fin 16)
  /-- DISTURB_SET (R241) -/
  | disturbSet (p : Slot) (k : Fin 16)
  /-- WAY_POWER (R211) -/
  | wayPower (p : Slot) (k : Fin 16)
  /-- QOS_COUNTER_RESET (R247) -/
  | qosCounterReset (p : Slot) (k : Fin 16)
  /-- RESERVE_REPORT (R557) -/
  | reserveReport (p : Slot) (k : Fin 16)
  /-- CORE_MAP (R296) -/
  | coreMap (p : Slot) (k : Fin 16)
  /-- MEASURE_READ (R296) -/
  | measureRead (p : Slot) (k : Fin 16)
  /-- HOOP_STATUS (R437) -/
  | hoopStatus (p : Slot) (k : Fin 16)
  /-- HOOP_SOURCES (R437) -/
  | hoopSources (p : Slot) (k : Fin 16)
  /-- HOOP_PTP (R437) -/
  | hoopPtp (p : Slot) (k : Fin 16)
  /-- HOOP_CAL (R436) -/
  | hoopCal (p : Slot) (k : Fin 16)
  /-- HOOP_SECONDS (R430) -/
  | hoopSeconds (p : Slot) (k : Fin 16)
  /-- HOOP_STEP (R433) -/
  | hoopStep (p : Slot) (k : Fin 16)
  /-- PAIR_BEGIN (R443) -/
  | pairBegin (p : Slot) (k : Fin 16) (serial : Bytes) (verified : Bool) (shared : BitVec 256) (storage : BitVec 256) (gens : List Nat)
  /-- PAIR_STATUS (R464) -/
  | pairStatus (p : Slot) (k : Fin 16)
  /-- PAIR_POLICY (R453) -/
  | pairPolicy (p : Slot) (k : Fin 16)
  /-- PAIR_REGION (R447) -/
  | pairRegion (p : Slot) (k : Fin 16) (partnerOk : Bool)
  /-- PAIR_ROLE (R462) -/
  | pairRole (p : Slot) (k : Fin 16)
  /-- PAIR_WITNESS (R464) -/
  | pairWitness (p : Slot) (k : Fin 16)
  /-- PAIR_DISSOLVE (R464) -/
  | pairDissolve (p : Slot) (k : Fin 16)
  /-- UPDATE_STAGE (R538) -/
  | updateStage (p : Slot) (k : Fin 16)
  /-- ACTIVATE (R539) -/
  | activate (p : Slot) (k : Fin 16)
  /-- UPDATE_CONFIRM (R543) -/
  | updateConfirm (p : Slot) (k : Fin 16)
  /-- UPDATE_REJECT (R545) -/
  | updateReject (p : Slot) (k : Fin 16)
  /-- UPDATE_STATUS (R547) -/
  | updateStatus (p : Slot) (k : Fin 16)
  /-- CONFIG_SAVE (R536) -/
  | configSave (p : Slot) (k : Fin 16) (flashFault : Bool)
  /-- CONFIG_READ (R547) -/
  | configRead (p : Slot) (k : Fin 16)
  /-- CREEL_BOOT_SET (R531) -/
  | creelBootSet (p : Slot) (k : Fin 16)
  /-- DEVICE_CONFIG (R548) -/
  | deviceConfig (p : Slot) (k : Fin 16)
  /-- UPDATE_WINDOW (R543) -/
  | updateWindow (p : Slot) (k : Fin 16)
  /-- WARM_RESET (R522) -/
  | warmReset (p : Slot) (k : Fin 16)
  /-- HR_DOORBELL (R343) -/
  | hrDoorbell (r : Fin 1024) (v : W64)
  /-- HR_CTRL (R340) -/
  | hrCtrl (r : Fin 1024) (v : W64)
  /-- HR_CQ_CONS (R343) -/
  | hrCqCons (r : Fin 1024) (v : W64)
  /-- DESCRIPTOR_TAKE (R343) -/
  | descriptorTake (r : Fin 1024)
  /-- HAMPER_COMPLETION (R348) -/
  | hamperCompletion (id : Nat)
  /-- KEY_GEN (R352) -/
  | keyGen (id : Nat) (consistent : Bool)
  /-- KEY_IMPORT (R353) -/
  | keyImport (id : Nat)
  /-- KEY_EXPORT (R316) -/
  | keyExport (id : Nat)
  /-- KEY_STORE (R315) -/
  | keyStore (id : Nat)
  /-- KEY_LOAD (R315) -/
  | keyLoad (id : Nat)
  /-- KEY_INFO (R313) -/
  | keyInfo (id : Nat)
  /-- KEY_MODIFY (R318) -/
  | keyModify (id : Nat)
  /-- KEY_DESTROY (R320) -/
  | keyDestroy (id : Nat)
  /-- KEY_PUBLIC (R354) -/
  | keyPublic (id : Nat)
  /-- KEY_IMPORT_PUBLIC (R354) -/
  | keyImportPublic (id : Nat)
  /-- KEY_COMBINE (R353) -/
  | keyCombine (id : Nat)
  /-- SESSION_OPEN (R355) -/
  | sessionOpen (id : Nat)
  /-- SESSION_BIND (R355) -/
  | sessionBind (id : Nat)
  /-- SESSION_CLOSE (R326) -/
  | sessionClose (id : Nat)
  /-- SESSION_INFO (R614) -/
  | sessionInfo (id : Nat)
  /-- SESSION_EXPIRY (R326) -/
  | sessionExpiry (n : Fin 4096)
  /-- SYM_ECB (R356) -/
  | symEcb (id : Nat)
  /-- SYM_CBC (R356) -/
  | symCbc (id : Nat)
  /-- SYM_CTR (R356) -/
  | symCtr (id : Nat)
  /-- SYM_GCM (R357) -/
  | symGcm (id : Nat)
  /-- SYM_XTS (R357) -/
  | symXts (id : Nat)
  /-- SYM_CMAC (R356) -/
  | symCmac (id : Nat)
  /-- PIN_TRANSLATE (R359) -/
  | pinTranslate (id : Nat)
  /-- PIN_VERIFY (R360) -/
  | pinVerify (id : Nat)
  /-- EMV_ARQC_VERIFY (R362) -/
  | emvArqcVerify (id : Nat)
  /-- EMV_ARPC (R363) -/
  | emvArpc (id : Nat)
  /-- ARQC_ENTRY_EXPIRY (R364) -/
  | arqcEntryExpiry (cr : CreelId)
  /-- CVC_GENERATE (R366) -/
  | cvcGenerate (id : Nat)
  /-- CVC_VERIFY (R366) -/
  | cvcVerify (id : Nat)
  /-- FF1_TOKENISE (R367) -/
  | ff1Tokenise (id : Nat)
  /-- FF1_DETOKENISE (R367) -/
  | ff1Detokenise (id : Nat)
  /-- SIGN (R369) -/
  | sign (id : Nat)
  /-- VERIFY (R368) -/
  | verify (id : Nat)
  /-- KEM_ENCAP (R368) -/
  | kemEncap (id : Nat)
  /-- KEM_DECAP (R369) -/
  | kemDecap (id : Nat)
  /-- HASH (R358) -/
  | hash (id : Nat)
  /-- HMAC (R358) -/
  | hmac (id : Nat)
  /-- RAND (R358) -/
  | rand (id : Nat)
  /-- AUDIT_SETUP (R370) -/
  | auditSetup (id : Nat)
  /-- AUDIT_CONSUMED (R370) -/
  | auditConsumed (id : Nat)
  /-- AUDIT_CHECKPOINT (R335) -/
  | auditCheckpoint (id : Nat)
  /-- AUDIT_HEAD (R370) -/
  | auditHead (id : Nat)
  /-- ATTEST_REPORT (R371) -/
  | attestReport (id : Nat)
  /-- ATTEST_IDENTITY (R371) -/
  | attestIdentity (id : Nat)
  /-- CHECKPOINT_SIGNED (R336) -/
  | checkpointSigned (cr : CreelId)
  /-- KEY_CACHE_FILL (R324) -/
  | keyCacheFill (cr : CreelId) (h : W64) (line : LookupErr)
  /-- DRBG_RESEED (R330) -/
  | drbgReseed (inst : Fin 65)
  /-- HEALTH_TEST_FAILURE (R331) -/
  | healthTestFailure
  /-- HEALTH_TEST_RERUN (R331) -/
  | healthTestRerun (passes : Bool)
  /-- KNOWN_ANSWER_TEST (R579) -/
  | knownAnswerTest (engine : Fin 70) (passes : Bool)
  /-- PQ_DOORBELL (R381) -/
  | pqDoorbell (n : Fin 256) (v : W64)
  /-- PQ_CTRL (R381) -/
  | pqCtrl (n : Fin 256) (v : W64)
  /-- PQ_CQ_CONS (R381) -/
  | pqCqCons (n : Fin 256) (v : W64)
  /-- JOB_TAKE (R383) -/
  | jobTake (u : Fin 16)
  /-- IMAGE_LOAD (R388) -/
  | imageLoad (u : Fin 16)
  /-- INGEST_DECRYPTION (R383) -/
  | ingestDecryption (u : Fin 16) (k : Fin 4)
  /-- FIELD_EXTRACTION (R392) -/
  | fieldExtraction (u : Fin 16) (k : Fin 4)
  /-- CALL_DOOR (R408) -/
  | callDoor (u : Fin 16) (k : Fin 4) (q : PReg) (dst : Reg) (p : BitVec 16)
  /-- CONVERT (R409) -/
  | convert (u : Fin 16) (k : Fin 4) (q : PReg) (dst : Reg) (p : BitVec 16)
  /-- DECIMAL (R410) -/
  | decimal (u : Fin 16) (k : Fin 4) (q : PReg) (dst : Reg) (p : BitVec 16)
  /-- EMIT (R411) -/
  | emit (u : Fin 16) (k : Fin 4) (q : PReg) (dst : Reg) (p : BitVec 16)
  /-- NEXT (R412) -/
  | next (u : Fin 16) (k : Fin 4) (q : PReg) (dst : Reg)
  /-- CANON (R413) -/
  | canon (u : Fin 16) (k : Fin 4) (q : PReg) (dst : Reg) (p : BitVec 16)
  /-- END (R414) -/
  | end_ (u : Fin 16) (k : Fin 4)
  /-- DOOR_OPERATION_COMPLETION (R407) -/
  | doorOperationCompletion (u : Fin 16) (k : Fin 4)
  /-- JOB_TIME_LIMIT (R417) -/
  | jobTimeLimit (u : Fin 16) (k : Fin 4)
  /-- PLAITER_UNIT_REPLACEMENT (R421) -/
  | plaiterUnitReplacement (u : Fin 16)
  /-- HOOP_PPS (R429) -/
  | hoopPps (cycles : Nat) (tenM : Bool)
  /-- PTP_MESSAGE (R431) -/
  | ptpMessage (sync : Bool) (offset : Int) (utc : Option (BitVec 8))
  /-- SOURCE_LOST (R432) -/
  | sourceLost (src : Fin 3) (inputLost : Bool)
  /-- HOOP_SECONDS_DISCARD (R430) -/
  | hoopSecondsDiscard
  /-- SLEW_COMPLETE (R432) -/
  | slewComplete
  /-- HOLDOVER_ALARM (R432) -/
  | holdoverAlarm
  /-- HOOP_SECONDS_SAVE (R425) -/
  | hoopSecondsSave
  /-- HEARTBEAT_SEND (R454) -/
  | heartbeatSend
  /-- HEARTBEAT (R454) -/
  | heartbeat (seq : Nat) (sec : W64) (frac : W32) (hst : BitVec 2) (src : BitVec 2) (pst : BitVec 3) (fence : Bool) (epoch : W64) (advised : Bool)
  /-- PARTNER_LOSS (R454) -/
  | partnerLoss
  /-- FENCE_CLAIM (R455) -/
  | fenceClaim
  /-- FENCE_CHECK (R455) -/
  | fenceCheck
  /-- PFENCE_IN (R457) -/
  | pfenceIn (level : Bool)
  /-- WITNESS_CLAIM (R465) -/
  | witnessClaim
  /-- WITNESS_GRANT (R465) -/
  | witnessGrant (m : Bytes)
  /-- WITNESS_TIMEOUT (R456) -/
  | witnessTimeout
  /-- TAKEOVER (R458) -/
  | takeover
  /-- LINK_DOWN_TIMEOUT (R459) -/
  | linkDownTimeout
  /-- LINK_BRING_UP (R459) -/
  | linkBringUp (bundles : BitVec 8)
  /-- FRAME_RETRANSMIT (R439) -/
  | frameRetransmit
  /-- LINK_FRAME (R439) -/
  | linkFrame (cls : Fin 7) (seq : Nat) (tagOk : Bool) (msg : PairMsg)
  /-- LINK_REKEY (R441) -/
  | linkRekey
  /-- BUNDLE_FAILURE (R440) -/
  | bundleFailure (b : Fin 8)
  /-- COMMIT_ACKNOWLEDGEMENT (R452) -/
  | commitAcknowledgement (id : Nat)
  /-- COMMIT_DEADLINE (R450) -/
  | commitDeadline (id : Nat)
  /-- COMMIT_APPLY (R449) -/
  | commitApply (cr : CreelId)
  /-- LAG_ALARM (R451) -/
  | lagAlarm (cr : CreelId)
  /-- JOINING_END (R459) -/
  | joiningEnd (cfgs : List W64)
  /-- RESYNC_COPY_END (R460) -/
  | resyncCopyEnd (cr : CreelId)
  /-- LGC_CTL (R479) -/
  | lgcCtl (lg : Fin 10) (v : W64)
  /-- LGC_TAGS (R475) -/
  | lgcTags (lg : Fin 10) (v : W64)
  /-- LGC_STRICT (R474) -/
  | lgcStrict (lg : Fin 10) (k : Fin 16) (v : W64)
  /-- LGC_HDM (R473) -/
  | lgcHdm (lg : Fin 10) (k : Fin 8) (v : W64)
  /-- HF_COMMIT (R486) -/
  | hfCommit (ep : Fin 2) (cr : CreelId) (v : W64)
  /-- HF_EXPORT (R483) -/
  | hfExport (ep : Fin 2) (cr : CreelId) (j : Fin 16) (v : W64)
  /-- INBOUND_REQUEST (R468) -/
  | inboundRequest (lg : Fin 10) (fn : Fin 65) (r : Inbound)
  /-- INBOUND_MSI (R505) -/
  | inboundMsi (lg : Fin 10) (fn : Fin 65) (off : BitVec 12) (data : W32)
  /-- HOST_PAGE_ACCESS (R482) -/
  | hostPageAccess (ep : Fin 2) (fn : Fin 65) (off : BitVec 16) (write : Bool) (size : Fin 9) (v : W64)
  /-- OUTBOUND_ACCESS (R484) -/
  | outboundAccess (ep : Fin 2) (cr : CreelId) (off : BitVec 31) (write : Bool) (core : Option CoreId) (data : Bytes)
  /-- COMPLETION_ARRIVAL (R160) -/
  | completionArrival (lg : Fin 10) (tag : BitVec 10) (status : CplStatus) (data : Bytes) (poison : Bool)
  /-- COMPLETION_TIMEOUT (R476) -/
  | completionTimeout (lg : Fin 10) (tag : BitVec 10)
  /-- LATE_COMPLETION (R477) -/
  | lateCompletion (lg : Fin 10) (tag : BitVec 10)
  /-- QUARANTINE_END (R477) -/
  | quarantineEnd (lg : Fin 10) (tag : BitVec 10)
  /-- PERST_N (R487) -/
  | perstN (ep : Fin 2)
  /-- FUNCTION_LEVEL_RESET (R487) -/
  | functionLevelReset (ep : Fin 2) (fn : Fin 65)
  /-- LINK_STATE_CHANGE (R479) -/
  | linkStateChange (lg : Fin 10) (port : Fin 4)
  /-- DPC_RELEASE (R479) -/
  | dpcRelease (lg : Fin 10) (port : Fin 4) (linkFell : Bool)
  /-- MSI_X_MESSAGE (R488) -/
  | msiXMessage (ep : Fin 2) (fn : Fin 65) (vec : Fin 2048)
  /-- FRAME_RECEIVE (R490) -/
  | frameReceive (port : Fin 8) (b : Bytes) (fcsOk : Bool)
  /-- LQ_RXDB (R494) -/
  | lqRxdb (cr : CreelId) (slot : Fin 16) (v : W64)
  /-- LQ_TXDB (R495) -/
  | lqTxdb (cr : CreelId) (slot : Fin 16) (v : W64)
  /-- LQ_CTRL (R494) -/
  | lqCtrl (cr : CreelId) (slot : Fin 16) (v : W64)
  /-- FRAME_TRANSMIT (R495) -/
  | frameTransmit (port : Fin 8)
  /-- IR_SRC_WRITE (R500) -/
  | irSrcWrite (cr : CreelId) (v : W64)
  /-- IR_IPI (R504) -/
  | irIpi (cr : CreelId) (v : W64)
  /-- EVENT (R501) -/
  | event (src : BitVec 13) (cr : CreelId)
  /-- VECTOR_DELIVERY (R503) -/
  | vectorDelivery (src : BitVec 13)
  /-- UC_FREEZE (R566) -/
  | ucFreeze (cr : CreelId) (v : W64)
  /-- REGISTER_WRITE (R8) -/
  | registerWrite (core : Option CoreId) (cr : CreelId) (pa : W64) (size : Fin 9) (v : W64)
  /-- FATAL_DEVICE_ERROR (R518) -/
  | fatalDeviceError (unit : Fin 12) (code : BitVec 16)
  /-- SYS_RESET_N (R521) -/
  | sysResetN (ns : Nat) (cut : Bool)
  /-- COLD_START (R528) -/
  | coldStart (inp : StartIn)
  /-- WARM_RESET_N (R522) -/
  | warmResetN (ns : Nat)
  /-- RECOVERY_BUNDLE (R527) -/
  | recoveryBundle (b : Bytes)
  /-- CREEL_RELEASE_BOOT (R530) -/
  | creelReleaseBoot (cr : CreelId) (reason : Fin 4)
  /-- HELD_CORE_START (R530) -/
  | heldCoreStart (n : CoreId)
  /-- HEALTH_CONFIRMATION (R544) -/
  | healthConfirmation
  /-- HEALTH_WINDOW_EXPIRY (R543) -/
  | healthWindowExpiry
  /-- HEALTH_CHECK_FAILURE (R542) -/
  | healthCheckFailure
  /-- FALL_BACK_RETRY (R545) -/
  | fallBackRetry
  /-- SLACK_SAMPLE (R549) -/
  | slackSample (kind : Fin 9) (unit : BitVec 12) (ratio : Nat)
  /-- RETIREMENT_TRIGGER (R550) -/
  | retirementTrigger (kind : Fin 9) (unit : BitVec 12)
  /-- CORE_SWAP (R554) -/
  | coreSwap (n : CoreId)
  /-- OLD_TILE_POWER_OFF (R554) -/
  | oldTilePowerOff (t : Fin 224)
  /-- FLASH_BLOCK_RETIREMENT (R552) -/
  | flashBlockRetirement (flash : Fin 2) (blk : Nat)
  /-- BORDER_TRIP (R569) -/
  | borderTrip (sensor : Fin 7) (reading : W64) (onVbat : Bool)
  /-- PWRBRAKE_N (R595) -/
  | pwrbrakeN (level : Bool)
  /-- GOVERNOR_TICK (R595) -/
  | governorTick (powers : List Nat) (currents : List Nat) (tj : List Nat)
  /-- THERMTRIP (R600) -/
  | thermtrip (die : Fin 9)
  /-- REFERENCE_CLOCK_LOSS (R597) -/
  | referenceClockLoss (inp : RefClock)
  /-- RAIL_EXCURSION (R590) -/
  | railExcursion (rail : Fin 6) (mv : Nat)
  /-- RANK_COPY_LINE (R238) -/
  | rankCopyLine (ch : ChanId) (out : ReadOutcome)
  /-- RESYNC_LINE_COPY (R460) -/
  | resyncLineCopy (cr : CreelId)
  /-- BACK_OFF_ALERT (R240) -/
  | backOffAlert (ch : ChanId) (rank : Fin 8)
  /-- OPEN_ROW_TIMEOUT (R245) -/
  | openRowTimeout (ch : ChanId) (bank : Nat)
  /-- LINK_TRAINED (R528) -/
  | linkTrained (l : TrainedLink)
  /-- LINE_PORT_LINK_DOWN (R499) -/
  | linePortLinkDown (port : Fin 8)
  /-- HOST_CONFIG_WRITE (R487) -/
  | hostConfigWrite (ep : Fin 2) (fn : Fin 65) (w : HostCfg)
  /-- HOOP_PPS_OUT (R436) -/
  | hoopPpsOut
  /-- HUB_PORT_COUNT_LOG (R567) -/
  | hubPortCountLog
  deriving DecidableEq, Repr

end Sys2Proof
end

