-- ==== Sys2Proof/WellFormed.lean ====
section
/-!
DEFINITION. Commands whose operands a sender can give: what the operand types leave open is checked here. `exec` gives every
term a meaning, well formed or not.
-/
namespace Sys2Proof

/-- A register access has one of the four sizes of 00/R12. -/
def accessSize (n : Nat) : Bool := n == 1 || n == 2 || n == 4 || n == 8
/-- An inbound request names at least one byte, and an atomic one of the operand sizes of 16/R472. -/
def Inbound.wellFormed : Inbound → Bool
  | .read _ _ => true
  | .write _ b _ => !b.isEmpty
  | .atomic _ n _ _ _ => n == 4 || n == 8 || n == 16
def Instr.wellFormed : Instr → Bool
  | .registerWrite _ _ _ size _ => accessSize size.val
  | .hostPageAccess _ _ _ _ size _ => accessSize size.val
  | .hfExport _ _ j _ => j.val != 0
  | .inboundRequest _ _ r => r.wellFormed
  | .outboundAccess _ _ _ _ _ data => !data.isEmpty
  | .governorTick powers currents tj => powers.length == 6 && currents.length == 4 && tj.length == 4
  | _ => true

end Sys2Proof
end

