-- ==== Sys2Proof/Decode.lean ====
section
/-!
DEFINITION. The words of MIS-3 (02/R35 to R45, 03/R73 to R106): the fields of a word, the map of the major opcodes, and the
instruction a word names on a core or a sequencer. Then the words of the opcode table: no row of spec/opcode_table.json gives
bits, so none spells a command.
-/
namespace Sys2Proof

/-! ## Fields (02/R36) -/

def wordGuard (w : W32) : PReg := w.extractLsb' 28 4
def wordMajor (w : W32) : Nat := (w.extractLsb' 21 7).toNat
def wordD (w : W32) : Reg := w.extractLsb' 15 6
def wordS1 (w : W32) : Reg := w.extractLsb' 9 6
def wordS2 (w : W32) : Reg := w.extractLsb' 3 6
def wordMinor (w : W32) : Nat := (w.extractLsb' 0 3).toNat
def wordImm9 (w : W32) : BitVec 9 := w.extractLsb' 0 9
def wordOffset (w : W32) : BitVec 7 := w.extractLsb' 2 7
def wordMark (w : W32) : Mark := w.extractLsb' 0 2
def wordDisp (w : W32) : BitVec 21 := w.extractLsb' 0 21
def wordPt (w : W32) : PReg := w.extractLsb' 17 4
def wordPf (w : W32) : PReg := w.extractLsb' 13 4
def wordC1 (w : W32) : Reg := w.extractLsb' 7 6
def wordC2 (w : W32) : Reg := w.extractLsb' 1 6
def wordU (w : W32) : Bool := w.getLsbD 0
def wordImm15 (w : W32) : BitVec 15 := w.extractLsb' 0 15

/-! ## The map of the major opcodes (02/R44) -/

/-- The families of the map; a major opcode without one is reserved (R38), 0x7F for ever (R39). -/
inductive Family where
  | integer | immediate | longImmediate | compare | predicate | branch | memory | pair | atomic | barrier | float | decimal
  | vector | assist | system
  deriving DecidableEq, Repr
def familyOf (major : Nat) : Option Family :=
  if major ≤ 0x04 then some .integer
  else if 0x08 ≤ major ∧ major ≤ 0x0F then some .immediate
  else if 0x10 ≤ major ∧ major ≤ 0x11 then some .longImmediate
  else if 0x18 ≤ major ∧ major ≤ 0x1C then some .compare
  else if 0x20 ≤ major ∧ major ≤ 0x23 then some .predicate
  else if 0x28 ≤ major ∧ major ≤ 0x2B then some .branch
  else if 0x30 ≤ major ∧ major ≤ 0x3B then some .memory
  else if 0x3C ≤ major ∧ major ≤ 0x3F then some .pair
  else if 0x40 ≤ major ∧ major ≤ 0x47 then some .atomic
  else if 0x48 ≤ major ∧ major ≤ 0x4B then some .barrier
  else if 0x50 ≤ major ∧ major ≤ 0x57 then some .float
  else if 0x58 ≤ major ∧ major ≤ 0x5F then some .decimal
  else if 0x60 ≤ major ∧ major ≤ 0x6B then some .vector
  else if 0x6C ≤ major ∧ major ≤ 0x6F then some .assist
  else if 0x70 ≤ major ∧ major ≤ 0x77 then some .system
  else none
/-- The formats of 02/R36. -/
inductive Format where
  | a | i | m | b | c | l
  deriving DecidableEq, Repr
/-- The format of a major opcode that the map allocates (R44, R45, R73 to R79, R106). -/
def formatOf (major : Nat) : Option Format :=
  match familyOf major with
  | none => none
  | some .immediate => some .i
  | some .longImmediate => some .l
  | some .compare | some .predicate => some .c
  | some .branch => some (if major ≤ 0x29 then .b else if major = 0x2A then .a else .i)
  | some .memory | some .pair => some .m
  | some .atomic => some (if 0x45 ≤ major then .m else .a)
  | some .system => some (if major ≤ 0x71 then .i else .a)
  | some _ => some .a

/-! ## One family at a time: the instruction of a word, none for a reserved encoding (02/R37, R38) -/

/-- A must-be-zero rule (R37). -/
def mbz (zero : Bool) (i : Instr) : Option Instr := if zero then some i else none

/-- Majors 0x00 to 0x04 (02/R45, R48, R54). The word 0x0000_0000 is reserved (R38). -/
def decodeInteger (a : Agent) (w : W32) : Option Instr :=
  let q := wordGuard w
  let d := wordD w
  let x := wordS1 w
  let y := wordS2 w
  match wordMajor w, wordMinor w with
  | 0, 0 => mbz (w != 0) (.add a q d x y) | 0, 1 => some (.sub a q d x y) | 0, 2 => some (.and a q d x y)
  | 0, 3 => some (.or a q d x y) | 0, 4 => some (.xor a q d x y) | 0, 5 => some (.andn a q d x y)
  | 0, 6 => some (.orn a q d x y) | 0, 7 => some (.xnor a q d x y)
  | 1, 0 => some (.sll a q d x y) | 1, 1 => some (.srl a q d x y) | 1, 2 => some (.sra a q d x y)
  | 1, 3 => some (.rol a q d x y) | 1, 4 => some (.ror a q d x y) | 1, 5 => some (.addw a q d x y)
  | 1, 6 => some (.subw a q d x y)
  | 2, 0 => some (.mul a q d x y) | 2, 1 => some (.mulhs a q d x y) | 2, 2 => some (.mulhu a q d x y)
  | 2, 4 => some (.div a q d x y) | 2, 5 => some (.divu a q d x y) | 2, 6 => some (.rem a q d x y)
  | 2, 7 => some (.remu a q d x y)
  | 3, 0 => some (.min a q d x y) | 3, 1 => some (.max a q d x y) | 3, 2 => some (.minu a q d x y)
  | 3, 3 => some (.maxu a q d x y) | 3, 4 => mbz (y == 0) (.clz a q d x) | 3, 5 => mbz (y == 0) (.ctz a q d x)
  | 3, 6 => mbz (y == 0) (.popc a q d x) | 3, 7 => mbz (y == 0) (.bswap a q d x)
  | 4, 0 => mbz (y == 0) (.sextb a q d x) | 4, 1 => mbz (y == 0) (.sexth a q d x) | 4, 2 => mbz (y == 0) (.sextw a q d x)
  | 4, 3 => mbz (y == 0) (.zextb a q d x) | 4, 4 => mbz (y == 0) (.zexth a q d x) | 4, 5 => mbz (y == 0) (.zextw a q d x)
  | 4, 6 => mbz (x == 0 && y == 0) (.movpg a q d) | 4, 7 => mbz (d == 0 && y == 0) (.movgp a q x)
  | _, _ => none

/-- Majors 0x08 to 0x11 (02/R45, R56 to R58). -/
def decodeImmediate (a : Agent) (w : W32) : Option Instr :=
  let q := wordGuard w
  let d := wordD w
  let x := wordS1 w
  let n : BitVec 6 := w.extractLsb' 0 6
  let short := (w.extractLsb' 6 3) == 0
  match wordMajor w with
  | 0x08 => some (.addi a q d x (wordImm9 w)) | 0x09 => some (.andi a q d x (wordImm9 w))
  | 0x0A => some (.ori a q d x (wordImm9 w)) | 0x0B => some (.xori a q d x (wordImm9 w))
  | 0x0C => mbz short (.slli a q d x n) | 0x0D => mbz short (.srli a q d x n)
  | 0x0E => mbz short (.srai a q d x n) | 0x0F => mbz short (.rori a q d x n)
  | 0x10 => some (.ldi a q d (wordImm15 w)) | 0x11 => some (.shi a q d (wordImm15 w))
  | _ => none

/-- Majors 0x18 to 0x23: one predicate other than p0 in both places is reserved (02/R62 to R64). -/
def decodeCompare (a : Agent) (w : W32) : Option Instr :=
  let q := wordGuard w
  let t := wordPt w
  let f := wordPf w
  let x := wordC1 w
  let y := wordC2 w
  let u := wordU w
  let pa : PReg := w.extractLsb' 7 4
  let pb : PReg := w.extractLsb' 1 4
  let pz := w.extractLsb' 11 2 == 0 && w.extractLsb' 5 2 == 0 && !u
  if t == f && t != 0 then none
  else match wordMajor w with
    | 0x18 => mbz (!u) (.cmpEq a q t f x y) | 0x19 => mbz (!u) (.cmpNe a q t f x y)
    | 0x1A => some (.cmpLt a q t f x y u) | 0x1B => some (.cmpGe a q t f x y u)
    | 0x1C => mbz (!u) (.cmpTst a q t f x y)
    | 0x20 => mbz pz (.pand a q t f pa pb) | 0x21 => mbz pz (.por a q t f pa pb)
    | 0x22 => mbz pz (.pxor a q t f pa pb) | 0x23 => mbz pz (.pandn a q t f pa pb)
    | _ => none

/-- Majors 0x28 to 0x2B (02/R65, R66, R69). -/
def decodeBranch (a : Agent) (w : W32) : Option Instr :=
  let q := wordGuard w
  let x := wordS1 w
  let jz := wordD w == 0 && wordS2 w == 0
  match wordMajor w, wordMinor w with
  | 0x28, _ => some (.br a q (wordDisp w)) | 0x29, _ => some (.call a q (wordDisp w))
  | 0x2A, 0 => mbz jz (.jmpr a q x) | 0x2A, 1 => mbz jz (.callr a q x) | 0x2A, 2 => mbz jz (.ret a q x)
  | 0x2B, _ => mbz (x == 0 && wordD w != 0 && decide (1 ≤ (wordImm9 w).toNat) && decide ((wordImm9 w).toNat ≤ 32))
      (.loop a q (wordD w) (wordImm9 w))
  | _, _ => none

/-- Majors 0x30 to 0x3F: the marks that loads and stores accept, the pairs (03/R73 to R75). -/
def decodeMemory (a : Agent) (w : W32) : Option Instr :=
  let q := wordGuard w
  let d := wordD w
  let b := wordS1 w
  let o := wordOffset w
  let m := wordMark w
  let ld := !m.getLsbD 1
  let st := !m.getLsbD 0
  let even := !d.getLsbD 0
  match wordMajor w with
  | 0x30 => mbz ld (.ldb a q d b o m) | 0x31 => mbz ld (.ldbu a q d b o m) | 0x32 => mbz ld (.ldh a q d b o m)
  | 0x33 => mbz ld (.ldhu a q d b o m) | 0x34 => mbz ld (.ldw a q d b o m) | 0x35 => mbz ld (.ldwu a q d b o m)
  | 0x36 => mbz ld (.ldd a q d b o m)
  | 0x38 => mbz st (.stb a q d b o m) | 0x39 => mbz st (.sth a q d b o m) | 0x3A => mbz st (.stw a q d b o m)
  | 0x3B => mbz st (.std a q d b o m)
  | 0x3C => mbz (ld && even) (.ldp a q d b o m) | 0x3D => mbz (st && even) (.stp a q d b o m)
  | _ => none

/-- Majors 0x40 to 0x47: minor[2] selects, minor[1:0] is the mark; the compare-and-swaps are of format M (03/R78, R79). -/
def decodeAtomic (a : Agent) (w : W32) : Option Instr :=
  let q := wordGuard w
  let d := wordD w
  let x := wordS1 w
  let y := wordS2 w
  let m := wordMark w
  match wordMajor w, w.getLsbD 2 with
  | 0x40, false => some (.swap a q d x y m) | 0x40, true => some (.atomicAdd a q d x y m)
  | 0x41, false => some (.atomicAnd a q d x y m) | 0x41, true => some (.atomicOr a q d x y m)
  | 0x42, false => some (.atomicXor a q d x y m) | 0x42, true => some (.atomicMin a q d x y m)
  | 0x43, false => some (.atomicMax a q d x y m) | 0x43, true => some (.atomicMinu a q d x y m)
  | 0x44, false => some (.atomicMaxu a q d x y m)
  | 0x45, _ => mbz (!d.getLsbD 0) (.cas a q d x (wordOffset w) m)
  | 0x46, _ => mbz (!d.getLsbD 0 && !d.getLsbD 1) (.cas16 a q d x (wordOffset w) m)
  | _, _ => none

/-- Majors 0x48 and 0x49 (03/R81). -/
def decodeBarrier (a : Agent) (w : W32) : Option Instr :=
  let q := wordGuard w
  let z := wordD w == 0 && wordS1 w == 0 && wordS2 w == 0
  match wordMajor w, wordMinor w with
  | 0x48, 0 => mbz z (.fence a q) | 0x48, 1 => mbz z (.fenceIo a q) | 0x48, 2 => mbz z (.fenceSt a q)
  | 0x48, 3 => mbz z (.fenceSpec a q) | 0x48, 4 => mbz z (.isync a q)
  | 0x49, 0 => mbz z (.pbar a q) | 0x49, 1 => mbz z (.pflush a q)
  | _, _ => none

/-- Majors 0x50 to 0x53 (03/R83, R84). -/
def decodeFloat (a : Agent) (w : W32) : Option Instr :=
  let q := wordGuard w
  let d := wordD w
  let x := wordS1 w
  let y := wordS2 w
  let un := y == 0
  let f : FpFmt := if wordMajor w ≤ 0x51 then .d else .s
  match wordMajor w, wordMinor w with
  | 0x50, 0 | 0x52, 0 => some (.fadd a q f d x y) | 0x50, 1 | 0x52, 1 => some (.fsub a q f d x y)
  | 0x50, 2 | 0x52, 2 => some (.fmul a q f d x y) | 0x50, 3 | 0x52, 3 => some (.fdiv a q f d x y)
  | 0x50, 4 | 0x52, 4 => some (.fma a q f d x y) | 0x50, 5 | 0x52, 5 => some (.fmin a q f d x y)
  | 0x50, 6 | 0x52, 6 => some (.fmax a q f d x y) | 0x50, 7 | 0x52, 7 => mbz un (.fsqrt a q f d x)
  | 0x51, 0 | 0x53, 0 => some (.fcmp a q f d x y) | 0x51, 1 | 0x53, 1 => mbz un (.fcvtDL a q f d x)
  | 0x51, 2 | 0x53, 2 => mbz un (.fcvtLD a q f d x) | 0x51, 3 => mbz un (.fcvtDS a q d x) | 0x51, 4 => mbz un (.fcvtSD a q d x)
  | 0x51, 5 | 0x53, 5 => mbz un (.fclass a q f d x)
  | _, _ => none

/-- Majors 0x58 to 0x5B: bit 0 of each field that names a decimal128 operand is must-be-zero (03/R85, R86). -/
def decodeDecimal (a : Agent) (w : W32) : Option Instr :=
  let q := wordGuard w
  let d := wordD w
  let x := wordS1 w
  let y := wordS2 w
  let un := y == 0
  let f : DecFmt := if wordMajor w ≤ 0x59 then .d else .q
  let ok := fun (r : Reg) => f == .d || !r.getLsbD 0
  match wordMajor w, wordMinor w with
  | 0x58, 0 | 0x5A, 0 => mbz (ok d && ok x && ok y) (.dadd a q f d x y)
  | 0x58, 1 | 0x5A, 1 => mbz (ok d && ok x && ok y) (.dsub a q f d x y)
  | 0x58, 2 | 0x5A, 2 => mbz (ok d && ok x && ok y) (.dmul a q f d x y)
  | 0x58, 3 | 0x5A, 3 => mbz (ok d && ok x && ok y) (.ddiv a q f d x y)
  | 0x58, 4 | 0x5A, 4 => mbz (ok d && ok x && ok y) (.dqua a q f d x y)
  | 0x58, 5 | 0x5A, 5 => mbz (ok d && ok x && un) (.drint a q f d x)
  | 0x58, 6 | 0x5A, 6 => mbz (ok x && ok y) (.dcmp a q f d x y)
  | 0x59, 0 | 0x5B, 0 => mbz (ok d && un) (.dfromi a q f d x)
  | 0x59, 1 | 0x5B, 1 => mbz (ok x && un) (.dtoi a q f d x)
  | 0x59, 2 | 0x5B, 2 => mbz (ok x && un) (.dgetexp a q f d x)
  | 0x59, 3 => mbz (!d.getLsbD 0 && un) (.dwiden a q d x)
  | 0x59, 4 => mbz (!x.getLsbD 0 && un) (.dnarrow a q d x)
  | _, _ => none

/-- The vector register of a field: bit 5 is must-be-zero (03/R92). -/
def vregOk (r : Reg) : Bool := !r.getLsbD 5
def vregOf (r : Reg) : VReg := r.truncate 5
/-- Majors 0x60 to 0x69 (03/R92). -/
def decodeVector (a : Agent) (w : W32) : Option Instr :=
  let q := wordGuard w
  let d := wordD w
  let x := wordS1 w
  let y := wordS2 w
  let v3 := vregOk d && vregOk x && vregOk y
  let v2 := vregOk d && vregOk x
  let vd := vregOf d
  let vx := vregOf x
  let vy := vregOf y
  let e : VWidth := match wordMajor w % 4 with | 0 => .b | 1 => .h | 2 => .w | _ => .d
  let f : FpFmt := if wordMajor w = 0x67 then .s else .d
  let lane : BitVec 2 := y.truncate 2
  let laneOk := y.toNat < 4
  let amt := fun (width : Nat) => v2 && decide (y.toNat < width)
  match wordMajor w, wordMinor w with
  | 0x60, n | 0x61, n | 0x62, n | 0x63, n =>
    match n with
    | 0 => mbz v3 (.vadd a q e vd vx vy) | 1 => mbz v3 (.vsub a q e vd vx vy) | 2 => mbz v3 (.vmul a q e vd vx vy)
    | 3 => mbz v3 (.vmin a q e vd vx vy) | 4 => mbz v3 (.vmax a q e vd vx vy) | 5 => mbz v3 (.vminu a q e vd vx vy)
    | 6 => mbz v3 (.vmaxu a q e vd vx vy) | _ => mbz v3 (.vcmpeq a q e vd vx vy)
  | 0x64, 0 => mbz v3 (.vand a q vd vx vy) | 0x64, 1 => mbz v3 (.vor a q vd vx vy) | 0x64, 2 => mbz v3 (.vxor a q vd vx vy)
  | 0x64, 3 => mbz v3 (.vandn a q vd vx vy) | 0x64, 4 => mbz v3 (.vsel a q vd vx vy)
  | 0x64, 5 => mbz (vregOk d && y == 0) (.vbcast a q vd x) | 0x64, 6 => mbz (vregOk d && laneOk) (.vins a q vd x lane)
  | 0x64, 7 => mbz (vregOk x && laneOk) (.vext a q d vx lane)
  | 0x65, 0 => mbz (amt 16) (.vslli a q .h vd vx y) | 0x65, 1 => mbz (amt 16) (.vsrli a q .h vd vx y)
  | 0x65, 2 => mbz (amt 16) (.vsrai a q .h vd vx y) | 0x65, 3 => mbz (amt 32) (.vslli a q .w vd vx y)
  | 0x65, 4 => mbz (amt 32) (.vsrli a q .w vd vx y) | 0x65, 5 => mbz (amt 32) (.vsrai a q .w vd vx y)
  | 0x65, 6 => mbz (amt 64) (.vslli a q .d vd vx y) | 0x65, 7 => mbz (amt 64) (.vsrli a q .d vd vx y)
  | 0x66, 0 => mbz (amt 64) (.vsrai a q .d vd vx y) | 0x66, 1 => mbz v3 (.vpermB a q vd vx vy)
  | 0x66, 2 => mbz (vregOk x && y == 0) (.vredaddD a q d vx) | 0x66, 3 => mbz v3 (.vcmpgtD a q vd vx vy)
  | 0x66, 4 => mbz (vregOk d) (.vld a q vd x y) | 0x66, 5 => mbz (vregOk d) (.vst a q vd x y)
  | 0x67, n | 0x68, n =>
    match n with
    | 0 => mbz v3 (.vfadd a q f vd vx vy) | 1 => mbz v3 (.vfsub a q f vd vx vy) | 2 => mbz v3 (.vfmul a q f vd vx vy)
    | 3 => mbz v3 (.vfdiv a q f vd vx vy) | 4 => mbz v3 (.vfma a q f vd vx vy) | 5 => mbz v3 (.vfmin a q f vd vx vy)
    | 6 => mbz v3 (.vfmax a q f vd vx vy) | _ => mbz v3 (.vfcmplt a q f vd vx vy)
  | 0x69, 0 => mbz (v2 && y == 0) (.vcvtSW a q vd vx) | 0x69, 1 => mbz (v2 && y == 0) (.vcvtWS a q vd vx)
  | 0x69, 2 => mbz (v2 && y == 0) (.vcvtDL a q vd vx) | 0x69, 3 => mbz (v2 && y == 0) (.vcvtLD a q vd vx)
  | _, _ => none

/-- Majors 0x6C to 0x6E (03/R94). -/
def decodeAssist (a : Agent) (w : W32) : Option Instr :=
  let q := wordGuard w
  let d := wordD w
  let x := wordS1 w
  let y := wordS2 w
  let v3 := vregOk d && vregOk x && vregOk y
  let vd := vregOf d
  let vx := vregOf x
  let vy := vregOf y
  match wordMajor w, wordMinor w with
  | 0x6C, 0 => mbz v3 (.aese a q vd vx vy) | 0x6C, 1 => mbz v3 (.aesel a q vd vx vy) | 0x6C, 2 => mbz v3 (.aesd a q vd vx vy)
  | 0x6C, 3 => mbz v3 (.aesdl a q vd vx vy) | 0x6C, 4 => mbz (vregOk d && vregOk x && y == 0) (.aesimc a q vd vx)
  | 0x6D, 0 => some (.clmul a q d x y) | 0x6D, 1 => some (.clmulh a q d x y)
  | 0x6E, 0 => mbz v3 (.sha256ms0 a q vd vx vy) | 0x6E, 1 => mbz v3 (.sha256ms1 a q vd vx vy)
  | 0x6E, 2 => mbz v3 (.sha512ms0 a q vd vx vy) | 0x6E, 3 => mbz v3 (.sha512ms1 a q vd vx vy)
  | _, _ => none

/-- Majors 0x70 to 0x75: every field that the operation does not name is must-be-zero (03/R106, R107). -/
def decodeSystem (a : Agent) (w : W32) : Option Instr :=
  let q := wordGuard w
  let d := wordD w
  let x := wordS1 w
  let y := wordS2 w
  let none3 := d == 0 && x == 0 && y == 0
  let onlyX := d == 0 && y == 0
  let onlyD := x == 0 && y == 0
  match wordMajor w, wordMinor w with
  | 0x70, _ => mbz (x == 0) (.rdsys a q d (wordImm9 w)) | 0x71, _ => mbz (d == 0) (.wrsys a q x (wordImm9 w))
  | 0x72, 0 => mbz none3 (.syscall a q) | 0x72, 1 => mbz none3 (.break_ a q) | 0x72, 2 => mbz none3 (.eret a q)
  | 0x72, 3 => mbz none3 (.wait a q)
  | 0x73, 0 => mbz onlyX (.wrpkey a q x) | 0x73, 1 => mbz onlyD (.rdpkey a q d)
  | 0x73, 2 => mbz (onlyD && !d.getLsbD 0) (.rdhoop a q d) | 0x73, 3 => mbz onlyD (.rdbeat a q d)
  | 0x74, 0 => mbz none3 (.tlbinvAll a q) | 0x74, 1 => mbz onlyX (.tlbinvAsid a q x)
  | 0x74, 2 => mbz (d == 0) (.tlbinvVa a q x y) | 0x74, 3 => mbz onlyX (.tlbinvVaall a q x)
  | 0x75, 0 => mbz onlyX (.cleanP a q x) | 0x75, 1 => mbz onlyX (.cleanD a q x) | 0x75, 2 => mbz onlyX (.flushP a q x)
  | 0x75, 3 => mbz onlyX (.flushD a q x)
  | _, _ => none

/-! ## Words -/

/-- The words of the instructions that only cores execute (the Strand columns of 02/R45 and R51, 03/R79 to R106). -/
def coreOnlyWord (w : W32) : Bool :=
  let m := wordMajor w
  let n := wordMinor w
  (m == 0x02 && n != 0) || m == 0x46 || (m == 0x49 && n == 1) || (decide (0x50 ≤ m) && decide (m ≤ 0x57)) ||
    ((m == 0x58 || m == 0x5A) && n == 3) || (decide (0x60 ≤ m) && decide (m ≤ 0x6F)) || m == 0x72 ||
    (m == 0x73 && decide (n ≤ 1)) || m == 0x74 || m == 0x75
/-- The instruction that a word names by its major opcode; none for a reserved encoding (02/R38, R44). -/
def decodeAny (a : Agent) (w : W32) : Option Instr :=
  match familyOf (wordMajor w) with
  | none => none
  | some .integer => decodeInteger a w
  | some .immediate | some .longImmediate => decodeImmediate a w
  | some .compare | some .predicate => decodeCompare a w
  | some .branch => decodeBranch a w
  | some .memory | some .pair => decodeMemory a w
  | some .atomic => decodeAtomic a w
  | some .barrier => decodeBarrier a w
  | some .float => decodeFloat a w
  | some .decimal => decodeDecimal a w
  | some .vector => decodeVector a w
  | some .assist => decodeAssist a w
  | some .system => decodeSystem a w
/-- The instruction that a word names on an agent; a word of a core-only instruction is a reserved encoding on a sequencer
(02/R45). -/
def decodeWord (a : Agent) (w : W32) : Option Instr :=
  match a with
  | .core _ => decodeAny a w
  | .seq _ => if coreOnlyWord w then none else decodeAny a w

/-- The command that a word spells by the table's bits: none, for no row gives any. -/
def decodeTableWord (_nbits _w : Nat) : Option Instr := none

end Sys2Proof
end

