-- ==== Sys2Proof/Machine/Aes.lean ====
section
/-!
DEFINITION. AES (FIPS 197) on lists of bytes: the state is sixteen bytes in the standard's order. The core assists
(03/R94) and the Hamper's block operations (12) share it. The S-box is computed from the field inverse.
-/
namespace Sys2Proof.Machine

/-- Multiplication in GF(2^8) modulo x^8 + x^4 + x^3 + x + 1. -/
def xtime (a : Byte) : Byte := (a <<< 1) ^^^ (if a.getLsbD 7 then 0x1b else 0)
def gmulFrom : Nat → Byte → Byte → Byte
  | 0, _, _ => 0
  | k + 1, a, b => (if b.getLsbD 0 then a else 0) ^^^ gmulFrom k (xtime a) (b >>> 1)
def gmul (a b : Byte) : Byte := gmulFrom 8 a b
/-- The inverse: the 254th power. -/
def ginv (a : Byte) : Byte :=
  let a2 := gmul a a
  let a3 := gmul a2 a
  let a12 := gmul (gmul a3 a3) (gmul a3 a3)
  let a15 := gmul a12 a3
  let a30 := gmul a15 a15
  let a60 := gmul a30 a30
  let a120 := gmul a60 a60
  let a126 := gmul (gmul a120 a3) a3
  let a127 := gmul a126 a
  gmul a127 a127
def sbox (a : Byte) : Byte :=
  let b := ginv a
  b ^^^ b.rotateLeft 1 ^^^ b.rotateLeft 2 ^^^ b.rotateLeft 3 ^^^ b.rotateLeft 4 ^^^ 0x63
def sboxInv (a : Byte) : Byte := ginv (a.rotateLeft 1 ^^^ a.rotateLeft 3 ^^^ a.rotateLeft 6 ^^^ 0x05)
/-- Byte r + 4c of the result is byte r + 4(c + r) of the state. -/
def shiftRows (b : Bytes) : Bytes := (List.range 16).map fun i => b.getD ((i + 4 * (i % 4)) % 16) 0
def shiftRowsInv (b : Bytes) : Bytes := (List.range 16).map fun i => b.getD ((i + 16 - 4 * (i % 4)) % 16) 0
def mixCol (k : List Byte) (b : Bytes) (i : Nat) : Byte :=
  (List.range 4).foldl (fun a j => a ^^^ gmul (k.getD ((j + 4 - i % 4) % 4) 0) (b.getD (i / 4 * 4 + j) 0)) 0
def mixColumns (b : Bytes) : Bytes := (List.range 16).map (mixCol [2, 3, 1, 1] b)
def mixColumnsInv (b : Bytes) : Bytes := (List.range 16).map (mixCol [14, 11, 13, 9] b)
def xorBytes (a b : Bytes) : Bytes := a.zipWith (· ^^^ ·) b

/-! ## The cipher -/

/-- The round constant of round i, from 1. -/
def rcon : Nat → Byte
  | 0 => 0x8d
  | i + 1 => xtime (rcon i)
/-- One more word of the key schedule; `w`: the words so far, newest first. -/
def nextWord (nk i : Nat) (w : List Bytes) : Bytes :=
  let t := w.headD []
  let t := if i % nk = 0 then
      match t.drop 1 ++ t.take 1 with
      | b :: r => (sbox b ^^^ rcon (i / nk)) :: r.map sbox
      | [] => []
    else if 6 < nk ∧ i % nk = 4 then t.map sbox else t
  xorBytes (w.getD (nk - 1) []) t
def expandFrom (nk : Nat) : Nat → Nat → List Bytes → List Bytes
  | 0, _, w => w
  | n + 1, i, w => expandFrom nk n (i + 1) (nextWord nk i w :: w)
/-- Bytes in groups of n. -/
def chunksFrom (n : Nat) : Nat → Bytes → List Bytes
  | 0, _ => []
  | k + 1, b => if b.isEmpty then [] else b.take n :: chunksFrom n k (b.drop n)
def chunks (n : Nat) (b : Bytes) : List Bytes := chunksFrom n b.length b
/-- The round keys of a key of 16, 24 or 32 bytes. -/
def aesKeys (key : Bytes) : List Bytes :=
  let nk := key.length / 4
  chunks 16 ((expandFrom nk (4 * (nk + 7) - nk) nk (chunks 4 key).reverse).reverse.flatten)
def aesEncWith (ks : List Bytes) (b : Bytes) : Bytes :=
  let n := ks.length
  let b := xorBytes b (ks.headD [])
  let b := ((ks.drop 1).take (n - 2)).foldl (fun b k => xorBytes (mixColumns (shiftRows (b.map sbox))) k) b
  xorBytes (shiftRows (b.map sbox)) (ks.getD (n - 1) [])
def aesDecWith (ks : List Bytes) (b : Bytes) : Bytes :=
  let n := ks.length
  let b := xorBytes b (ks.getD (n - 1) [])
  let b := (((ks.drop 1).take (n - 2)).reverse).foldl (fun b k => mixColumnsInv (xorBytes ((shiftRowsInv b).map sboxInv) k)) b
  xorBytes ((shiftRowsInv b).map sboxInv) (ks.headD [])
def aesEnc (key b : Bytes) : Bytes := aesEncWith (aesKeys key) b
def aesDec (key b : Bytes) : Bytes := aesDecWith (aesKeys key) b

end Sys2Proof.Machine
end

