-- ==== Sys2Proof/Config.lean ====
section
/-!
DEFINITION. What the spec leaves open. A `Config` constant has no body: no proof can see its value, so whatever is
proved of the model holds for every value of it. Log entries 2 and 3.
-/
namespace Sys2Proof

/-- What a free value stands for; `Config.free` gives each kind its own stream of values. -/
inductive FreeKind where
  /-- does an instruction between a write and ISYNC see the new value (03/R97) -/
  | afterIsync
  /-- has a cached translation been evicted, does a cached pointer steer the walk (06/R191) -/
  | tlbEvict | ptrUse
  /-- amounts of the class-S and class-B events of one instruction, and its stall beats (20/R559, R560; 04/R133) -/
  | specCount | beatCount | stallBeats
  /-- does a learnt prediction match the outcome of a branch (04/R117-R121) -/
  | predict
  /-- the direction table that learns a branch; return-stack entries that wrong-path calls overwrite (04/R113, R119) -/
  | predictTable | wrongPath
  /-- a random value the device draws (11/R329: DRBG, generated keys, nonces) -/
  | random
  /-- a value whose manual states the effect and not the number -/
  | unstated
  /-- a measured quantity of the environment: an offset, a time interval, a latency -/
  | measured
  deriving DecidableEq, Repr

/-- The free values: kind, then the value of the plain counter `State.free` when it is drawn (log entry 2). -/
opaque Config.free : FreeKind → Nat → Nat

/-- Bytes whose contents the spec calls unpredictable: the address and the epoch of the scrambling
(18/R522, 21/R570; log entry 3). -/
opaque Config.scrambled : Nat → Nat → Byte

/-- The position of a line of local DRAM inside its channel, hashed in a way the spec does not state
(08/R231): physical line to rank, bank group and bank, and row (the column is part of the position as one word). -/
opaque Config.rankOf : Nat → Nat
opaque Config.bankOf : Nat → Nat
opaque Config.rowOf : Nat → Nat
/-- The decoded position of a line as one word, in a layout the spec does not give (08/R231, 17/R511). -/
opaque Config.position : Nat → BitVec 64
/-- What a device answers to a read of its window by a hub unit: a byte by address and time of the read; and how the completion
comes (mod 4): good, not at all, as unsupported request or completer abort, poisoned (16/R476, R478, R480). -/
opaque Config.deviceByte : Nat → Nat → Byte
opaque Config.deviceFate : Nat → Nat → Nat
/-- The address from which a line port sends its pause frames (16/R489). -/
opaque Config.portMac : Nat → Bytes
/-- The measured-boot record of MEASURE_READ made from the eight measurement registers: its layout is not given (10/R296). -/
opaque Config.measureRecord : List Bytes → List W64
/-- The digest over the public part of the management key that an owner root derives (10/R299). -/
opaque Config.mgmtDigest : Bytes → Bytes
/-- GiB of the sealed key memory region for the capacities, in units of 256 Ki objects, that 11/R309 does not list. -/
opaque Config.skmRegion : Nat → Nat

/-- The root port whose bridge window holds an offset of a lane group's window (16/R469). -/
opaque Config.portOf : Nat → Nat → Nat

/-- A number as the context of a derivation, encoded in ASCII in digits that the spec does not give (11/R306). -/
opaque Config.asciiNumber : Nat → Bytes

/-- The bytes of the Stake's ROM (10/R273). -/
opaque Config.romByte : Nat → Byte

/-- SEQ_ID of a Hamper or Stake sequencer: only the layout on a plaiter unit is given (03/R95, 13/R376). -/
opaque Config.seqId : Nat → BitVec 64

/-- Is a binary result tiny when it is tiny after rounding (true) or before (false): IEEE 754 lets either be, and the
spec does not say which (03/R84). -/
opaque Config.tinyAfterRounding : Bool
/-- Which of two NaN operands an operation propagates (03/R84, R89). -/
opaque Config.nanFirst : Nat → Nat → Bool
/-- The integer of a binary NaN, infinity or out-of-range value, which the spec does not state (03/R84): width, operand. -/
opaque Config.cvtInvalid : Nat → Nat → Nat

/-- The primes that the provable-prime method of FIPS 186-5 gives for a modulus length and a seed (11/R306, 12/R352). -/
opaque Config.rsaPrimes : Nat → Nat → Nat × Nat
/-- The algorithms of FIPS 203, 204 and 205, uninterpreted (log entry 16): the public part of a secret, signing with
context, message and random bytes, verification, encapsulation with random bytes, decapsulation; by algorithm code. -/
opaque Config.pqPublic : Nat → Bytes → Bytes
opaque Config.pqSign : Nat → Bytes → Bytes → Bytes → Bytes → Bytes
opaque Config.pqVerify : Nat → Bytes → Bytes → Bytes → Bytes → Bool
opaque Config.kemEncap : Nat → Bytes → Bytes → Bytes × Bytes
opaque Config.kemDecap : Nat → Bytes → Bytes → Bytes
/-- How many bytes of the aux operand of EMV_ARPC by method 2 name PAN and sequence number; the proprietary data follow,
in a split the spec does not give (12/R363). -/
opaque Config.arpcSplit : Bytes → Nat
/-- The firmware bundle's signatures under the Pabois keys, of which the spec gives only digests (18/R525). -/
opaque Config.bundleSigned : Bytes → Bool
/-- The device identity record that Pabois certified, with its signatures (11/R307); the part serial number. -/
opaque Config.identityRecord : Bytes
opaque Config.serial : Bytes

/-- The directory set of a line in its home slice: 16 ways and 65,536 entries are given, the index is not (07/R216). -/
opaque Config.dirSet : Nat → Nat

end Sys2Proof
end

