-- ==== Sys2Proof/Machine/State.lean ====
section
/-!
DEFINITION. The state of the MA208-B1 as plain data: every register, queue, buffer, mode and pin the spec names
(INVENTORY.md, '## State'), the queue of waiting commands, the reset values, and the reasons a step can stop.
Numbered collections are sparse maps (`FMap`) whose unlisted entries have the reset value of the collection.
-/
namespace Sys2Proof.Machine

/-! ## Cores and sequencers (02, 03, 04, 06, 20) -/

/-- The registers a core and a sequencer share (02/R30): g1 to g63 and p1 to p15 where written (reset: log entry 1), pc. -/
structure Ctx where
  g : FMap W64
  p : FMap Bool
  pc : W64
  deriving DecidableEq, Repr

/-- What a core is doing (09/R255, 18/R530, 04/R132, 19/R554). `held`: released and waiting for its first vector;
`gatedHeld`: power-gated before that vector. -/
inductive CoreRun where
  | stopped | held | running | gated | gatedHeld | paused
  deriving DecidableEq, Repr

/-- A write to a system register that waits for ISYNC (03/R97). `mask`: the bits of SYS_STATUS that it still writes; an
entry or an ERET takes out the fields that it overtakes. -/
structure PendWrite where
  reg : Nat
  val : W64
  mask : W64
  deriving DecidableEq, Repr

/-- The five memory types (05/R148). -/
inductive MemType where
  | wb | wc | uc | dev | strict
  deriving DecidableEq, Repr

/-- An entry of the store buffer (04/R123, R124): its bytes by physical address. `sealed`: a barrier or a marked
access follows it, so nothing merges into it. `stores`: the retired stores it holds (R171). -/
structure SbEntry where
  mt : MemType
  bytes : FMap Byte
  sealed : Bool
  release : Bool
  stores : Nat
  deriving DecidableEq, Repr

/-- A write-combining buffer: a line, its bytes and how many stores it holds (05/R151, R171). -/
structure WcBuf where
  line : Nat
  bytes : FMap Byte
  stores : Nat
  deriving DecidableEq, Repr

/-- Where the data of a load go: the destination register, the access size in bytes, sign extension, pair or vector. -/
inductive LoadDest where
  | reg (d : Nat) (size : Nat) (signed : Bool)
  | pair (d : Nat)
  | vec (d : Nat)
  deriving DecidableEq, Repr

/-- A load that is parked behind overlapping stores (04/R126): its address, and its bytes' physical addresses, lowest first. -/
structure Parked where
  va : W64
  addrs : List Nat
  dest : LoadDest
  acquire : Bool
  deriving DecidableEq, Repr

/-- A request of a device load, and its data once they have come. -/
structure DevPart where
  tag : Nat
  data : Option Bytes
  deriving DecidableEq, Repr
/-- An outstanding device load of a core, one request or two (05/R131, R166, R175). -/
structure DevLoad where
  parts : List DevPart
  lg : Nat
  pa : Nat
  dest : LoadDest
  acquire : Bool
  deriving DecidableEq, Repr

/-- A DEV-STRICT store to a strict window whose zero-length read has not completed (05/R160, R173). -/
structure StrictStore where
  tag : Nat
  lg : Nat
  window : Nat
  pa : Nat
  deriving DecidableEq, Repr

/-- A cached leaf translation (06/R182, R186, R191). -/
structure TlbLeaf where
  asid : Nat
  va : Nat
  level : Nat
  pte : W64
  pteAddr : Nat
  key : Nat
  deriving DecidableEq, Repr

/-- A cached pointer entry (06/R191): the table that serves `level` for the addresses with this prefix. -/
structure TlbPtr where
  asid : Nat
  level : Nat
  pre : Nat
  table : Nat
  key : Nat
  deriving DecidableEq, Repr

/-- A learnt entry of the branch target buffer (04/R113, R120, R121). -/
structure BtbEntry where
  pc : W64
  target : W64
  epoch : Nat
  deriving DecidableEq, Repr
/-- A learnt entry of one of the six tables of the direction predictor: the branch, the history it is tagged with, the
direction (04/R113, R120, R121). -/
structure DirPred where
  table : Nat
  pc : W64
  hist : List Bool
  taken : Bool
  epoch : Nat
  deriving DecidableEq, Repr
/-- An entry of the return stack (04/R119, R121). -/
structure RasEntry where
  addr : W64
  epoch : Nat
  deriving DecidableEq, Repr

/-- Prediction state of a core (04/R113, R119-R121, R128): the two levels of the branch target buffer, most recent first,
the direction predictor and the directions of the latest branches, the return stack, top first, the epoch, the addresses
the memory-dependence predictor holds. -/
structure Pred where
  btb1 : List BtbEntry
  btb2 : List BtbEntry
  dir : List DirPred
  hist : List Bool
  ras : List RasEntry
  epoch : Nat
  conflicts : List W64
  deriving DecidableEq, Repr

/-- A core. `sys`: the system registers of 03/R95 and 20/R558 by number; `leg`: the compatibility bank (20/R564);
`svec`, `upend`: pending S and U vectors, 64 to a word (17/R499, R502); `waiting`: a WAIT has begun and has not completed
(03/R106); `ioFence`: the next instruction waits for the strict stores (05/R160), `ioSaved`: so does the code that an
interrupt left (R174). -/
structure Core where
  x : Ctx
  v : FMap W256
  run : CoreRun
  sys : FMap W64
  pend : List PendWrite
  svec : FMap W64
  upend : FMap W64
  irSel : W64
  leg : FMap Nat
  beat : W64
  sb : List SbEntry
  wc : List WcBuf
  parked : Option Parked
  dev : Option DevLoad
  strict : List StrictStore
  ioFence : Bool
  ioSaved : Bool
  waiting : Bool
  tlb : List TlbLeaf
  ptr : List TlbPtr
  pred : Pred
  discarded : Nat
  deriving DecidableEq, Repr

/-- A line of a private cache: its way, its line number and its MOESI state (07/R215). -/
inductive Moesi where
  | m | o | e | s
  deriving DecidableEq, Repr
structure CLine where
  way : Nat
  line : Nat
  st : Moesi
  deriving DecidableEq, Repr

/-- The one miss buffer of a sequencer (04/R141): a load fills registers, a store carries its bytes. `got`: bytes of the
load that were read from the other line at the access, `poison`: with a poison mark; `release`: the store is marked. -/
structure SeqMiss where
  line : Nat
  addrs : List Nat
  dest : Option LoadDest
  store : FMap Byte
  got : FMap Byte
  poison : Bool
  acquire : Bool
  release : Bool
  deriving DecidableEq, Repr

/-- A long-latency operation outstanding on a sequencer other than a miss (04/R137): an atomic or a device load (`dev`: lane
group × 1024 + tag, and its destination), with the registers it will write and, once known, their values and the poison
mark. -/
structure SeqOp where
  dev : Option (Nat × LoadDest)
  regs : List Nat
  vals : List W64
  poison : Bool
  done : Bool
  miss : Bool
  deriving DecidableEq, Repr

/-- The loop buffer (04/R143, R144). -/
inductive LoopBuf where
  | empty
  | capturing (loopPc : W64)
  | running (loopPc : W64)
  deriving DecidableEq, Repr

/-- A sequencer (04/R133-R147). `modeQ`: writes to SEQ_MODE with the instructions still to complete (03/R105); `strict`,
`ioFence`: as of a core (05/R160, R170); `badLines`, `badLocal`: clean lines, and local memory, in which an uncorrectable
error waits to be delivered as poison (R136); `skew`: registers in which the second sequencer of a lockstep pair differs (10/R273). -/
structure Seq where
  x : Ctx
  run : Bool
  dfpc : W64
  modeWritten : W64
  mode : W64
  modeQ : List (Nat × W64)
  busy : List Nat
  poisoned : List Nat
  ops : List SeqOp
  miss : Option SeqMiss
  cache : FMap (List CLine)
  loop : LoopBuf
  leftLoop : Bool
  beats : W64
  ended : Option Nat
  strict : List StrictStore
  ioFence : Bool
  badLines : List Nat
  badLocal : Bool
  skew : FMap W64
  deriving DecidableEq, Repr

/-! ## Caches, directory and channels (07, 08) -/

/-- The private caches of a tile, each set a list of lines, most recent first (07/R198, R204). `miss`: the lines that a
buffered store waits for, each in one of the 32 miss buffers of L1D (04/R113, R123). -/
structure Tile where
  l1i : FMap (List CLine)
  l1d : FMap (List CLine)
  l2 : FMap (List CLine)
  miss : List Nat
  deriving DecidableEq, Repr

/-- A line of a third-level slice (07/R199). -/
structure SLine where
  way : Nat
  line : Nat
  dirty : Bool
  deriving DecidableEq, Repr

/-- A directory entry (07/R216): an absent owner with sharers is state S. `dirtyOwner` tells O from E/M. -/
structure DirEntry where
  line : Nat
  owner : Option Nat
  shared : Bool
  sharers : List Nat
  deriving DecidableEq, Repr

/-- A writeback in the victim buffer (07/R220). -/
structure Victim where
  line : Nat
  issued : Bool
  deriving DecidableEq, Repr

/-- A read that the home has granted and whose line is on its way to the agent; `arrived`: another request completed it
(07/R217). -/
structure HomeFill where
  line : Nat
  agent : Nat
  arrived : Bool
  deriving DecidableEq, Repr
/-- A request that waits at the home (07/R217, R220). -/
structure HomeReq where
  line : Nat
  agent : Nat
  own : Bool
  deriving DecidableEq, Repr

/-- A third-level slice (07/R205, R210, R211, R216, R217, R220). `off`: powered-down ways, `retired`: logical ways retired
beyond the reserve, `wayMap`: the physical way of a logical way that is not its own, `cleaning`: ways being cleaned,
`fills`, `waitq`: requests in progress and requests that wait. -/
structure Slice where
  sets : FMap (List SLine)
  dir : List DirEntry
  off : Nat
  retired : Nat
  reserveUsed : Nat
  wayMap : FMap Nat
  cleaning : Nat
  powerCleaning : Nat
  victims : List Victim
  fills : List HomeFill
  waitq : List HomeReq
  deriving DecidableEq, Repr

/-- The states of a memory channel, with the codes the reports use (08/R249). -/
inductive ChanState where
  | untrained | training | service | retrain | speedChange | fallback | degraded
  deriving DecidableEq, Repr

/-- An entry of a bank's activation tracker (08/R241): window count, count since mitigation, ports. -/
structure Track where
  row : Nat
  count : Nat
  since : Nat
  ports : List (Nat × Nat)
  deriving DecidableEq, Repr

/-- A bank: its tracker, open row, the hint that governs the row, the last 8 accesses (row hit or not), the throttled
ports (08/R241-R245). -/
structure Bank where
  track : List Track
  openRow : Option Nat
  hint : Nat
  hits : List Bool
  throttled : List Nat
  used : Nat
  acts : FMap Nat
  deriving DecidableEq, Repr

/-- A rank copy in progress: source, copied boundary and whether it is paused (08/R238, R239). -/
structure RankCopy where
  source : Nat
  boundary : Nat
  paused : Bool
  deriving DecidableEq, Repr

/-- QOS_PORT_STAT of a port in one channel (08/R247). -/
structure QosStat where
  est : Nat
  misses : Nat
  hammer : Nat
  deriving DecidableEq, Repr

/-- A memory channel (08): bin in MT/s, bins with a known-good setting, fenced ranks as a mask, times (in device clock
units) of corrected errors by row and by rank, rows with errors of a device by 64 × rank + device, listed rows. -/
structure Chan where
  st : ChanState
  bin : Nat
  known : List Nat
  fellBack : Bool
  trainRank : Option Nat
  trained : FMap (Nat × Int)
  fenced : Nat
  reserveRank : Nat
  reserveFailed : Bool
  outOfService : Option Nat
  ranks : Nat
  copy : Option RankCopy
  scrubPos : Nat
  corrected : Nat
  events : List (Nat × Nat)
  discarded : Nat
  rowErr : FMap (List Nat)
  rankErr : FMap (List Nat)
  devRows : FMap (List (Nat × Nat))
  repair : List Nat
  banks : FMap Bank
  stat : FMap QosStat
  deriving DecidableEq, Repr

/-- Memory: one coherent image of bytes (canonical: addresses rising, no zero byte listed; log entry 4), the poisoned
lines (08/R234) and the ranges whose contents a key change scrambled (18/R522, 21/R570). -/
structure Mem where
  cells : List Host.Cell
  poison : List Nat
  scr : List (Nat × Nat × Nat)
  deriving DecidableEq, Repr

/-! ## Events and errors (17) -/

/-- An error record of four words (17/R511). -/
structure Rec where
  w0 : W64
  w1 : W64
  w2 : W64
  w3 : W64
  deriving DecidableEq, Repr

/-- A unit's error bank (17/R507, R509): the corrected errors, the deferred errors and the records of the unit. -/
structure UBank where
  corrected : Nat
  deferred : Nat
  recs : List Rec
  deriving DecidableEq, Repr

/-- A creel's error page (17/R509, R510). -/
structure EbPage where
  prod : Nat
  cons : Nat
  status : W64
  ctl : W64
  slots : FMap Rec
  deriving DecidableEq, Repr

/-- The destination kinds of an event source (17/R499). -/
structure EvSrc where
  holder : Option Nat
  dest : Nat
  core : Nat
  vector : Nat
  mask : Bool
  pending : Bool
  deriving DecidableEq, Repr

/-! ## Creels (09) -/

/-- Creel states (09/R255). -/
inductive CreelSt where
  | unassigned | stopped | running | resetting | migrating
  deriving DecidableEq, Repr

/-- A segment table entry (09/R256). -/
structure Seg where
  w0 : W64
  w1 : W64
  deriving DecidableEq, Repr

/-- A creel (09): memory grants by number (first and last address), segment table, way masks, quotas by kind,
CREEL_BREACH, router notice word (17/R499), error page, counters (20/R566). -/
structure Creel where
  st : CreelSt
  grants : FMap (Nat × Nat)
  segs : FMap Seg
  wayMask : Nat
  exclMask : Nat
  quota : FMap Nat
  breach : W64
  notice : W64
  eb : EbPage
  uc : FMap W64
  ucFrozen : FMap W64
  deriving DecidableEq, Repr

/-! ## Lane groups (16) -/

/-- An outstanding non-posted request (16/R475). `what`: 0 core load, 1 zero-length read of a core's strict store, 2 sequencer
load, 3 another hub unit, 4 zero-length read of a sequencer's strict store, 5 of a hub unit's; `due`: when its completion timeout ends (R476); `abandoned` by a reset of the endpoint (R487). -/
structure LgReq where
  tag : Nat
  port : Nat
  what : Nat
  core : Nat
  creel : Nat
  pa : Nat
  due : Nat
  abandoned : Bool
  deriving DecidableEq, Repr

/-- A lane group (16/R467-R479): LG_CFG and LG_HAMASK in force, LGC registers, requests, tags in quarantine with
the end of it, completion timeout encoding, link and CXL training of the root ports and the links that have been up since
the last reset (bit masks), the PERST_N pins that have been released since SYS_RESET_N (22/R599), unexpected completions, errors in AER. -/
structure Lg where
  cfg : W64
  hamask : W64
  ctl : W64
  tags : W64
  strict : FMap W64
  hdm : FMap W64
  reqs : List LgReq
  quarantine : List (Nat × Nat)
  cto : Nat
  linkUp : Nat
  wasUp : Nat
  cxlUp : Nat
  perst : Nat
  unexpected : Nat
  aer : Nat
  deriving DecidableEq, Repr

/-- What leaves the device: TLPs, messages, pins, frames, each a kind and its words. -/
structure Emit where
  kind : Nat
  words : List Nat
  deriving DecidableEq, Repr

/-! ## Hoop (14) -/

/-- The REF source (14/R429, R430): consecutive good edges, the last edge, seconds of that edge when known, HOOP_SECONDS
waiting for its edge (value, time of completion), HOOP_10M good. -/
structure RefSrc where
  edges : Nat
  last : Option Nat
  sec : Option Nat
  given : Option (Nat × Nat)
  deriving DecidableEq, Repr
/-- The Hoop (14). Time, state and source codes; `qual`: qualified sources as a mask by code; `offs`: offset of each source
from Hoop time in 2^-32 s; `sync`: offsets of the latest Sync exchanges; `lastSync`, `lostAt`: times; `slew`: an offset
beyond 100 ns is being slewed; `saved`: seconds in flash 1; `cal`: a change of calibration is being slewed; `ptpUtc`: UTC offset that PTP gave. -/
structure Hoop where
  sec : Nat
  frac : Nat
  st : Nat
  src : Nat
  qual : Nat
  offs : FMap Int
  ref : RefSrc
  sync : List Int
  lastSync : Nat
  ptpUtc : Option Nat
  lostAt : Nat
  steps : Nat
  stepNeeded : Bool
  alarm : Bool
  slew : Bool
  saved : Option Nat
  cal : Bool
  deriving DecidableEq, Repr

/-! ## The Stake (10, 18, 21) -/

/-- A completion that waits for room in a port's ring (10/R280, R284). -/
structure MbxComp where
  slot : Nat
  tag : Nat
  status : Nat
  irq : Bool
  result : W64
  reply : List W64
  deriving DecidableEq, Repr

/-- A port slot (10/R276-R285): the words of the 16 command slots and of the completion ring by index, the owner mask,
handed-over slots in doorbell order, the times of failed counts within the last second, the time of a suspension. -/
structure MbxPort where
  words : FMap W64
  owner : Nat
  queue : List Nat
  prod : Nat
  cons : Nat
  ring : FMap W64
  comps : List MbxComp
  counts : List Nat
  suspended : Option Nat
  deriving DecidableEq, Repr

/-- A command the Stake has accepted: its header fields, its payload from word 2 on, the lifecycle state at acceptance
(10/R279, R294). -/
structure Cmd where
  port : Nat
  slot : Nat
  op : Nat
  tag : Nat
  irq : Bool
  creel : Nat
  words : List W64
  life : Nat
  deriving DecidableEq, Repr

/-- What a started command waits for (10/R283): ways to be cleaned, in one slice or all; a rank copy; training; a way
still being cleaned for another creel (09/R264); a creel reset; the partner; commands in flight on a ring that
is freed; the pause of an update; the move of a creel between devices. -/
inductive WaitFor where
  | cleaning (slice : Option Nat) | rankCopy (ch : Nat) | speed (bin since : Nat) | changing (bin ch : Nat) | wayHeld | reset (cr : Nat) | pairing | freeing
  | activating | moving
  deriving DecidableEq, Repr
structure RunCmd where
  cmd : Cmd
  why : WaitFor
  old : List W64
  deriving DecidableEq, Repr

/-- An officer session: the two cards and the time of the last command (10/R295). -/
structure Session where
  c0 : Nat
  c1 : Nat
  last : Nat
  deriving DecidableEq, Repr

/-- A key component and an approval read from the cards (21/R577). -/
structure Component where
  creel : Nat
  set : Nat
  ix : Nat
  card : Nat
  key : Bytes
  kcv : Nat
  deriving DecidableEq, Repr
structure Approval where
  creel : Nat
  name : W64
  op : Nat
  by0 : Bool
  by1 : Bool
  since : Nat
  deriving DecidableEq, Repr

/-- An image slot of flash 0: the bundle, its slot sequence and its status byte (18/R524). -/
structure ImgSlot where
  bytes : Bytes
  seq : Nat
  status : Nat
  deriving DecidableEq, Repr

/-- A creel's boot record (18/R531). -/
structure BootRec where
  loadAddr : Nat
  length : Nat
  entry : Nat
  digest : Bytes
  autostart : Bool
  retain : Bool
  deriving DecidableEq, Repr

/-- The items of the configuration that DEVICE_CONFIG writes (18/R548); an unlisted key has its reset value. -/
structure DevCfg where
  lg : FMap W64
  hamask : FMap W64
  line : FMap W64
  addr : FMap (W64 × W64)
  skmUnits : Nat
  reserveRank : Bool
  deriving DecidableEq, Repr
/-- Settings the Hoop commands write (14/R437) and the witness (15/R464). -/
structure HoopCfg where
  sources : Nat
  alarm : Nat
  ptp : Nat
  ppsDelay : W64
  ptpAsym : W64
  utc : Nat
  deriving DecidableEq, Repr
structure WitnessCfg where
  addr : W64 × W64
  port : Nat
  timeout : Nat
  enable : Bool
  deriving DecidableEq, Repr
/-- What the record keeps of a creel (18/R535). -/
structure CreelCfg where
  cores : List Nat
  units : Nat
  grants : FMap (Nat × Nat)
  quota : FMap Nat
  wayMask : Nat
  exclMask : Nat
  boot : Option BootRec
  policy : W64
  assigned : Bool
  deriving DecidableEq, Repr
/-- The configuration record (18/R535). -/
structure CfgRec where
  pat : FMap W64
  creds : FMap Bytes
  creels : FMap CreelCfg
  qos : FMap W64
  dev : DevCfg
  bin : Nat
  scrub : Nat
  mitigation : Nat
  throttle : Nat
  waysOff : FMap Nat
  hoop : HoopCfg
  witness : WitnessCfg
  window : Nat
  mode : Bool
  deriving DecidableEq, Repr
/-- A configuration slot of flash 1 (18/R533, R534); `macRoot`: the root whose configuration MAC key made its MAC. A slot
that holds no complete record is not listed. -/
structure CfgSlot where
  seq : Nat
  fmt : Nat
  bodyLen : Nat
  macRoot : Bytes
  body : CfgRec
  deriving DecidableEq, Repr

/-- The update state (18/R537, R542, R543): its code, the slot that runs, when the window began, since when the checks hold, window and mode,
VBAT low, a fall-back to run again, a check that has failed. -/
structure Update where
  st : Nat
  running : Nat
  began : Nat
  holds : Nat
  window : Nat
  mode : Bool
  lowVbat : Bool
  retry : Bool
  failed : Bool
  deriving DecidableEq, Repr

/-- Battery-backed key memory (11/R304): an audit chain head with its sequence and checkpoint counts. -/
structure Chain where
  seq : Nat
  cps : Nat
  head : Bytes
  deriving DecidableEq, Repr
structure Bbkm where
  root : Bytes
  ownerRoot : Bytes
  storageRoot : Bytes
  ownerDigest : Bytes
  pairSecret : Bytes
  startCount : Nat
  gens : FMap Nat
  chains : FMap Chain
  witnessKey : Bytes
  epoch : Nat
  cards : List Nat
  life : Nat
  checkOk : Bool
  deriving DecidableEq, Repr

/-- The Stake (10, 18, 21). `up`: the firmware runs and the mailboxes are active (R275); `rom`: the recovery status
(18/R527); `due`: creels to be released, with the reason (R530); `tampered`, `retired`, `floor`: fuses (10/R293, 18/R525); `warm`: a
warm reset waits for strict stores (05/R172); `sram`: the 4 MiB SRAM (10/R273). -/
structure Stake where
  ports : FMap MbxPort
  turn : Nat
  accepted : List Cmd
  started : List RunCmd
  pat : FMap W64
  creds : FMap Bytes
  session : Option Session
  fails : Nat
  lockedAt : Option Nat
  comps : List Component
  approvals : List Approval
  auditors : FMap Nat
  up : Bool
  rom : Nat
  imgs : FMap ImgSlot
  boots : FMap BootRec
  due : FMap Nat
  bootImgs : FMap Bytes
  dev : DevCfg
  cfgs : FMap CfgSlot
  cfgLast : Nat
  upd : Update
  meas : FMap Bytes
  debug : Bool
  tampered : Bool
  retired : Bool
  floor : Nat
  scrub : Nat
  mitigation : Nat
  throttle : Nat
  popOk : Bool
  hoopCfg : HoopCfg
  witness : WitnessCfg
  warm : Bool
  sram : FMap Byte
  deriving DecidableEq, Repr

/-! ## The Hamper (11, 12) -/

/-- A key object (11/R313): the attribute words, the secret and the public part. -/
structure KeyObj where
  w0 : W64
  notBefore : W64
  notAfter : W64
  useLimit : W64
  useCount : W64
  kcv : Nat
  version : W64
  handle : W64
  secret : Bytes
  pub : Bytes
  bad : Bool
  deriving DecidableEq, Repr

/-- A session context (11/R325): `closed` holds the result of 12/R350 once it has closed. -/
structure Sess where
  gen : Nat
  creel : Nat
  slots : FMap W64
  families : Nat
  expiry : W64
  maxCmd : Nat
  maxFail : Nat
  cmds : Nat
  fails : Nat
  closed : Nat
  deriving DecidableEq, Repr

/-- A command ring (12/R339): registers, counts, fault code (0: none), whether RESOURCE_FREE stops it, and the counts
posted with their times (R372). -/
structure Ring where
  ring : W64
  cq : W64
  ctl : W64
  prod : Nat
  cons : Nat
  cqProd : Nat
  taken : Nat
  fault : Nat
  stopping : Bool
  posted : List (Nat × Nat)
  deriving DecidableEq, Repr

/-- Where a Hamper command came from (11/R332): a ring, or a Plaiter sequencer's call with its result register. -/
inductive HOrigin where
  | ring (r : Nat)
  | plaiter (unit k dest : Nat)
  deriving DecidableEq, Repr
/-- How a command's work ended: status and result, whether its commit waits for the partner or went without it,
whether its record is appended, the Hoop time of its record, the key handles it used, the use count of the first, its session (12/R348, 11/R332). -/
structure HDone where
  status : Nat
  result : W64
  waits : Bool
  unmirrored : Bool
  recorded : Bool
  sec : Nat
  frac : Nat
  st : Nat
  k1 : W64
  k2 : W64
  count1 : W64
  sess : Option Nat
  deriving DecidableEq, Repr
/-- A command that came to the vault: its number, origin, index in its ring, descriptor (12/R343-R345), the time of its
doorbell or call (R372); `taken`: the vault has accepted it (11/R333); `lost`: its ring was freed before it completed (R341). -/
structure HCmd where
  id : Nat
  origin : HOrigin
  creel : Nat
  index : Nat
  words : List W64
  since : Nat
  taken : Bool
  live : Bool
  yielded : Bool
  lost : Bool
  out : Option HDone
  deriving DecidableEq, Repr

/-- A creel's audit ring and checkpoint area (12/R370): records held because they could not be written, checkpoints
awaiting signature. -/
structure Audit where
  ring : Nat
  log2n : Nat
  consumed : Nat
  area : Nat
  slots : Nat
  cpUsed : Nat
  set : Bool
  held : List Bytes
  waiting : List (Nat × Bytes)
  deriving DecidableEq, Repr

/-- An entry of the TDEA cryptogram table (12/R364). -/
structure Arqc where
  key : W64
  hash : Bytes
  atc : Nat
  arqc : W64
  since : Nat
  deriving DecidableEq, Repr

/-- A DRBG instance (11/R330): requests since the reseed, time of the reseed. -/
structure Drbg where
  requests : Nat
  since : Nat
  deriving DecidableEq, Repr

/-- The Hamper. `entropy`: 0 good, 1 stopped with `reruns` failed reruns, 2 failed; `broken`: the DRBG or the key path
failed its test (21/R579); `engines`: failed known-answer tests by engine. -/
structure Vault where
  objs : FMap KeyObj
  recGen : FMap Nat
  sess : FMap Sess
  rings : FMap Ring
  active : List HCmd
  nextId : Nat
  turn : Nat
  ringTurn : FMap Nat
  audit : FMap Audit
  arqc : FMap (List Arqc)
  drbg : FMap Drbg
  entropy : Nat
  reruns : Nat
  broken : Bool
  engines : FMap Nat
  cache : FMap (List Nat)
  cap : Nat
  startKey : Bytes
  deriving DecidableEq, Repr

/-! ## Reserve and ageing (19) -/

/-- An entry of the reserve report (19/R557). -/
structure Retired where
  kind : Nat
  old : Nat
  new : Nat
  sec : Nat
  deriving DecidableEq, Repr
/-- Reserve capacity (19): reserve tiles in use by die, cores stopped for want of one, rows repaired, flash blocks and
Hamper units brought in, the last margins by unit in %, baselines valid, the retirements newest first, the units being
replaced, the old tiles not yet off, the samples by unit, Plaiter units brought in, the units out of service with no replacement (kind,
unit), the times of the last 64 corrected errors of each core tile (R550). -/
structure Reserve where
  tiles : FMap Nat
  stopped : Nat
  rows : Nat
  flash : FMap Nat
  hamper : FMap Nat
  margins : FMap Nat
  baseOk : Bool
  recent : List Retired
  replacing : List (Nat × Nat)
  oldTiles : List Nat
  samples : FMap (List Nat)
  plaiter : Nat
  out : List (Nat × Nat)
  errs : FMap (List Nat)
  deriving DecidableEq, Repr

/-! ## The Plaiter (13) -/

/-- A loaded image (13/R386, R387). -/
structure Img where
  code : Bytes
  maps : Bytes
  data : Bytes
  entries : List W64
  deriving DecidableEq, Repr
/-- A field-table entry (13/R392). -/
structure Fld where
  w0 : W64
  w1 : W64
  deriving DecidableEq, Repr
/-- A token of XML or JSON (13/R395): its type, depth, decoded data and offset in the message; for a sealed text the number
of the element or member it belongs to and the map entry. -/
structure Tok where
  ty : Nat
  depth : Nat
  data : Bytes
  off : Nat
  own : Option (Nat × Nat)
  deriving DecidableEq, Repr
/-- A door operation (13/R407): its destination, for a CALL its Hamper command and descriptor, and its result. -/
structure DoorOp where
  dest : Nat
  call : Option Nat
  p : Nat
  result : Option W64
  deriving DecidableEq, Repr
/-- How a job ends (13/R384, R385, R417). -/
structure JobEnd where
  status : Nat
  fault : Nat
  pc : Nat
  result : Nat
  outLen : Nat
  detail : W64
  deriving DecidableEq, Repr
/-- Where a job stands: taken, being decrypted by that Hamper command, decrypted, run, or an image load (13/R383, R388). -/
inductive JobPhase where
  | taken | ingest (id : Nat) | ready | run | load
  deriving DecidableEq, Repr
/-- A job on a sequencer (13/R382-R417). `flds`, `text`, `off`: field table, window and its offset in the message; `toks`:
every token, of which the current segment begins at `tokAt` and has as many as `flds`; `perr`: an error after them (reason,
offset, entry); `sealMap`: handles by element; `canon`: the token range canonicalised so far (R413); `sealed`:
SEQ_MODE.sealed was set at start (R415). -/
structure Job where
  queue : Nat
  index : Nat
  words : List W64
  sec : Nat
  frac : Nat
  st : Nat
  phase : JobPhase
  msg : Bytes
  flds : List Fld
  text : Bytes
  off : Nat
  toks : List Tok
  tokAt : Nat
  perr : Option (Nat × Nat × Nat)
  segNo : Nat
  mask : List W64
  seals : List Nat
  sealMap : FMap Nat
  canon : Option (Nat × Nat)
  calls : Nat
  ops : List DoorOp
  since : Nat
  beats0 : W64
  instrs : Nat
  sealed : Bool
  ending : Option JobEnd
  deriving DecidableEq, Repr
/-- A plaiter unit (13/R375): image, local data of its sequencers, jobs by sequencer, the queue whose turn is next, the
image load that waits, whether a reserve unit is taking its place. -/
structure PUnit where
  img : Option Img
  data : FMap (FMap Byte)
  jobs : FMap Job
  turn : Nat
  load : Option Job
  leaving : Bool
  deriving DecidableEq, Repr
/-- A job queue (13/R378-R381): the registers of a ring, and PQ_TRACE. -/
structure PQueue where
  ring : Ring
  trace : W64
  deriving DecidableEq, Repr
/-- A sealed field by its first buffer entry (13/R398, R399, R402): owner, generation, job, entries taken, content. -/
structure SealEnt where
  creel : Nat
  gen : Nat
  seq : Nat
  entries : Nat
  bytes : Bytes
  emittable : Bool
  deriving DecidableEq, Repr

/-! ## Line ports and host functions (16/R481-R496) -/

structure LineQ where
  rx : Ring
  tx : Ring
  ctl : W64
  deriving DecidableEq, Repr
structure LinePort where
  up : Bool
  set : W64
  addrs : FMap (W64 × W64)
  drops : Nat
  turn : Nat
  paused : Nat
  prios : FMap Nat
  deriving DecidableEq, Repr
/-- An MSI-X table entry (16/R488). -/
structure Msix where
  addr : W64
  data : W32
  mask : Bool
  pend : Bool
  deriving DecidableEq, Repr
/-- A function of a host-attach endpoint (16/R482-R488): staged windows, active windows, HF registers, Bus Master Enable,
MSI-X state; for the PF also VF Enable and NumVFs. -/
structure HostFn where
  tgt : FMap W64
  host : FMap W64
  act : List (W64 × W64)
  gen : Nat
  err : Nat
  cerr : Bool
  ctl : W64
  outb : W64
  exports : FMap W64
  bme : Bool
  msix : FMap Msix
  fmask : Bool
  vfEnable : Bool
  numVfs : Nat
  deriving DecidableEq, Repr

/-! ## Pairing (15) -/

/-- Who waits for a commit (15/R448): a core's barrier or marked store, a Hamper command, a job's completion, an inbound
MSI for a source, a completion record of a line queue (its place, its bytes, the source to raise), or nobody. -/
inductive Waiter where
  | core (n : Nat) | hamper (id : Nat) | job (u k : Nat) | msi (src : Nat)
  | line (k : Nat) (tx : Bool) (a : Nat) (b : Bytes) (src : Option Nat) | none
  deriving DecidableEq, Repr
/-- A commit not yet acknowledged (15/R448-R451), with the policy in force at its commit point (R453). -/
structure Commit where
  id : Nat
  creel : Nat
  cfg : W64
  vault : Bool
  since : Nat
  late : Bool
  who : Waiter
  deriving DecidableEq, Repr
/-- A frame sent and not yet acknowledged at the link layer (15/R439). -/
structure TxFrame where
  cls : Nat
  seq : Nat
  msg : PairMsg
  sent : Nat
  deriving DecidableEq, Repr
/-- What is left of a creel's resync copy (15/R460): lines and objects to send, and lines already sent. -/
structure Copy where
  lines : List Nat
  handles : List W64
  sess : List Nat
  deriving DecidableEq, Repr
/-- The witness exchange in progress (15/R465): the time and epoch of the claim, the last sending, granted. -/
structure WitnessRun where
  at_ : Nat
  sec : Nat
  frac : Nat
  st : Nat
  epoch : Nat
  sent : Nat
  granted : Bool
  deriving DecidableEq, Repr
/-- The pairing unit (15). `st`: the code of R444; `up`, `resv`: bundles up and reserve lanes used, as masks; `tx`, `rx`:
next sequence numbers by class; `logs`: captured lines by 256 × creel + agent; `inbox`: messages of commits not yet
applied, by creel; `released`: waiters whose commit point was released; `tagDown`: tag failures took the link down; `moving`:
creels that are being moved, and whether they were running (R462). -/
structure Pair where
  st : Nat
  index : Nat
  partner : Bytes
  up : Nat
  resv : Nat
  tagDown : Bool
  startAt : Nat
  tx : FMap Nat
  rx : FMap Nat
  unacked : List TxFrame
  sent : Nat
  keyAt : Nat
  keys : Nat
  tagFails : List Nat
  hbSeq : Nat
  hbSent : Nat
  hbAt : Nat
  pst : Nat
  pfence : Bool
  padvised : Bool
  advised : Bool
  lost : Option Nat
  fenceOut : Bool
  fenceIn : Bool
  claimAt : Option Nat
  holds : Bool
  wit : Option WitnessRun
  roles : FMap Nat
  cfg : FMap W64
  stat : FMap W64
  marks : FMap (List Nat)
  logs : FMap (List Nat)
  commits : List Commit
  nextId : Nat
  released : List Nat
  inbox : FMap (List PairMsg)
  copies : FMap Copy
  moving : FMap Bool
  deriving DecidableEq, Repr

/-! ## Power and pins (22) -/

/-- VCORE setpoints in mV by die, the time PWRBRAKE_N last rose (none: low), the output pins, the edge count of
HOOP_PPS_OUT, slack samples by 4096 × kind + unit. -/
structure Board where
  setp : FMap Nat
  brake : Bool
  brakeUp : Nat
  thermtrip : Bool
  fatalLow : Bool
  pps : Nat
  ppsSec : Nat
  governor : Bool
  powers : List Nat
  deriving DecidableEq, Repr

/-! ## The whole device -/

/-- Why a step stops. No meaning of this model ends in a fault: an error of the device is an effect on the state. -/
inductive Fault where
  deriving DecidableEq, Repr

/-- Why a command has no meaning. -/
inductive Refusal where
  /-- Raised by an arm of `exec` whose command has no meaning yet; safe. -/
  | notModelled (mnemonic : String)
  deriving DecidableEq, Repr

/-- The state of the device and the queue of the commands that wait. -/
structure State where
  cores : FMap Core
  seqs : FMap Seq
  coreTile : FMap Nat
  coreCreel : FMap Nat
  mem : Mem
  tiles : FMap Tile
  slices : FMap Slice
  bridges : FMap Nat
  chans : FMap Chan
  qosCfg : FMap W64
  installed : Nat
  creels : FMap Creel
  ringHolder : FMap Nat
  pqHolder : FMap Nat
  lgs : FMap Lg
  hoop : Hoop
  emitted : List Emit
  sources : FMap EvSrc
  log : List Rec
  banks : FMap UBank
  stake : Stake
  bbkm : Bbkm
  vault : Vault
  reserve : Reserve
  unitCreel : FMap Nat
  units : FMap PUnit
  pqs : FMap PQueue
  seals : FMap SealEnt
  sealGen : FMap Nat
  lqs : FMap LineQ
  rules : FMap W64
  lports : FMap LinePort
  hostFns : FMap HostFn
  pair : Pair
  board : Board
  resetting : FMap Nat
  power : Nat
  hubTraffic : FMap Nat
  lastHubLog : Nat
  clock : Nat
  free : Nat
  pending : List Instr
  deriving DecidableEq, Repr

def ctxReset : Ctx := { g := [], p := [], pc := 0 }
def predReset : Pred := { btb1 := [], btb2 := [], dir := [], hist := [], ras := [], epoch := 0, conflicts := [] }
/-- A core at reset: SYS_STATUS.priv is 1 (03/R98), every other register 0. -/
def coreReset : Core :=
  { x := ctxReset, v := [], run := .stopped, sys := [(0, 1)], pend := [], svec := [], upend := [], irSel := 0,
    leg := [], beat := 0, sb := [], wc := [], parked := none, dev := none, strict := [], ioFence := false,
    ioSaved := false, waiting := false, tlb := [], ptr := [], pred := predReset, discarded := 0 }
def seqReset : Seq :=
  { x := ctxReset, run := false, dfpc := 0, modeWritten := 0, mode := 0, modeQ := [], busy := [], poisoned := [],
    ops := [], miss := none, cache := [], loop := .empty, leftLoop := false, beats := 0, ended := none,
    strict := [], ioFence := false, badLines := [], badLocal := false, skew := [] }
def tileReset : Tile := { l1i := [], l1d := [], l2 := [], miss := [] }
def sliceReset : Slice :=
  { sets := [], dir := [], off := 0, retired := 0, reserveUsed := 0, wayMap := [], cleaning := 0, powerCleaning := 0, victims := [],
    fills := [], waitq := [] }
def bankReset : Bank := { track := [], openRow := none, hint := 0, hits := [], throttled := [], used := 0, acts := [] }
def chanReset : Chan :=
  { st := .untrained, bin := 0, known := [], fellBack := false, trainRank := none, trained := [], fenced := 0, reserveRank := 0,
    reserveFailed := false, outOfService := none, ranks := 0, copy := none, scrubPos := 0, corrected := 0, events := [], discarded := 0,
    rowErr := [], rankErr := [], devRows := [], repair := [], banks := [], stat := [] }

def ubankReset : UBank := { corrected := 0, deferred := 0, recs := [] }
def ebReset : EbPage := { prod := 0, cons := 0, status := 0, ctl := 0, slots := [] }
def creelReset : Creel :=
  { st := .unassigned, grants := [], segs := [], wayMask := 0, exclMask := 0, quota := [], breach := 0, notice := 0,
    eb := ebReset, uc := [], ucFrozen := [] }
/-- LG_CFG with no configuration entry: no owners, 64 GT/s, x16, no CXL, root ports (16/R467); LGC_CTL start-up (R479),
caps 0x300 (R475). -/
def lgReset : Lg :=
  { cfg := 0x3fffffff01, hamask := 0, ctl := 1, tags := 0xc0300c0300, strict := [], hdm := [],
    reqs := [], quarantine := [], cto := 0, linkUp := 0, wasUp := 0, cxlUp := 0, perst := 0, unexpected := 0, aer := 0 }

def portReset : MbxPort :=
  { words := [], owner := 0, queue := [], prod := 0, cons := 0, ring := [], comps := [], counts := [], suspended := none }
def devCfgReset : DevCfg := { lg := [], hamask := [], line := [], addr := [], skmUnits := 16, reserveRank := false }
/-- Hoop settings at reset: the order REF, PTP, PAIR, the alarm at 14,400 s, UTC offset 0 (14/R426, R430, R432); log entry 1
for the rest. -/
def hoopCfgReset : HoopCfg := { sources := 0x321, alarm := 14400, ptp := 0, ppsDelay := 0, ptpAsym := 0, utc := 0 }
def witnessReset : WitnessCfg := { addr := (0, 0), port := 0, timeout := 0, enable := false }
def cfgRecReset : CfgRec :=
  { pat := [], creds := [], creels := [], qos := [], dev := devCfgReset, bin := 0, scrub := 24, mitigation := 512,
    throttle := 2048, waysOff := [], hoop := hoopCfgReset, witness := witnessReset, window := 10, mode := false }
def cfgSlotReset : CfgSlot := { seq := 0, fmt := 0, bodyLen := 0, macRoot := [], body := cfgRecReset }
def imgReset : ImgSlot := { bytes := [], seq := 0, status := 0 }
def updReset : Update :=
  { st := 0, running := 0, began := 0, holds := 0, window := 10, mode := false, lowVbat := false, retry := false, failed := false }
def zeros (n : Nat) : Bytes := List.replicate n 0
def chainReset : Chain := { seq := 0, cps := 0, head := zeros 48 }
/-- Parts leave Pabois in COMMISSIONED (10/R293); the roots: log entry 1. -/
def bbkmReset : Bbkm :=
  { root := zeros 32, ownerRoot := zeros 32, storageRoot := zeros 32, ownerDigest := zeros 48, pairSecret := zeros 32,
    startCount := 0, gens := [], chains := [], witnessKey := zeros 32, epoch := 0, cards := [], life := 1, checkOk := true }
def stakeReset : Stake :=
  { ports := [], turn := 0, accepted := [], started := [], pat := [], creds := [], session := none, fails := 0,
    lockedAt := none, comps := [], approvals := [], auditors := [], up := false, rom := 0, imgs := [], boots := [], due := [],
    bootImgs := [], dev := devCfgReset, cfgs := [], cfgLast := 0, upd := updReset, meas := [], debug := false,
    tampered := false, retired := false, floor := 0, scrub := 24, mitigation := 512, throttle := 2048, popOk := true,
    hoopCfg := hoopCfgReset, witness := witnessReset, warm := false, sram := [] }
def keyReset : KeyObj :=
  { w0 := 0, notBefore := 0, notAfter := 0, useLimit := 0, useCount := 0, kcv := 0, version := 0, handle := 0,
    secret := [], pub := [], bad := false }
def sessReset : Sess :=
  { gen := 0, creel := 0, slots := [], families := 0, expiry := 0, maxCmd := 0, maxFail := 0, cmds := 0, fails := 0,
    closed := 6 }
def ringReset : Ring :=
  { ring := 4, cq := 0, ctl := 0, prod := 0, cons := 0, cqProd := 0, taken := 0, fault := 0, stopping := false, posted := [] }
def auditReset : Audit :=
  { ring := 0, log2n := 0, consumed := 0, area := 0, slots := 0, cpUsed := 0, set := false, held := [], waiting := [] }
def drbgReset : Drbg := { requests := 0, since := 0 }
def vaultReset : Vault :=
  { objs := [], recGen := [], sess := [], rings := [], active := [], turn := 63, ringTurn := [], nextId := 0, audit := [], arqc := [], drbg := [],
    entropy := 0, reruns := 0, broken := false, engines := [], cache := [], cap := 0, startKey := zeros 32 }
def reserveReset : Reserve :=
  { tiles := [], stopped := 0, rows := 0, flash := [], hamper := [], margins := [], baseOk := true, recent := [],
    replacing := [], oldTiles := [], samples := [], plaiter := 0, out := [], errs := [] }
def hoopReset : Hoop :=
  { sec := 0, frac := 0, st := 0, src := 0, qual := 0, offs := [], ref := { edges := 0, last := none, sec := none, given := none },
    sync := [], lastSync := 0, ptpUtc := none, lostAt := 0, steps := 0, stepNeeded := false, alarm := false, slew := false,
    saved := none, cal := false }
def unitReset : PUnit := { img := none, data := [], jobs := [], turn := 0, load := none, leaving := false }
def pqReset : PQueue := { ring := ringReset, trace := 0 }
def lqReset : LineQ := { rx := ringReset, tx := ringReset, ctl := 0 }
/-- Line-port settings with no configuration entry: 100 Gb/s with auto-negotiation (16/R491). -/
def lportReset : LinePort := { up := false, set := 0x23, addrs := [], drops := 0, turn := 0, paused := 0, prios := [] }
def msixReset : Msix := { addr := 0, data := 0, mask := true, pend := false }
def hfReset : HostFn :=
  { tgt := [], host := [], act := [], gen := 0, err := 0, cerr := false, ctl := 0x300, outb := 0, exports := [], bme := false,
    msix := [], fmask := false, vfEnable := false, numVfs := 0 }
def pairReset : Pair :=
  { st := 0, index := 0, partner := [], up := 0, resv := 0, tagDown := false, startAt := 0, tx := [], rx := [], unacked := [],
    sent := 0, keyAt := 0, keys := 0, tagFails := [], hbSeq := 0, hbSent := 0, hbAt := 0, pst := 0, pfence := false,
    padvised := false, advised := false, lost := none, fenceOut := false, fenceIn := false, claimAt := none, holds := false,
    wit := none, roles := [], cfg := [], stat := [], marks := [], logs := [], commits := [], nextId := 0,
    released := [], inbox := [], copies := [], moving := [] }
/-- The start setpoint of VCORE is 800 mV (22/R592); the pins: log entry 1. -/
def boardReset : Board :=
  { setp := [], brake := false, brakeUp := 0, thermtrip := false, fatalLow := false, pps := 0, ppsSec := 0, governor := false, powers := [] }

def State.reset : State :=
  { cores := [], seqs := [], coreTile := [], coreCreel := [], mem := { cells := [], poison := [], scr := [] },
    tiles := [], slices := [], bridges := [], chans := [], qosCfg := [], installed := 0, creels := [], ringHolder := [], pqHolder := [], lgs := [],
    hoop := hoopReset, emitted := [], sources := [], log := [], banks := [], stake := stakeReset, bbkm := bbkmReset, vault := vaultReset, reserve := reserveReset,
    unitCreel := [], units := [], pqs := [], seals := [], sealGen := [], lqs := [], rules := [], lports := [], hostFns := [],
    pair := pairReset, board := boardReset, resetting := [], power := 0, hubTraffic := [], lastHubLog := 0, clock := 0, free := 0, pending := [] }

end Sys2Proof.Machine
end

