-- ==== Sys2Proof/Machine/Ops.lean ====
section
/-!
DEFINITION. The named operations every unit uses: reading and writing the parts of the state, free values, memory,
the address map (01/R25-R29), event sources (17/R497-R506) and error records (17/R507-R512).
-/
namespace Sys2Proof.Machine

abbrev Out := Host.Outcome State Fault Refusal

/-- The keys of a sparse map, and one map written over another. -/
def mapKeys {α : Type} (m : FMap α) : List Nat := m.map (·.1)
def mapMerge {α : Type} (m n : FMap α) : FMap α := n.foldl (fun m p => m.set p.1 p.2) m

/-! ## Parts of the state -/

def State.core (s : State) (n : Nat) : Core := s.cores.get coreReset n
def State.setCore (s : State) (n : Nat) (c : Core) : State := { s with cores := s.cores.set n c }
def State.modCore (s : State) (n : Nat) (f : Core → Core) : State := s.setCore n (f (s.core n))
/-- The retired stores that a core's buffers hold (05/R171). -/
def Core.buffered (c : Core) : Nat := (c.sb.map (·.stores)).sum + (c.wc.map (·.stores)).sum
/-- Sequencers are numbered as the coherent agents of 07/R215, less 224. -/
def seqIx : SeqId → Nat
  | .hamper k => k.val
  | .plaiter u k => 14 + 4 * u.val + k.val
  | .stake => 86
def State.seq (s : State) (i : Nat) : Seq := s.seqs.get seqReset i
def State.setSeq (s : State) (i : Nat) (q : Seq) : State := { s with seqs := s.seqs.set i q }
def State.modSeq (s : State) (i : Nat) (f : Seq → Seq) : State := s.setSeq i (f (s.seq i))
def State.tile (s : State) (t : Nat) : Tile := s.tiles.get tileReset t
def State.setTile (s : State) (t : Nat) (x : Tile) : State := { s with tiles := s.tiles.set t x }
def State.slice (s : State) (i : Nat) : Slice := s.slices.get sliceReset i
def State.setSlice (s : State) (i : Nat) (x : Slice) : State := { s with slices := s.slices.set i x }
def State.chan (s : State) (i : Nat) : Chan := s.chans.get chanReset i
def State.setChan (s : State) (i : Nat) (x : Chan) : State := { s with chans := s.chans.set i x }
def State.modChan (s : State) (i : Nat) (f : Chan → Chan) : State := s.setChan i (f (s.chan i))
def State.creel (s : State) (i : Nat) : Creel := s.creels.get creelReset i
def State.setCreel (s : State) (i : Nat) (x : Creel) : State := { s with creels := s.creels.set i x }
def State.modCreel (s : State) (i : Nat) (f : Creel → Creel) : State := s.setCreel i (f (s.creel i))
/-- Hoop time in units of 2^-32 s (14/R424). -/
def State.now (s : State) : Nat := s.hoop.sec * 2 ^ 32 + s.hoop.frac
def secs (n : Nat) : Nat := n * 2 ^ 32
/-- So many microseconds, rounded up. -/
def micros (n : Nat) : Nat := (n * 2 ^ 32 + 999999) / 1000000
/-- Hoop seconds that have reached a multiple of 64 since the last write are in flash 1 (14/R425). -/
def Hoop.save (h : Hoop) : Hoop :=
  let m := h.sec / 64 * 64
  if h.saved.getD 0 < m then { h with saved := some m } else h
/-- Time passes: Hoop time and the device's own clock advance (14/R424). -/
def State.advance (s : State) (n : Nat) : State :=
  let t := s.now + n
  { s with hoop := ({ s.hoop with sec := t / 2 ^ 32, frac := t % 2 ^ 32 } : Hoop).save, clock := s.clock + n }
def State.modStake (s : State) (f : Stake → Stake) : State := { s with stake := f s.stake }
/-- The officer session that is open: it ends 15 min after its last command (10/R295). -/
def State.officer (s : State) : Option Session := s.stake.session.filter fun e => decide (s.clock < e.last + secs 900)
/-- The pause of an update or of a fall-back (18/R539, R545); it ends while a fall-back that could not complete waits. -/
def State.paused (s : State) : Bool := s.stake.upd.st = 2 || (s.stake.upd.st = 4 && !s.stake.upd.retry)
def State.modVault (s : State) (f : Vault → Vault) : State := { s with vault := f s.vault }
def State.modBbkm (s : State) (f : Bbkm → Bbkm) : State := { s with bbkm := f s.bbkm }
/-- A counter of a creel's uncore page by its offset (20/R566). -/
def State.ucAdd (s : State) (cr off n : Nat) : State :=
  s.modCreel cr fun c => { c with uc := c.uc.set off (c.uc.get 0 off + w64 n) }
def State.lg (s : State) (i : Nat) : Lg := s.lgs.get lgReset i
def State.setLg (s : State) (i : Nat) (x : Lg) : State := { s with lgs := s.lgs.set i x }
def State.modLg (s : State) (i : Nat) (f : Lg → Lg) : State := s.setLg i (f (s.lg i))

/-- The physical tile that runs a logical core (01/R15, 19/R557): tile position n mod 48 of its own die until a swap
(log entry 5). -/
def State.tileOf (s : State) (n : Nat) : Nat := s.coreTile.get (56 * (n / 48) + n % 48) n
/-- The creel that owns a logical core, if any. -/
def State.creelOf (s : State) (n : Nat) : Option Nat :=
  if s.coreCreel.has n then some (s.coreCreel.get 0 n) else none

/-- Numbers from `lo` for `n` places. -/
def upto (lo n : Nat) : List Nat := (List.range n).map (lo + ·)
/-- The logical cores of a creel, lowest first. -/
def State.coresOf (s : State) (cr : Nat) : List Nat :=
  (s.coreCreel.filter (fun p => p.2 = cr)).map (·.1)

/-- The next free value of a kind (log entry 2). -/
def State.drawn (s : State) (k : FreeKind) : Nat := Config.free k s.free
def State.spend (s : State) : State := { s with free := s.free + 1 }
def State.emit (s : State) (k : Nat) (ws : List Nat) : State :=
  { s with emitted := s.emitted ++ [{ kind := k, words := ws }] }

/-! ## Memory (00: little-endian; log entry 4) -/

def cellGet : List Host.Cell → Nat → Byte
  | [], _ => 0
  | (b, v) :: r, a => if b = a then v else cellGet r a
/-- The canonical list with one byte written: addresses rise, and a zero byte is not listed. -/
def cellSet : List Host.Cell → Nat → Byte → List Host.Cell
  | [], a, v => if v = 0 then [] else [(a, v)]
  | (b, w) :: r, a, v =>
    if a < b then (if v = 0 then (b, w) :: r else (a, v) :: (b, w) :: r)
    else if a = b then (if v = 0 then r else (a, v) :: r)
    else (b, w) :: cellSet r a v

/-- The epoch of the scrambled range that holds an address, if any (18/R522, 21/R570). -/
def scrAt : List (Nat × Nat × Nat) → Nat → Option Nat
  | [], _ => none
  | (lo, hi, e) :: r, a => if lo ≤ a ∧ a < hi then some e else scrAt r a
/-- The scrambled ranges with one byte taken out of them. -/
def scrCut : List (Nat × Nat × Nat) → Nat → List (Nat × Nat × Nat)
  | [], _ => []
  | (lo, hi, e) :: r, a =>
    if lo ≤ a ∧ a < hi then
      (if lo < a then [(lo, a, e)] else []) ++ (if a + 1 < hi then [(a + 1, hi, e)] else []) ++ scrCut r a
    else (lo, hi, e) :: scrCut r a

def Mem.read (m : Mem) (a : Nat) : Byte :=
  match scrAt m.scr a with
  | some e => Config.scrambled a e
  | none => cellGet m.cells a
def Mem.write (m : Mem) (a : Nat) (v : Byte) : Mem :=
  { m with cells := cellSet m.cells a v, scr := scrCut m.scr a }

/-- The canonical form: addresses rise and no listed byte is zero. -/
def cellsWf : List Host.Cell → Bool
  | [] => true
  | [(_, v)] => v != 0
  | (a, v) :: (b, w) :: r => v != 0 && decide (a < b) && cellsWf ((b, w) :: r)
def Mem.wf (m : Mem) : Bool := cellsWf m.cells

/-- The device windows of the ten lane groups (16/R469). -/
def inWindow (a : Nat) : Bool := decide (0x100000000000 ≤ a) && decide (a < 0x128000000000)
/-- A byte of the physical address space as a unit reads it; a device's answer is its own. -/
def State.rd8 (s : State) (a : Nat) : Byte := if inWindow a then Config.deviceByte a s.free else s.mem.read a
def State.wr8 (s : State) (a : Nat) (v : Byte) : State := { s with mem := s.mem.write a v }
/-- The bytes of a range, lowest address first. -/
def State.rdBytes (s : State) (a n : Nat) : Bytes := (upto a n).map s.rd8
/-- The bytes stored from an address upward. -/
def State.wrBytes (s : State) (a : Nat) : Bytes → State
  | [] => s
  | b :: r => (s.wr8 a b).wrBytes (a + 1) r
/-- Bytes stored at the addresses that a map lists. -/
def State.wrMap (s : State) : FMap Byte → State
  | [] => s
  | (a, b) :: r => (s.wr8 a b).wrMap r

/-- The number that bytes spell, lowest byte first. -/
def leNat : Bytes → Nat
  | [] => 0
  | b :: r => b.toNat + 256 * leNat r
/-- The lowest n bytes of a number, lowest first. -/
def toLe (n v : Nat) : Bytes :=
  match n with
  | 0 => []
  | n + 1 => BitVec.ofNat 8 v :: toLe n (v / 256)
/-- The number that bytes spell, highest byte first. -/
def beNat (b : Bytes) : Nat := b.foldl (fun a x => 256 * a + x.toNat) 0
/-- n bytes of a number, highest first. -/
def toBe (n v : Nat) : Bytes := (toLe n v).reverse

def State.rd64 (s : State) (a : Nat) : W64 := w64 (leNat (s.rdBytes a 8))
def State.wr64 (s : State) (a : Nat) (v : W64) : State := s.wrBytes a (toLe 8 v.toNat)
/-- Words stored from an address upward. -/
def State.wrWords (s : State) (a : Nat) (l : List W64) : State := s.wrBytes a (l.flatMap fun w => toLe 8 w.toNat)

def lineOf (pa : Nat) : Nat := pa / 64
/-- The lines a range touches. -/
def linesOf (a n : Nat) : List Nat := if n = 0 then [] else upto (a / 64) ((a + n - 1) / 64 + 1 - a / 64)
def setInsert (l : List Nat) (x : Nat) : List Nat := if l.contains x then l else l ++ [x]
def setErase (l : List Nat) (x : Nat) : List Nat := l.filter (· ≠ x)
def State.poisoned (s : State) (line : Nat) : Bool := s.mem.poison.contains line
def State.markPoison (s : State) (line : Nat) : State :=
  { s with mem := { s.mem with poison := setInsert s.mem.poison line } }
def State.clearPoison (s : State) (line : Nat) : State :=
  { s with mem := { s.mem with poison := setErase s.mem.poison line } }
/-- A write of whole bytes: a line written whole loses its poison mark (08/R234, 17/R517). -/
def State.unpoisonWhole (s : State) (bytes : List Nat) : State :=
  ((bytes.map (· / 64)).eraseDups.filter fun l => (upto (64 * l) 64).all bytes.contains).foldl State.clearPoison s
/-- A store performed on memory. -/
def State.store (s : State) (m : FMap Byte) : State := (s.wrMap m).unpoisonWhole (m.map (·.1))
/-- A block of bytes written to memory by a hub unit or an inbound device. -/
def State.storeBytes (s : State) (a : Nat) (b : Bytes) : State :=
  ((linesOf a b.length).filter fun l => a ≤ 64 * l ∧ 64 * l + 64 ≤ a + b.length).foldl State.clearPoison (s.wrBytes a b)
/-- The contents of a range become unpredictable under a new epoch (18/R522, 21/R570). -/
def State.scramble (s : State) (lo hi : Nat) : State :=
  { s with mem := { s.mem with cells := s.mem.cells.filter (fun c => ¬ (lo ≤ c.1 ∧ c.1 < hi)),
                               scr := (lo, hi, s.free) :: s.mem.scr }, free := s.free + 1 }

/-! ## The address map (01/R25-R29, 16/R469-R474) -/

/-- The region a physical address lies in. -/
inductive Region where
  | dram | cxl (type3 : Bool) | window (lg : Nat) (off : Nat) | lineBlock (off : Nat) | hub | reserved
  deriving DecidableEq, Repr

/-- A CXL decoder covers an address: enable, base and limit in units of 256 MiB (16/R473). -/
def hdmCovers (w : W64) (pa : Nat) : Bool :=
  tbit w 0 && decide (fld w 63 49 ≤ (pa - 0x80000000000) / 0x10000000) &&
    decide ((pa - 0x80000000000) / 0x10000000 ≤ fld w 48 34)
/-- The enabled decoder of a CXL address, as a lane group and the decoder's word. -/
def State.hdmOf (s : State) (pa : Nat) : Option (Nat × W64) :=
  (upto 0 10).findSome? fun n => ((s.lg n).hdm.find? fun p => hdmCovers p.2 pa).map fun p => (n, p.2)
/-- A block of the hub space (01/R27). -/
def hubBlock (pa : Nat) : Bool :=
  (0xFF00000000000 ≤ pa ∧ pa < 0xFF00002000000) || (0xFF00010000000 ≤ pa ∧ pa < 0xFF00010080000) ||
  (0xFF00100000000 ≤ pa ∧ pa < 0xFF00100400000) || (0xFF00200000000 ≤ pa ∧ pa < 0xFF00200100000) ||
  (0xFF00300000000 ≤ pa ∧ pa < 0xFF00301000000) || (0xFF00400000000 ≤ pa ∧ pa < 0xFF00401000000)
/-- Offsets of a lane group's window that the mode in force leaves reserved (16/R469). -/
def windowReserved (hostMode : Bool) (off : Nat) : Bool :=
  if hostMode then
    decide (off < 0x10000000) || (decide (0x10041000 ≤ off) && decide (off < 0x200000000)) ||
      decide (0x200000000 + 0x80000000 * 64 ≤ off)
  else decide (0x10001000 ≤ off) && decide (off < 0x20000000)
/-- The line-port block: 64 areas of 128 KiB (16/R494). -/
def lineBlockBase : Nat := 0x128000000000
def State.region (s : State) (pa : Nat) : Region :=
  if pa < 0x80000000000 then (if pa < s.installed then .dram else .reserved)
  else if pa < 0x100000000000 then
    match s.hdmOf pa with
    | some (_, w) => .cxl (tbit w 5)
    | none => .reserved
  else if pa < 0x100000000000 + 0x4000000000 * 10 then
    let n := (pa - 0x100000000000) / 0x4000000000
    let off := (pa - 0x100000000000) % 0x4000000000
    if fld (s.lg n).cfg 2 0 = 0 ∨ windowReserved (fld (s.lg n).cfg 2 0 = 2) off then .reserved else .window n off
  else if lineBlockBase ≤ pa ∧ pa < lineBlockBase + 0x800000 then .lineBlock (pa - lineBlockBase)
  else if hubBlock pa then .hub
  else .reserved

/-- The strict window of a lane group that holds an offset, if one is enabled (16/R474). -/
def State.strictWindow (s : State) (lg off : Nat) : Option Nat :=
  (((s.lg lg).strict.find? fun p =>
      tbit p.2 0 && decide (fld p.2 63 38 ≤ off / 4096) && decide (off / 4096 ≤ fld p.2 37 12))).map (·.1)
/-- The control pages and function pages that the device fixes as strict (16/R470). -/
def fixedStrict (off : Nat) : Bool := decide (0x10000000 ≤ off) && decide (off < 0x10041000)

/-- The memory type of the MT field of a leaf (05/R148). -/
def mtOf : Nat → MemType
  | 0 => .wb | 1 => .wc | 2 => .uc | 3 => .dev | _ => .strict
/-- The effective type of an access (05/R149); `none` for the MT: translation is off. -/
def State.effType (s : State) (pa : Nat) (mt : Option MemType) : MemType :=
  match s.region pa with
  | .dram | .cxl _ =>
    match mt with
    | none => .wb
    | some .wb => .wb
    | some .wc => .wc
    | some .uc => .uc
    | some .dev => .uc
    | some .strict => .uc
  | .window lg off =>
    if fixedStrict off ∨ (s.strictWindow lg off).isSome then .strict else
    match mt with
    | none => .dev
    | some .dev => .dev
    | some .wb => .uc
    | some .uc => .uc
    | some .wc => .wc
    | some .strict => .strict
  | .lineBlock _ | .hub | .reserved => .strict

/-! ## Vectors and sources (17) -/

/-- Bit n of a bank of 64-bit words set or cleared. -/
def bankSet (m : FMap W64) (n : Nat) (b : Bool) : FMap W64 :=
  m.set (n / 64) (setFld (m.get 0 (n / 64)) (n % 64) (n % 64) (b2n b))
def bankBit (m : FMap W64) (n : Nat) : Bool := tbit (m.get 0 (n / 64)) (n % 64)
/-- The highest bit set in a bank of `n` bits. -/
def bankTop (m : FMap W64) (n : Nat) : Option Nat := ((List.range n).reverse).find? (bankBit m)
def bankAny (m : FMap W64) : Bool := m.any fun p => p.2 != 0

/-- A vector becomes pending at a core (17/R501, R504). -/
def State.setVector (s : State) (n vec : Nat) (isS : Bool) : State :=
  s.modCore n fun c => if isS then { c with svec := bankSet c.svec vec true } else { c with upend := bankSet c.upend vec true }

def srcReset : EvSrc := { holder := none, dest := 1, core := 0, vector := 0, mask := true, pending := false }
def State.src (s : State) (i : Nat) : EvSrc := s.sources.get srcReset i
def State.setSrc (s : State) (i : Nat) (e : EvSrc) : State := { s with sources := s.sources.set i e }

/-! ## Error records (17/R507-R512) -/

def recOf (seq cls unit code addr inst detail sec frac : Nat) : Rec :=
  { w0 := w64 (seq % 2 ^ 32 * 2 ^ 32 + cls % 16 * 2 ^ 28 + unit % 4096 * 2 ^ 16 + code % 2 ^ 16), w1 := w64 addr,
    w2 := w64 (inst % 2 ^ 16 * 2 ^ 48 + detail % 2 ^ 48), w3 := w64 (sec % 2 ^ 32 * 2 ^ 32 + frac % 2 ^ 32) }
/-- A record in the device log only. -/
def State.logRec (s : State) (cls unit code addr inst detail : Nat) : State :=
  { s with log := s.log ++ [recOf (s.log.length + 1) cls unit code addr inst detail s.hoop.sec s.hoop.frac] }

/-! The error banks of the units (17/R507, R509); the unit kinds are those of a record (R511). -/
def State.bank (s : State) (unit inst : Nat) : UBank := s.banks.get ubankReset (65536 * unit + inst)
def State.modBank (s : State) (unit inst : Nat) (f : UBank → UBank) : State :=
  { s with banks := s.banks.set (65536 * unit + inst) (f (s.bank unit inst)) }
/-- A record in a unit's bank alone. -/
def State.bankRec (s : State) (unit inst cls code detail : Nat) : State :=
  s.modBank unit inst fun b => { b with recs := b.recs ++ [recOf (b.recs.length + 1) cls unit code 0 inst detail s.hoop.sec s.hoop.frac] }
def State.bankCorrected (s : State) (unit inst : Nat) : State := s.modBank unit inst fun b => { b with corrected := b.corrected + 1 }
/-- A device-log entry for which the manual gives no error code (log entry 14): unit, instance, detail. -/
def State.note (s : State) (unit inst detail : Nat) : State := s.logRec 0 unit 0 0 inst detail

/-- A 16-bit field that saturates, one higher. -/
def satInc (w : W64) (hi lo : Nat) : W64 :=
  let v := fld w hi lo
  if v + 1 < 2 ^ (hi + 1 - lo) then setFld w hi lo (v + 1) else w

/-- An event of a unit that `cr` owns reaches source `src` while that creel holds it; else it is dropped with a record
of code 0x0032, class 2 (17/R501, R506). -/
def State.raiseHeld (s : State) (src cr : Nat) : State :=
  if (s.src src).holder = some cr then s.setSrc src { s.src src with pending := true } else s

/-- The fixed source of kind k of a creel (17/R497). -/
def fixedSrc (k cr : Nat) : Nat := 7680 + 64 * k + cr
def State.raiseFixed (s : State) (k cr : Nat) : State := s.raiseHeld (fixedSrc k cr) cr

/-- An error attributed to a creel: the record in its page or the count of records lost, the counters, the device log,
and the error notice (17/R507, R508, R510, R512). -/
def State.creelError (s : State) (cr cls unit code addr inst detail : Nat) : State :=
  let p := (s.creel cr).eb
  let room := (p.prod + 2 ^ 32 - p.cons) % 2 ^ 32 < 64
  let seq := (p.prod + 1) % 2 ^ 32
  let r := recOf seq cls unit code addr inst detail s.hoop.sec s.hoop.frac
  let st1 := if cls = 1 then satInc p.status 47 32 else if cls = 2 ∨ cls = 3 then satInc p.status 31 16 else p.status
  let p' : EbPage :=
    if room then { p with prod := seq, slots := p.slots.set (seq % 64) r, status := st1 }
    else { p with status := satInc st1 15 0 }
  let s1 := { (s.modCreel cr fun c => { c with eb := p' }) with log := s.log ++ [r] }
  let thr := cls = 1 ∧ fld p.ctl 15 0 ≠ 0 ∧ fld st1 47 32 = fld p.ctl 15 0 ∧ fld p.status 47 32 ≠ fld st1 47 32
  if cls = 2 ∨ cls = 4 ∨ thr then s1.raiseFixed 0 cr else s1

/-- A corrected error attributed to a creel: counted, with a notice at the threshold (17/R507, R508). -/
def State.creelCorrected (s : State) (cr : Nat) : State :=
  let p := (s.creel cr).eb
  let st1 := satInc p.status 63 48
  let s1 := s.modCreel cr fun c => { c with eb := { p with status := st1 } }
  if fld p.ctl 31 16 ≠ 0 ∧ fld st1 63 48 = fld p.ctl 31 16 ∧ fld p.status 63 48 ≠ fld st1 63 48 then s1.raiseFixed 0 cr
  else s1

/-- A unit of creel `cr` raises the event its ring or queue names; an event for a source that the creel does not hold
is dropped and recorded (17/R498, R506). -/
def State.unitEvent (s : State) (src cr unit inst : Nat) : State :=
  if (s.src src).holder = some cr then s.setSrc src { s.src src with pending := true }
  else s.creelError cr 2 unit 0x32 0 inst src

/-- A bit of IR_NOTICE: setting one that is already set raises no new event (17/R499, R500). `k`: the source's kind. -/
def State.notice (s : State) (cr bit k : Nat) : State :=
  if tbit (s.creel cr).notice bit then s
  else (s.modCreel cr fun c => { c with notice := setFld c.notice bit bit 1 }).raiseFixed k cr

/-! ## Segment checks (09/R256-R259) -/

def segBase (g : Seg) : Nat := fld g.w0 51 12
def segLimit (g : Seg) : Nat := fld g.w1 51 12
def segV (g : Seg) : Bool := tbit g.w0 0
def segR (g : Seg) : Bool := tbit g.w0 1
def segW (g : Seg) : Bool := tbit g.w0 2
def segX (g : Seg) : Bool := tbit g.w0 3
def segDma (g : Seg) : Bool := tbit g.w0 4
/-- The valid entry of a creel's table that holds an address, with its number. -/
def State.segOf (s : State) (cr pa : Nat) : Option (Nat × Seg) :=
  (s.creel cr).segs.find? fun p => segV p.2 && decide (segBase p.2 ≤ pa / 4096) && decide (pa / 4096 ≤ segLimit p.2)
/-- The creel whose segment holds an address. -/
def State.segHolder (s : State) (pa : Nat) : Option Nat := (List.range 64).find? fun c => (s.segOf c pa).isSome
/-- A deferred error: the bank of the unit and the device log hold it, and the page of a creel: the one whose segment holds the
address (17/R507). -/
def State.deferredTo (s : State) (cr : Option Nat) (unit code pa inst detail : Nat) : State :=
  let s := s.modBank unit inst fun b => { b with deferred := b.deferred + 1, recs := b.recs ++
    [recOf (b.recs.length + 1) 1 unit code pa inst detail s.hoop.sec s.hoop.frac] }
  match cr with
  | some c => s.creelError c 1 unit code pa inst detail
  | none => s.logRec 1 unit code pa inst detail
def State.deferred (s : State) (unit code pa inst detail : Nat) : State := s.deferredTo (s.segHolder pa) unit code pa inst detail

/-! ## Guarantee breaches (09/R272) -/

/-- A breach of a creel: kind 3 durability, 2 ordering, 1 latency, 0 throughput. Setting the pending bit raises the
event; a further breach only counts. -/
def State.breach (s : State) (cr kind : Nat) : State :=
  let w := (s.creel cr).breach
  let w' := satInc w (27 + 12 * kind) (16 + 12 * kind)
  let s := s.modCreel cr fun c => { c with breach := setFld w' kind kind 1 }
  if tbit w kind then s else s.raiseFixed 1 cr

/-! ## Ranges of a grant (09/R254) -/

/-- A range without another, as half-open ranges. -/
def subRange (r d : Nat × Nat) : List (Nat × Nat) :=
  if d.2 ≤ r.1 ∨ r.2 ≤ d.1 then [r]
  else (if r.1 < d.1 then [(r.1, d.1)] else []) ++ (if d.2 < r.2 then [(d.2, r.2)] else [])
def subRanges (rs ds : List (Nat × Nat)) : List (Nat × Nat) := ds.foldl (fun rs d => rs.flatMap fun r => subRange r d) rs
/-- The ranges of a creel's grant, half-open. -/
def State.grantRanges (s : State) (cr : Nat) : List (Nat × Nat) := (s.creel cr).grants.map fun p => (p.2.1, p.2.2 + 1)
/-- Does the creel's grant hold the whole of a range? -/
def State.inGrant (s : State) (cr lo hi : Nat) : Bool := (subRanges [(lo, hi)] (s.grantRanges cr)).isEmpty

end Sys2Proof.Machine
end

