-- ==== Sys2Proof/Machine/Sha.lean ====
section
/-!
DEFINITION. The hash functions the device uses: SHA-256, SHA-384, SHA-512 (FIPS 180-4), SHA3-256, SHA3-384, SHA3-512
and SHAKE (FIPS 202), HMAC, and the counter-mode key derivation of SP 800-108 (11/R306; 12/R358).
-/
namespace Sys2Proof.Machine

/-! ## SHA-2: the constants are the fractional parts of roots of the first primes -/

def isPrime (n : Nat) : Bool := 2 ≤ n && (List.range n).all fun d => d < 2 || n % d != 0
def primesFrom : Nat → Nat → Nat → List Nat
  | 0, _, _ => []
  | _ + 1, 0, _ => []
  | f + 1, k + 1, n => if isPrime n then n :: primesFrom f k (n + 1) else primesFrom f (k + 1) (n + 1)
def shaPrimes : List Nat := primesFrom 500 80 2
/-- The largest r with r^e ≤ n, by bits from the top. -/
def rootBits (e n : Nat) : Nat → Nat → Nat
  | 0, r => r
  | k + 1, r => if (r + 2 ^ k) ^ e ≤ n then rootBits e n k (r + 2 ^ k) else rootBits e n k r
/-- The first w bits of the fractional part of the e-th root of p. -/
def rootFrac (e w p : Nat) : Nat := rootBits e (p * 2 ^ (e * w)) (w + 8) 0 % 2 ^ w
def sha256K : List W32 := (shaPrimes.take 64).map fun p => BitVec.ofNat 32 (rootFrac 3 32 p)
def sha512K : List W64 := shaPrimes.map fun p => BitVec.ofNat 64 (rootFrac 3 64 p)
def sha256H : List W32 := (shaPrimes.take 8).map fun p => BitVec.ofNat 32 (rootFrac 2 32 p)
def sha512H : List W64 := (shaPrimes.take 8).map fun p => BitVec.ofNat 64 (rootFrac 2 64 p)
/-- SHA-384 starts from the ninth to the sixteenth prime. -/
def sha384H : List W64 := ((shaPrimes.drop 8).take 8).map fun p => BitVec.ofNat 64 (rootFrac 2 64 p)

/-- A compression in either word width: rotations of the four sigma functions. -/
structure ShaRot where
  a : Nat × Nat × Nat
  e : Nat × Nat × Nat
  s0 : Nat × Nat × Nat
  s1 : Nat × Nat × Nat
def rot256 : ShaRot := { a := (2, 13, 22), e := (6, 11, 25), s0 := (7, 18, 3), s1 := (17, 19, 10) }
def rot512 : ShaRot := { a := (28, 34, 39), e := (14, 18, 41), s0 := (1, 8, 7), s1 := (19, 61, 6) }
variable {w : Nat}
def bigSig (r : Nat × Nat × Nat) (x : BitVec w) : BitVec w := x.rotateRight r.1 ^^^ x.rotateRight r.2.1 ^^^ x.rotateRight r.2.2
def smallSig (r : Nat × Nat × Nat) (x : BitVec w) : BitVec w := x.rotateRight r.1 ^^^ x.rotateRight r.2.1 ^^^ (x >>> r.2.2)
/-- The message schedule, newest word first. -/
def shaSchedule (r : ShaRot) : Nat → List (BitVec w) → List (BitVec w)
  | 0, l => l
  | n + 1, l => shaSchedule r n ((smallSig r.s1 (l.getD 1 0) + l.getD 6 0 + smallSig r.s0 (l.getD 14 0) + l.getD 15 0) :: l)
def shaRound (r : ShaRot) (h : List (BitVec w)) (kw : BitVec w × BitVec w) : List (BitVec w) :=
  match h with
  | [a, b, c, d, e, f, g, hh] =>
    let t1 := hh + bigSig r.e e + ((e &&& f) ^^^ (~~~e &&& g)) + kw.1 + kw.2
    let t2 := bigSig r.a a + ((a &&& b) ^^^ (a &&& c) ^^^ (b &&& c))
    [t1 + t2, a, b, c, d + t1, e, f, g]
  | _ => h
def shaBlock (r : ShaRot) (k : List (BitVec w)) (h : List (BitVec w)) (block : Bytes) : List (BitVec w) :=
  let m := (chunks (w / 8) block).map fun b => BitVec.ofNat w (beNat b)
  let sched := (shaSchedule r (k.length - 16) m.reverse).reverse
  h.zipWith (· + ·) ((k.zip sched).foldl (shaRound r) h)
/-- The padded message: a one bit, zeros and the bit length. -/
def shaPad (block lenBytes : Nat) (m : Bytes) : Bytes :=
  let z := (2 * block - 1 - lenBytes - m.length % block) % block
  m ++ [0x80] ++ List.replicate z 0 ++ toBe lenBytes (8 * m.length)
def sha2 (r : ShaRot) (k h : List (BitVec w)) (out : Nat) (m : Bytes) : Bytes :=
  (((chunks (2 * w) (shaPad (2 * w) (w / 4) m)).foldl (shaBlock r k) h).flatMap fun x => toBe (w / 8) x.toNat).take out
def sha256 (m : Bytes) : Bytes := sha2 rot256 sha256K sha256H 32 m
def sha384 (m : Bytes) : Bytes := sha2 rot512 sha512K sha384H 48 m
def sha512 (m : Bytes) : Bytes := sha2 rot512 sha512K sha512H 64 m

/-! ## Keccak -/

/-- One step of the round-constant register of FIPS 202. -/
def keccakLfsr (r : Nat) : Nat := let s := 2 * r; if 256 ≤ s then (s ^^^ 0x171) % 256 else s
def keccakRcBit (t : Nat) : Bool := (Nat.repeat keccakLfsr (t % 255) 1) % 2 == 1
def keccakRc (i : Nat) : W64 :=
  (List.range 7).foldl (fun a j => if keccakRcBit (j + 7 * i) then a ||| BitVec.ofNat 64 (2 ^ (2 ^ j - 1)) else a) 0
/-- Rotation offsets: lane (x, y) at 5y + x, from the walk of FIPS 202, 3.2.2. -/
def keccakRhoFrom : Nat → Nat → Nat → Nat → List (Nat × Nat)
  | 0, _, _, _ => []
  | f + 1, t, x, y => (5 * y + x, (t + 1) * (t + 2) / 2 % 64) :: keccakRhoFrom f (t + 1) y ((2 * x + 3 * y) % 5)
def keccakRho : List (Nat × Nat) := keccakRhoFrom 24 0 1 0
def keccakRot (i : Nat) : Nat := ((keccakRho.find? fun p => p.1 = i).map (·.2)).getD 0
def keccakRotTable : List Nat := (List.range 25).map keccakRot
def keccakRcTable : List W64 := (List.range 24).map keccakRc
def keccakRound (a : List W64) (rc : W64) : List W64 :=
  let c := (List.range 5).map fun x => (List.range 5).foldl (fun t y => t ^^^ a.getD (5 * y + x) 0) (0 : W64)
  let d := (List.range 5).map fun x => c.getD ((x + 4) % 5) 0 ^^^ (c.getD ((x + 1) % 5) 0).rotateLeft 1
  let b := (List.range 25).map fun i => (a.getD i 0 ^^^ d.getD (i % 5) 0).rotateLeft (keccakRotTable.getD i 0)
  -- pi: the lane at (x, y) comes from (x + 3y, x)
  let p := (List.range 25).map fun i => b.getD (5 * (i % 5) + (i % 5 + 3 * (i / 5)) % 5) 0
  let e := (List.range 25).map fun i =>
    p.getD i 0 ^^^ (~~~(p.getD (i / 5 * 5 + (i + 1) % 5) 0) &&& p.getD (i / 5 * 5 + (i % 5 + 2) % 5) 0)
  match e with
  | x :: r => (x ^^^ rc) :: r
  | [] => []
def keccakF (a : List W64) : List W64 := keccakRcTable.foldl keccakRound a
def keccakAbsorb (rate : Nat) (a : List W64) (block : Bytes) : List W64 :=
  let m := (chunks 8 (block.take rate)).map fun b => BitVec.ofNat 64 (leNat b)
  keccakF ((List.range 25).map fun i => a.getD i 0 ^^^ m.getD i 0)
def keccakSqueeze (rate : Nat) : Nat → List W64 → Bytes
  | 0, _ => []
  | k + 1, a => (a.flatMap fun x => toLe 8 x.toNat).take rate ++ (if k = 0 then [] else keccakSqueeze rate k (keccakF a))
def keccak (rate : Nat) (suffix : Byte) (out : Nat) (m : Bytes) : Bytes :=
  let z := rate - 1 - m.length % rate
  let p := if z = 0 then m ++ [suffix ||| 0x80] else m ++ [suffix] ++ List.replicate (z - 1) 0 ++ [0x80]
  (keccakSqueeze rate (out / rate + 1) ((chunks rate p).foldl (keccakAbsorb rate) (List.replicate 25 0))).take out
def sha3 (out : Nat) (m : Bytes) : Bytes := keccak (200 - 2 * out) 0x06 out m
def shake256 (out : Nat) (m : Bytes) : Bytes := keccak 136 0x1F out m

/-! ## The hash codes of 12/R358, HMAC and key derivation -/

def hashLen : Nat → Option Nat
  | 1 => some 32 | 2 => some 48 | 3 => some 64 | 4 => some 32 | 5 => some 48 | 6 => some 64 | _ => none
def hashOf (code : Nat) (m : Bytes) : Bytes :=
  match code with
  | 1 => sha256 m | 2 => sha384 m | 3 => sha512 m | 4 => sha3 32 m | 5 => sha3 48 m | _ => sha3 64 m
def hashBlock : Nat → Nat
  | 1 => 64 | 2 => 128 | 3 => 128 | 4 => 136 | 5 => 104 | _ => 72
def hmac (code : Nat) (key m : Bytes) : Bytes :=
  let b := hashBlock code
  let k := if b < key.length then hashOf code key else key
  let k := k ++ List.replicate (b - k.length) 0
  hashOf code (k.map (· ^^^ 0x5c) ++ hashOf code (k.map (· ^^^ 0x36) ++ m))
/-- SP 800-108r1 in counter mode with HMAC-SHA-384 (11/R306): [i] ‖ label ‖ 0x00 ‖ context ‖ [L], both counters of four
bytes (log entry 12). -/
def kdf (key label ctx : Bytes) (len : Nat) : Bytes :=
  ((List.range ((len + 47) / 48)).flatMap fun i => hmac 2 key (toBe 4 (i + 1) ++ label ++ [0] ++ ctx ++ toBe 4 (8 * len))).take len
/-- The bytes of an ASCII label. -/
def ascii (s : String) : Bytes := s.toList.map fun c => BitVec.ofNat 8 c.toNat

end Sys2Proof.Machine
end

