-- ==== Sys2Proof/Machine/Ciphers.lean ====
section
/-!
DEFINITION. Block ciphers and their modes (12/R356, R357): DES and two-key TDEA, ECB, CBC, CTR, CMAC, GCM and XTS with
ciphertext stealing.
-/
namespace Sys2Proof.Machine

/-! ## DES (FIPS 46-3 as ISO/IEC 18033-3 keeps it) -/

def desIp : List Nat :=
  [58, 50, 42, 34, 26, 18, 10, 2, 60, 52, 44, 36, 28, 20, 12, 4, 62, 54, 46, 38, 30, 22, 14, 6, 64, 56, 48, 40, 32, 24, 16, 8] ++
  [57, 49, 41, 33, 25, 17, 9, 1, 59, 51, 43, 35, 27, 19, 11, 3, 61, 53, 45, 37, 29, 21, 13, 5, 63, 55, 47, 39, 31, 23, 15, 7]
def desE : List Nat :=
  [32, 1, 2, 3, 4, 5, 4, 5, 6, 7, 8, 9, 8, 9, 10, 11, 12, 13, 12, 13, 14, 15, 16, 17] ++
  [16, 17, 18, 19, 20, 21, 20, 21, 22, 23, 24, 25, 24, 25, 26, 27, 28, 29, 28, 29, 30, 31, 32, 1]
def desP : List Nat :=
  [16, 7, 20, 21, 29, 12, 28, 17, 1, 15, 23, 26, 5, 18, 31, 10] ++
  [2, 8, 24, 14, 32, 27, 3, 9, 19, 13, 30, 6, 22, 11, 4, 25]
def desPc1 : List Nat :=
  [57, 49, 41, 33, 25, 17, 9, 1, 58, 50, 42, 34, 26, 18, 10, 2, 59, 51, 43, 35, 27, 19, 11, 3, 60, 52, 44, 36] ++
  [63, 55, 47, 39, 31, 23, 15, 7, 62, 54, 46, 38, 30, 22, 14, 6, 61, 53, 45, 37, 29, 21, 13, 5, 28, 20, 12, 4]
def desPc2 : List Nat :=
  [14, 17, 11, 24, 1, 5, 3, 28, 15, 6, 21, 10, 23, 19, 12, 4, 26, 8, 16, 7, 27, 20, 13, 2] ++
  [41, 52, 31, 37, 47, 55, 30, 40, 51, 45, 33, 48, 44, 49, 39, 56, 34, 53, 46, 42, 50, 36, 29, 32]
/-- The eight S-boxes, row by row, one hexadecimal digit an entry. -/
def desS : List Nat :=
  [0xe4d12fb83a6c59070f74e2d1a6cb953841e8d62bfc973a50fc8249175b3ea06d,
   0xf18e6b34972dc05a3d47f28ec01a69b50e7ba4d158c6932fd8a13f42b67c05e9,
   0xa09e63f51dc7b428d709346a285ecbf1d6498f30b12c5ae71ad069874fe3b52c,
   0x7de3069a1285bc4fd8b56f03472c1ae9a690cb7df13e52843f06a1d8945bc72e,
   0x2c417ab6853fd0e9eb2c47d150fa3986421bad78f9c5630eb8c71e2d6f09a453,
   0xc1af92680d34e75baf427c9561de0b389ef528c3704a1db6432c95fabe17608d,
   0x4b2ef08d3c975a61d0b7491ae35c2f8614bdc37eaf6805926bd814a7950fe23c,
   0xd2846fb1a93e50c71fd8a374c56b0e927b419ce206adf35821e74a8dfc90356b]
def desShift : List Nat := [1, 1, 2, 2, 2, 2, 2, 2, 1, 2, 2, 2, 2, 2, 2, 1]
/-- Bits of a string, most significant first. -/
def toBits (b : Bytes) : List Bool := b.flatMap fun x => (List.range 8).map fun i => x.getLsbD (7 - i)
def ofBits (b : List Bool) : Nat := b.foldl (fun a x => 2 * a + b2n x) 0
def permBits (t : List Nat) (b : List Bool) : List Bool := t.map fun i => b.getD (i - 1) false
def natBits (n v : Nat) : List Bool := (List.range n).map fun i => v.testBit (n - 1 - i)
def rotBits (n : Nat) (b : List Bool) : List Bool := b.drop n ++ b.take n
def desKeysFrom : List Nat → List Bool → List Bool → List (List Bool)
  | [], _, _ => []
  | n :: r, c, d => permBits desPc2 (rotBits n c ++ rotBits n d) :: desKeysFrom r (rotBits n c) (rotBits n d)
def desKeys (key : Bytes) : List (List Bool) :=
  let k := permBits desPc1 (toBits key)
  desKeysFrom desShift (k.take 28) (k.drop 28)
def desBox (i : Nat) (six : List Bool) : List Bool :=
  let row := ofBits [six.getD 0 false, six.getD 5 false]
  let col := ofBits ((six.drop 1).take 4)
  natBits 4 (desS.getD i 0 / 16 ^ (63 - (16 * row + col)) % 16)
def desF (r k : List Bool) : List Bool :=
  let x := (permBits desE r).zipWith (fun a b => a ^^ b) k
  permBits desP ((List.range 8).flatMap fun i => desBox i ((x.drop (6 * i)).take 6))
def desRun (ks : List (List Bool)) (b : Bytes) : Bytes :=
  let x := permBits desIp (toBits b)
  let (l, r) := ks.foldl (fun (p : List Bool × List Bool) k => (p.2, p.1.zipWith (fun a b => a ^^ b) (desF p.2 k))) (x.take 32, x.drop 32)
  let y := r ++ l
  -- the final permutation is the inverse of the initial one
  toBe 8 (ofBits ((List.range 64).map fun i => y.getD (desIp.findIdx fun j => j = i + 1) false))
def desEnc (key b : Bytes) : Bytes := desRun (desKeys key) b
def desDec (key b : Bytes) : Bytes := desRun (desKeys key).reverse b
/-- Two-key TDEA: 16 bytes of key. -/
def tdeaEnc (key b : Bytes) : Bytes := desEnc (key.take 8) (desDec (key.drop 8) (desEnc (key.take 8) b))
def tdeaDec (key b : Bytes) : Bytes := desDec (key.take 8) (desEnc (key.drop 8) (desDec (key.take 8) b))

/-! ## Modes -/

/-- A block cipher under a key: its block length and both directions. -/
structure Cipher where
  blk : Nat
  enc : Bytes → Bytes
  dec : Bytes → Bytes
def aesCipher (key : Bytes) : Cipher := let ks := aesKeys key; { blk := 16, enc := aesEncWith ks, dec := aesDecWith ks }
def tdeaCipher (key : Bytes) : Cipher := { blk := 8, enc := tdeaEnc key, dec := tdeaDec key }
def ecb (f : Bytes → Bytes) (blk : Nat) (m : Bytes) : Bytes := (chunks blk m).flatMap f
def cbcEncFrom (c : Cipher) (iv : Bytes) : List Bytes → Bytes
  | [] => []
  | b :: r => let x := c.enc (xorBytes b iv); x ++ cbcEncFrom c x r
def cbcDecFrom (c : Cipher) (iv : Bytes) : List Bytes → Bytes
  | [] => []
  | b :: r => xorBytes (c.dec b) iv ++ cbcDecFrom c b r
def cbcEnc (c : Cipher) (iv m : Bytes) : Bytes := cbcEncFrom c iv (chunks c.blk m)
def cbcDec (c : Cipher) (iv m : Bytes) : Bytes := cbcDecFrom c iv (chunks c.blk m)
/-- The counter block i blocks on: its last four bytes count modulo 2^32 (12/R356). -/
def ctrBlock (b : Bytes) (i : Nat) : Bytes := b.take 12 ++ toBe 4 (beNat (b.drop 12) + i)
def ctrFrom (c : Cipher) (b : Bytes) : Nat → List Bytes → Bytes
  | _, [] => []
  | i, m :: r => xorBytes m (c.enc (ctrBlock b i)) ++ ctrFrom c b (i + 1) r
def ctrMode (c : Cipher) (b m : Bytes) : Bytes := ctrFrom c b 0 (chunks 16 m)
/-- Doubling in the field of a block, most significant bit first (SP 800-38B). -/
def dblBe (b : Bytes) : Bytes :=
  let n := b.length
  let v := 2 * beNat b
  toBe n (if 2 ^ (8 * n) ≤ v then (v % 2 ^ (8 * n)) ^^^ (if n = 16 then 0x87 else 0x1b) else v)
def cmac (c : Cipher) (m : Bytes) : Bytes :=
  let k1 := dblBe (c.enc (List.replicate c.blk 0))
  let bs := chunks c.blk m
  let full := bs.dropLast
  let last := bs.getLast?.getD []
  let last := if last.length = c.blk then xorBytes last k1
    else xorBytes (last ++ [0x80] ++ List.replicate (c.blk - 1 - last.length) 0) (dblBe k1)
  (full ++ [last]).foldl (fun t b => c.enc (xorBytes t b)) (List.replicate c.blk 0)
/-- Multiplication in the GCM field: bit 0 is the most significant bit of the first byte. -/
def gcmMulFrom : Nat → Nat → Nat → Nat → Nat
  | 0, _, _, z => z
  | k + 1, x, v, z =>
    gcmMulFrom k x (if v % 2 = 1 then (v / 2) ^^^ (0xe1 * 2 ^ 120) else v / 2) (if x.testBit k then z ^^^ v else z)
def gcmMul (x y : Nat) : Nat := gcmMulFrom 128 x y 0
def padTo (n : Nat) (b : Bytes) : Bytes := b ++ List.replicate ((n - b.length % n) % n) 0
def ghash (h : Bytes) (m : Bytes) : Bytes :=
  toBe 16 ((chunks 16 m).foldl (fun y b => gcmMul (y ^^^ beNat b) (beNat h)) 0)
def gcmTag (c : Cipher) (iv aad ct : Bytes) (n : Nat) : Bytes :=
  let h := c.enc (List.replicate 16 0)
  let s := ghash h (padTo 16 aad ++ padTo 16 ct ++ toBe 8 (8 * aad.length) ++ toBe 8 (8 * ct.length))
  (xorBytes s (c.enc (iv ++ [0, 0, 0, 1]))).take n
def gcmCrypt (c : Cipher) (iv m : Bytes) : Bytes := ctrMode c (iv ++ [0, 0, 0, 2]) m
/-- Doubling of an XTS tweak, least significant byte first. -/
def dblLe (b : Bytes) : Bytes :=
  let v := 2 * leNat b
  toLe 16 (if 2 ^ 128 ≤ v then (v % 2 ^ 128) ^^^ 0x87 else v)
def xtsOne (f : Bytes → Bytes) (t b : Bytes) : Bytes := xorBytes (f (xorBytes b t)) t
def xtsFull (f : Bytes → Bytes) : Bytes → List Bytes → Bytes
  | _, [] => []
  | t, b :: r => xtsOne f t b ++ xtsFull f (dblLe t) r
def dblLeN (t : Bytes) : Nat → Bytes
  | 0 => t
  | n + 1 => dblLeN (dblLe t) n
/-- XTS over 16 bytes or more; a last partial block steals from the one before it (IEEE 1619). -/
def xts (k1 k2 : Cipher) (enc : Bool) (tweak m : Bytes) : Bytes :=
  let f := if enc then k1.enc else k1.dec
  let t := k2.enc tweak
  let n := m.length / 16
  let r := m.length % 16
  if r = 0 then xtsFull f t (chunks 16 m)
  else
    let head := xtsFull f t (chunks 16 (m.take (16 * (n - 1))))
    let b := (m.drop (16 * (n - 1))).take 16
    let p := m.drop (16 * n)
    let t1 := dblLeN t (n - 1)
    let t2 := dblLe t1
    let (u, v) := if enc then (t1, t2) else (t2, t1)
    let x := xtsOne f u b
    head ++ xtsOne f v (p ++ x.drop r) ++ x.take r

end Sys2Proof.Machine
end

