-- ==== Sys2Proof/Machine/Local.lean ====
section
/-!
DEFINITION. The plaiter units, their jobs and the local space of their sequencers (13/R376, R392, R403, R404, R406).
-/
namespace Sys2Proof.Machine

def State.unit (s : State) (u : Nat) : PUnit := s.units.get unitReset u
def State.setUnit (s : State) (u : Nat) (x : PUnit) : State := { s with units := s.units.set u x }
def State.modUnit (s : State) (u : Nat) (f : PUnit → PUnit) : State := s.setUnit u (f (s.unit u))
def jobReset : Job :=
  { queue := 0, index := 0, words := [], sec := 0, frac := 0, st := 0, phase := .taken, msg := [], flds := [],
    text := [], off := 0, toks := [], tokAt := 0, perr := none, segNo := 0, mask := [], seals := [], sealMap := [], canon := none,
    calls := 0, ops := [], since := 0, beats0 := 0, instrs := 0, sealed := false, ending := none }
def State.hasJob (s : State) (u k : Nat) : Bool := (s.unit u).jobs.has k
def State.job (s : State) (u k : Nat) : Job := (s.unit u).jobs.get jobReset k
def State.setJob (s : State) (u k : Nat) (j : Job) : State := s.modUnit u fun x => { x with jobs := x.jobs.set k j }
def State.modJob (s : State) (u k : Nat) (f : Job → Job) : State := s.setJob u k (f (s.job u k))
/-- Sequencers 14 to 85 are the Plaiter's, four to a unit. -/
def unitOf (i : Nat) : Nat := (i - 14) / 4
def seqLane (i : Nat) : Nat := (i - 14) % 4
def isPlaiter (i : Nat) : Bool := 14 ≤ i && i < 86
def plaiterSeq (u k : Nat) : Nat := 14 + 4 * u + k
/-- The creel a sequencer works for: that of its plaiter unit (13/R376). -/
def State.seqCreel (s : State) (i : Nat) : Option Nat :=
  if isPlaiter i ∧ s.unitCreel.has (unitOf i) then some (s.unitCreel.get 0 (unitOf i)) else none

/-! ## The local space (13/R403, R404) -/

/-- The regions an operand may lie in: data, field table, job block, message window. -/
inductive LocalRegion where
  | data | table | block | window
  deriving DecidableEq, Repr
/-- The region that holds the whole of a range, and the offset in it. -/
def localRegion (a n : Nat) : Option (LocalRegion × Nat) :=
  if a + n ≤ 0x10000 then some (.data, a)
  else if 0x10000 ≤ a ∧ a + n ≤ 0x18000 then some (.table, a - 0x10000)
  else if 0x18000 ≤ a ∧ a + n ≤ 0x18100 then some (.block, a - 0x18000)
  else if 0x20000 ≤ a ∧ a + n ≤ 0x30000 then some (.window, a - 0x20000)
  else none
/-- Entries of the field table in use. -/
def Job.entries (j : Job) : Nat := (j.flds.filter fun f => tbit f.w0 39).length
/-- The job block (R406). -/
def Job.blockWord (j : Job) (i : Nat) : W64 :=
  if i < 8 then j.words.getD i 0
  else if i < 12 then j.mask.getD (i - 8) 0
  else if i = 12 then
    w64 (j.entries + j.segNo % 65536 * 2 ^ 32 + b2n (decide (j.toks.length ≤ j.tokAt + j.flds.length) && j.perr.isNone) * 2 ^ 48)
  else if i = 13 then w64 j.off
  else if i = 14 then w64 j.sec
  else if i = 15 then w64 (j.st * 2 ^ 32 + j.frac)
  else if i = 16 then w64 j.seals.length
  else 0
def byteOf (w : W64) (i : Nat) : Byte := BitVec.ofNat 8 (w.toNat >>> (8 * i))
/-- One byte of a region as the sequencer reads it. -/
def State.localByte (s : State) (u k : Nat) (r : LocalRegion) (o : Nat) : Byte :=
  match r with
  | .data => FMap.get 0 ((s.unit u).data.get [] k) o
  | .table =>
    let f : Fld := (s.job u k).flds.getD (o / 16) { w0 := 0, w1 := 0 }
    byteOf (if o % 16 < 8 then f.w0 else f.w1) (o % 8)
  | .block => byteOf ((s.job u k).blockWord (o / 8)) (o % 8)
  | .window => (s.job u k).text.getD o 0
def State.localBytes (s : State) (u k : Nat) (r : LocalRegion) (o n : Nat) : Bytes :=
  match r with
  | .window => ((s.job u k).text.drop o).take n ++ List.replicate (n - ((s.job u k).text.length - o)) 0
  | _ => (upto o n).map (s.localByte u k r)
/-- Bytes written to local data. -/
def dataWrite (m : FMap Byte) : Nat → Bytes → FMap Byte
  | _, [] => m
  | a, b :: r => dataWrite (m.set a b) (a + 1) r
def State.localWrite (s : State) (u k a : Nat) (b : Bytes) : State :=
  s.modUnit u fun x => { x with data := x.data.set k (dataWrite (x.data.get [] k) a b) }

/-! ## Operands of vault calls and of EMIT (R404) -/

/-- A local address in an operand. -/
def localBase : Nat := 0x8000000000000000
/-- A local range that an operation reads, or one that it writes: only local data can be written. -/
def localReadable (a n : Nat) : Bool := (localRegion a n).isSome
def localWritable (a n : Nat) : Bool := decide (a + n ≤ 0x10000)
def State.localRead (s : State) (u k a n : Nat) : Bytes :=
  match localRegion a n with
  | some (r, o) => s.localBytes u k r o n
  | none => []

end Sys2Proof.Machine
end

