-- ==== Sys2Proof/Machine/Lines.lean ====
section
/-!
DEFINITION. Where a line lives: its home slice and sets (07/R201-R203), its channel and rank (08/R231), and what a read of it at
the home meets (07/R218, 08/R251).
-/
namespace Sys2Proof.Machine

def lineF (line hi lo : Nat) : Nat := line / 2 ^ lo % 2 ^ (hi + 1 - lo)
/-- The home slice of a line (07/R202). -/
def homeOf (line : Nat) : Nat := ((lineF line 15 0) ^^^ (lineF line 31 16) ^^^ (lineF line 45 32)) % 224
def setL3 (line : Nat) : Nat :=
  lineF line 10 0 ^^^ lineF line 21 11 ^^^ lineF line 32 22 ^^^ lineF line 43 33
/-- The L2 set of a line; address bits [16:6] are line bits [10:0] (07/R201). -/
def setL2 (line : Nat) : Nat :=
  lineF line 10 0 ^^^ lineF line 21 11 ^^^ lineF line 32 22 ^^^ lineF line 43 33
def setL1 (line : Nat) : Nat := line % 128
/-- The set of a sequencer cache: address[11:6] XOR address[17:12] (04/R140). -/
def setSeqCache (line : Nat) : Nat := lineF line 5 0 ^^^ lineF line 11 6
def baseDie (t : Nat) : Nat := t / 56
/-- The channel and the subchannel of a line of local DRAM; address bits [11:8] are line bits [5:2] (08/R231). -/
def channelOf (line : Nat) : Nat :=
  lineF line 5 2 ^^^ lineF line 9 6 ^^^ lineF line 13 10 ^^^ lineF line 17 14 ^^^ lineF line 21 18
def subchannelOf (line : Nat) : Nat := line % 2

def wayBit (m w : Nat) : Bool := m / 2 ^ w % 2 == 1
/-- The rank that serves a line in its channel: the decoded one of the ranks that addresses map to; the reserve rank serves the
addresses of the rank that it replaces (08/R231, R237, R238). A channel that has not trained has no ranks yet. -/
def Chan.rankOf (c : Chan) (line : Nat) : Nat :=
  let r := Config.rankOf line % (if c.ranks = 0 then 8 else c.ranks)
  if c.outOfService = some r then c.reserveRank else r

def State.sliceHas (s : State) (line : Nat) : Bool :=
  ((s.slice (homeOf line)).sets.get [] (setL3 line)).any fun c => c.line = line
def State.dirOf (s : State) (line : Nat) : Option DirEntry :=
  (s.slice (homeOf line)).dir.find? fun d => d.line = line
/-- A private cache owns the line, and supplies its data (07/R215, R216). -/
def State.ownedLine (s : State) (line : Nat) : Bool := match s.dirOf line with | some d => d.owner.isSome | none => false
/-- A line of a fenced rank is in its memory channel (08/R251). -/
def State.fencedLine (s : State) (line : Nat) : Bool :=
  let ch := s.chan (channelOf line)
  ch.fenced != 0 && line * 64 < 0x80000000000 && wayBit ch.fenced (ch.rankOf line)
/-- A write to a line of a fenced rank is discarded and counted in the channel's error bank, and the writing creel receives an
uncorrected-contained error (08/R251; 17/R511). -/
def State.fencedWrite (s : State) (cr : Option Nat) (line : Nat) : State :=
  let ch := channelOf line
  let s := s.setChan ch { s.chan ch with discarded := (s.chan ch).discarded + 1 }
  match cr with
  | some c => s.creelError c 2 3 0x22 (64 * line) ch (Config.position line).toNat
  | none => s.logRec 2 3 0x22 (64 * line) ch (Config.position line).toNat
/-- A read of a line of a fenced rank that no owner and no slice serves: the channel answers with poison (08/R251). -/
def State.fencedRead (s : State) (line : Nat) : Bool := s.fencedLine line && !s.sliceHas line && !s.ownedLine line

end Sys2Proof.Machine
end

