-- ==== Sys2Proof/Machine/Outbound.lean ====
section
/-!
DEFINITION. The functions of the host-attach endpoints as units reach them, and posted writes to a device or to a host
(16/R481-R484), and requests to a lane group (16/R475, 05/R160).
-/
namespace Sys2Proof.Machine

/-- Function fn of endpoint ep: 0 is the PF, v from 1 to 64 the VF of creel v − 1. -/
def hfKey (ep fn : Nat) : Nat := 65 * ep + fn
def State.hf (s : State) (ep fn : Nat) : HostFn := s.hostFns.get hfReset (hfKey ep fn)
def State.setHf (s : State) (ep fn : Nat) (x : HostFn) : State := { s with hostFns := s.hostFns.set (hfKey ep fn) x }
def State.modHf (s : State) (ep fn : Nat) (f : HostFn → HostFn) : State := s.setHf ep fn (f (s.hf ep fn))
def State.hostMode (s : State) (n : Nat) : Bool := fld (s.lg n).cfg 2 0 = 2
/-- The endpoint on which a creel has a function (R467, R481). -/
def State.endpointOf (s : State) (cr : Nat) : Option Nat := [0, 1].find? fun e => s.hostMode (8 + e) && tbit (s.lg (8 + e)).hamask cr

/-- The outbound area of a VF: endpoint, VF and host address of a physical address (R484). -/
def State.outbound (s : State) (pa : Nat) : Option (Nat × Nat × Nat) :=
  match s.region pa with
  | .window lg off =>
    if s.hostMode lg ∧ 0x200000000 ≤ off then
      let o := off - 0x200000000
      let v := o / 0x80000000 + 1
      some (lg - 8, v, (fld (s.hf (lg - 8) v).outb 63 12 * 4096 + o % 0x80000000) % 2 ^ 64)
    else none
  | _ => none
/-- Posted bytes to a window: to the root port, or to the host under the VF's requester ID; with Bus Master Enable 0 they are
discarded, and the creel is told. -/
def State.postStore (s : State) (cr : Option Nat) (bytes : FMap Byte) : State :=
  let pairs := fun (f : Nat → Nat) => bytes.flatMap fun (p : Nat × Byte) => [f p.1, p.2.toNat]
  match bytes with
  | [] => s
  | (a, _) :: _ =>
    match s.outbound a with
    | none => s.emit 1 (pairs id)
    | some (ep, v, h) =>
      if (s.hf ep v).bme then s.emit 15 (ep :: v :: pairs fun x => h + (x - a))
      else match cr with | some c => s.creelError c 2 4 0x5 a (8 + ep) 0 | none => s

/-! ## Requests to a lane group (16/R475) -/

def State.capOf (s : State) (lg port : Nat) : Nat :=
  if s.hostMode lg then fld (s.hf (lg - 8) port).ctl 9 0 else fld (s.lg lg).tags (10 * port + 9) (10 * port)
/-- Bus Master Enable of the VF whose outbound area an address is in, if it is in one (16/R484). -/
def State.outboundOff (s : State) (pa : Nat) : Bool := match s.outbound pa with | some (ep, v, _) => !(s.hf ep v).bme | none => false
/-- A non-posted request leaves: kind 2, or 16 from a VF: where it goes, the tag, the address, the length. -/
def State.sendRequest (s : State) (lg tag pa size : Nat) : State :=
  match s.outbound pa with
  | some (_, v, h) => s.emit 16 [lg, v, tag, h, size]
  | none => s.emit 2 [lg, tag, pa, size]
/-- The root port that serves a window offset; with several ports the bridge windows decide, whose registers are those
of PCIe and not laid out by the spec (16/R469; log entry 10). On an endpoint, the VF. -/
def State.portOf (s : State) (lg off : Nat) : Nat :=
  if s.hostMode lg then (off - 0x200000000) / 0x80000000 + 1
  else if fld (s.lg lg).cfg 6 4 = 0 then 0 else Config.portOf lg off % 4
/-- A tag within both limits, if one is free. -/
def State.freeTag (s : State) (lg port : Nat) : Option Nat :=
  let g := s.lg lg
  if 768 ≤ g.reqs.length + g.quarantine.length then none
  else if s.capOf lg port ≤ (g.reqs.filter fun r => r.port = port).length then none
  else (List.range 1024).find? fun t => !(g.reqs.any fun r => r.tag = t) && !g.quarantine.any fun q => q.1 = t
/-- The completion timeout by its encoding, in units of 2^-32 s (16/R476). -/
def ctoUs : Nat → Nat | 1 => 100 | 5 => 50000 | 6 => 200000 | 9 => 900000 | 10 => 3500000 | 13 => 13000000 | 14 => 64000000 | _ => 10000
def State.cto (s : State) (lg : Nat) : Nat := ctoUs (s.lg lg).cto * 2 ^ 32 / 1000000
def State.addReq (s : State) (lg : Nat) (r : LgReq) : State := s.modLg lg fun g => { g with reqs := g.reqs ++ [r] }
/-- Non-posted requests for the parts of one load leave, each with a tag, if there are tags for all: `what` and `core` as in LgReq. -/
def State.askDev (s : State) (lg port what core creel : Nat) : List (Nat × Nat) → Option (State × List Nat)
  | [] => some (s, [])
  | (pa, size) :: r =>
    match s.freeTag lg port with
    | none => none
    | some t =>
      let q : LgReq := { tag := t, port := port, what := what, core := core, creel := creel, pa := pa, due := s.clock + s.cto lg, abandoned := false }
      (((s.addReq lg q).sendRequest lg t pa size).askDev lg port what core creel r).map fun x => (x.1, t :: x.2)
/-- Stores to a strict window leave, each a posted write and the zero-length read that acknowledges it (05/R160). -/
def State.strictSend (s : State) (lg port what core creel window : Nat) : List (Nat × Bytes) → Option (State × List StrictStore)
  | [] => some (s, [])
  | (pa, b) :: r =>
    match s.freeTag lg port with
    | none => none
    | some t =>
      let q : LgReq := { tag := t, port := port, what := what, core := core, creel := creel, pa := pa, due := s.clock + s.cto lg, abandoned := false }
      let bytes : FMap Byte := b.zipIdx.map fun x => (pa + x.2, x.1)
      ((((s.addReq lg q).postStore (if creel < 64 then some creel else none) bytes).sendRequest lg t pa 0).strictSend
        lg port what core creel window r).map fun x => (x.1, { tag := t, lg := lg, window := window, pa := pa } :: x.2)
/-- An LDP or STP to a device is two accesses of 8 bytes (03/R77, 05/R166). -/
def devParts (pa size : Nat) : List (Nat × Nat) := if size = 16 then [(pa, 8), (pa + 8, 8)] else [(pa, size)]
def cutParts (pa : Nat) (b : Bytes) : List (Nat × Bytes) := if b.length = 16 then [(pa, b.take 8), (pa + 8, b.drop 8)] else [(pa, b)]

end Sys2Proof.Machine
end

