-- ==== Sys2Proof/Machine/Translate.lean ====
section
/-!
DEFINITION. Address translation, protection keys and segment checks of a core (06, 09/R256-R259).
-/
namespace Sys2Proof.Machine

def sysStatus : Nat := 0
def Core.sysr (c : Core) (n : Nat) : W64 := c.sys.get 0 n
def Core.setSys (c : Core) (n : Nat) (v : W64) : Core := { c with sys := c.sys.set n v }
/-- SYS_STATUS.priv: true is S (03/R98). -/
def Core.priv (c : Core) : Bool := tbit (c.sysr 0) 0
def Core.ie (c : Core) : Bool := tbit (c.sysr 0) 1
def Core.xlateOn (c : Core) : Bool := tbit (c.sysr 0) 4

/-! ## The segment check -/

/-- The pages of hub space that the hub entry of a creel's table lets pass (09/R258). -/
def State.hubPageOk (s : State) (cr pa : Nat) (write : Bool) : Bool :=
  let pg := pa / 4096
  (pg == 0xFF00010000 + cr) ||
  (0xFF00100000 ≤ pg && pg < 0xFF00100400 && s.ringHolder.has (pg - 0xFF00100000) &&
    s.ringHolder.get 0 (pg - 0xFF00100000) == cr) ||
  (0xFF00200000 ≤ pg && pg < 0xFF00200100 && s.pqHolder.has (pg - 0xFF00200000) &&
    s.pqHolder.get 0 (pg - 0xFF00200000) == cr) ||
  (pg == 0xFF00001000 + cr) || (pg == 0xFF00300000 + cr) || (pg == 0xFF00400000 + cr) ||
  (pg == 0xFF00000000 && !write)

/-- The rights a segment entry can grant (09/R259). -/
structure Right where
  r : Bool
  w : Bool
  x : Bool
  dma : Bool
  deriving DecidableEq, Repr

/-- A mirrored granule on a device where the creel is STANDBY or RECEIVING takes no store of the creel (15/R446). -/
def State.standbyLine (s : State) (cr pa : Nat) : Bool :=
  let r := s.pair.roles.get 0 cr
  (r == 2 || r == 5) && (s.pair.marks.get [] cr).contains (pa / 2097152)
/-- The creel segment check of one access (09/R259). -/
def State.segOk (s : State) (cr pa : Nat) (n : Right) : Bool :=
  !(n.w && s.standbyLine cr pa) &&
  match s.segOf cr pa with
  | none => false
  | some (i, g) =>
    (!n.r || segR g) && (!n.w || segW g) && (!n.x || segX g) && (!n.dma || segDma g) &&
      (if i = 63 then s.hubPageOk cr pa n.w else true)

def rightOf : AccKind → Right
  | .fetch => { r := false, w := false, x := true, dma := false }
  | .load => { r := true, w := false, x := false, dma := false }
  | .store => { r := false, w := true, x := false, dma := false }
  | .atomic => { r := true, w := true, x := false, dma := false }

/-- Every page of a range passes a hub unit's or an inbound device's check for a creel (09/R259, R260). -/
def State.dmaOk (s : State) (cr a n : Nat) (write : Bool) : Bool :=
  (upto (a / 4096) ((a + n + 4095) / 4096 - a / 4096)).all fun pg =>
    s.segOk cr (pg * 4096) { r := !write, w := write, x := false, dma := true } &&
      (match s.region (pg * 4096) with | .dram | .cxl _ => true | .window _ off => !fixedStrict off | _ => false)

/-! ## Entries and levels (06/R178-R182) -/

def pteV (e : W64) : Bool := tbit e 0
def pteR (e : W64) : Bool := tbit e 1
def pteW (e : W64) : Bool := tbit e 2
def pteX (e : W64) : Bool := tbit e 3
def pteU (e : W64) : Bool := tbit e 4
def pteG (e : W64) : Bool := tbit e 5
def pteA (e : W64) : Bool := tbit e 6
def pteD (e : W64) : Bool := tbit e 7
def pteMt (e : W64) : Nat := fld e 10 8
def ptePpn (e : W64) : Nat := fld e 51 12
def pteKey (e : W64) : Nat := fld e 55 52
def pteIsPtr (e : W64) : Bool := !pteR e && !pteW e && !pteX e

/-- A valid entry that breaks R180 or R181 (06/R181). -/
def pteMalformed (e : W64) (level : Nat) : Bool :=
  tbit e 11 ||
  (if pteIsPtr e then
    level == 0 || pteMt e != 0 || pteD e || pteA e || pteG e || pteU e || (level != 1 && pteKey e != 0)
  else
    decide (3 ≤ level) || (pteW e && !pteR e) || decide (5 ≤ pteMt e) || (level == 0 && pteKey e != 0) ||
      (level == 1 && ptePpn e % 2 ^ 9 != 0) || (level == 2 && ptePpn e % 2 ^ 18 != 0))

/-- The width in bits and the root level that SYS_TCTL.width selects (06/R176, R179). -/
def vaWidth (tctl : W64) : Nat := match fld tctl 1 0 with | 0 => 39 | 1 => 48 | _ => 57
def rootLevel (tctl : W64) : Nat := match fld tctl 1 0 with | 0 => 2 | 1 => 3 | _ => 4
/-- Canonical addresses (06/R178). -/
def canonical (w : Nat) (va : W64) : Bool := va.toNat / 2 ^ (w - 1) == 0 || va.toNat / 2 ^ (w - 1) == 2 ^ (65 - w) - 1
def vaIndex (va : Nat) (level : Nat) : Nat := va / 2 ^ (12 + 9 * level) % 512

/-! ## The walk (06/R183-R187) -/

/-- How a walk ends. -/
inductive WalkRes where
  | fault (code : Nat)
  | poison (pa : Nat)
  | leaf (pte : W64) (addr : Nat) (level : Nat) (key : Nat)
  deriving DecidableEq, Repr

/-- The check of the address of a table entry before it is read (06/R184, 09/R259). -/
def State.walkRegion (s : State) (cr ea level : Nat) : Option Nat :=
  match s.region ea with
  | .dram | .cxl true =>
    if s.segOk cr ea { r := true, w := false, x := false, dma := false } then none else some 0x5F
  | .reserved => some (0x28 + level)
  | _ => some (0x20 + level)

/-- The walk of the tables from one level down, with the pointers it passed (level they serve, table, key) and the
entries it read. -/
def State.walk (s : State) (cr : Nat) (va : Nat) : Nat → Nat → Nat → WalkRes × List (Nat × Nat × Nat) × Nat
  | level, table, key =>
    let ea := table + vaIndex va level * 8
    match s.walkRegion cr ea level with
    | some c => (.fault c, [], 0)
    | none =>
      if s.poisoned (lineOf ea) || s.fencedRead (lineOf ea) then (.poison ea, [], 1) else
      let e := s.rd64 ea
      if !pteV e then (.fault (0x10 + level), [], 1)
      else if pteMalformed e level then (.fault (0x18 + level), [], 1)
      else if pteIsPtr e then
        match level with
        | 0 => (.fault 0x18, [], 1)
        | l + 1 =>
          let k := if level = 1 then pteKey e else key
          let (r, ps, n) := s.walk cr va l (ptePpn e * 4096) k
          (r, (l, ptePpn e * 4096, k) :: ps, n + 1)
      else (.leaf e ea level (if level = 0 then key else pteKey e), [], 1)

/-- The outcome of a translation: a fault with no leaf, a poisoned walk, or a physical address with its MT (none:
translation off), the first failed check of R188, and the cached leaf it came from. -/
inductive XlRes where
  | fault (code : Nat)
  | poison (pa : Nat)
  | ok (pa : Nat) (mt : Option MemType) (chk : Option Nat) (leaf : Option TlbLeaf)
  deriving DecidableEq, Repr

def TlbLeaf.hits (e : TlbLeaf) (asid va : Nat) : Bool :=
  (pteG e.pte || e.asid == asid) && va / 2 ^ (12 + 9 * e.level) == e.va / 2 ^ (12 + 9 * e.level)

/-- Checks 5 to 7 of R188, which also hold with translation off (06/R176). -/
def State.physCheck (s : State) (cr : Option Nat) (pa : Nat) (mt : Option MemType) (k : AccKind) : Option Nat :=
  if s.region pa = .reserved then some 0x2F
  else if k = .fetch ∧ s.effType pa mt ≠ .wb then some 0x57
  else match cr with
    | none => some 0x5F
    | some cr => if s.segOk cr pa (rightOf k) then none else some 0x5F

/-- Checks 1 to 4 of R188 on a leaf, as a fault code without its level. -/
def leafCheck (priv sum : Bool) (pkey : W64) (e : W64) (key : Nat) (k : AccKind) : Option Nat :=
  let privOk := if !priv then pteU e else if k = .fetch then !pteU e else !pteU e || sum
  let permOk := match k with
    | .fetch => pteX e | .load => pteR e | .store => pteW e | .atomic => pteR e && pteW e
  if !privOk then some 0x30
  else if !permOk then some 0x38
  else if k ≠ .fetch ∧ pteU e ∧ tbit pkey (2 * key) then some 0x40
  else if (k = .store ∨ k = .atomic) ∧ pteU e ∧ tbit pkey (2 * key + 1) then some 0x48
  else none

/-- The physical address a leaf gives. -/
def leafPa (e : TlbLeaf) (va : Nat) : Nat := ptePpn e.pte * 4096 + va % 2 ^ (12 + 9 * e.level)

def State.leafRes (s : State) (c : Core) (cr : Option Nat) (e : TlbLeaf) (va : Nat) (k : AccKind) : XlRes :=
  let pa := leafPa e va
  let mt := some (mtOf (pteMt e.pte))
  let chk := match leafCheck c.priv (tbit (c.sysr 0x22) 2) (c.sysr 0x10) e.pte e.key k with
    | some b => some (b + e.level)
    | none => s.physCheck cr pa mt k
  .ok pa mt chk (some e)

/-- Where a walk starts: at the root, or at any cached pointer of the prefix, a free choice (06/R191, R197; log entry 6). -/
def State.walkStart (s : State) (n : Nat) (va : Nat) : State × Nat × Nat × Nat :=
  let c := s.core n
  let root := (rootLevel (c.sysr 0x22), fld (c.sysr 0x20) 51 12 * 4096, 0)
  let ps := c.ptr.filter fun p => p.asid = (c.sysr 0x21).toNat % 2 ^ 16 ∧ va / 2 ^ (12 + 9 * (p.level + 1)) = p.pre
  if ps = [] then (s, root) else
  (s.spend, match ps[s.drawn .ptrUse % (ps.length + 1)]? with | some p => (p.level, p.table, p.key) | none => root)
/-- The leaf found is cached with the pointers passed (level, table, key), its a bit set (06/R185, R191). -/
def State.walkFill (s : State) (n va : Nat) (e : W64) (ea l k : Nat) (ps : List (Nat × Nat × Nat)) : State × TlbLeaf :=
  let asid := ((s.core n).sysr 0x21).toNat % 2 ^ 16
  let s := if pteA e then s else s.wr64 ea (setFld e 6 6 1)
  let lf : TlbLeaf := { asid := asid, va := va, level := l, pte := setFld e 6 6 1, pteAddr := ea, key := k }
  let mk := fun (q : Nat × Nat × Nat) =>
    ({ asid := asid, level := q.1, pre := va / 2 ^ (12 + 9 * (q.1 + 1)), table := q.2.1, key := q.2.2 } : TlbPtr)
  (s.modCore n fun c => { c with tlb := lf :: c.tlb, ptr := ps.map mk ++ c.ptr }, lf)
/-- The walk of a correct-path or wrong-path access of core n that finds no usable leaf: a wrong-path walk sets no a bit
and caches no leaf whose a bit is clear (06/R183-R187). -/
def State.walkAccess (s : State) (n : Nat) (va : Nat) (wrongPath : Bool) : State × Option TlbLeaf × WalkRes × Nat :=
  let st := s.walkStart n va
  match st.1.walk ((s.creelOf n).getD 64) va st.2.1 st.2.2.1 st.2.2.2 with
  | (.leaf e ea l k, ps, reads) =>
    if wrongPath ∧ !pteA e then (st.1, none, .leaf e ea l k, reads)
    else
      let f := st.1.walkFill n va e ea l k ps
      (f.1, some f.2, .leaf e ea l k, reads)
  | (.fault x, _, reads) => (st.1, none, .fault x, reads)
  | (.poison p, _, reads) => (st.1, none, .poison p, reads)
/-- The outcome of a translation that had to walk, with the entries read. -/
def State.walked (s : State) (n : Nat) (va : Nat) (k : AccKind) (wrongPath : Bool) : State × XlRes × Option Nat :=
  match s.walkAccess n va wrongPath with
  | (t, some lf, _, m) => (t, t.leafRes (s.core n) (s.creelOf n) lf va k, some m)
  | (t, none, .fault x, m) => (t, .fault x, some m)
  | (t, none, .poison p, m) => (t, .poison p, some m)
  | (t, none, .leaf _ _ _ _, m) => (t, .fault 0, some m)

/-- A translation of core n, with the number of table entries read, if it walked (06/R176-R191). Any cached leaf that
matches may serve it, or the core walks: a free choice (06/R191, R197; log entry 6). -/
def State.translate (s : State) (n : Nat) (va : W64) (k : AccKind) (wrongPath : Bool) : State × XlRes × Option Nat :=
  let c := s.core n
  let asid := (c.sysr 0x21).toNat % 2 ^ 16
  if !c.xlateOn then
    if 2 ^ 52 ≤ va.toNat then (s, .ok va.toNat none (some 0x2F) none, none)
    else (s, .ok va.toNat none (s.physCheck (s.creelOf n) va.toNat none k) none, none)
  else if !canonical (vaWidth (c.sysr 0x22)) va then (s, .fault 0x0F, none)
  else
    let es := c.tlb.filter fun e => e.hits asid va.toNat
    if es = [] then s.walked n va.toNat k wrongPath else
    match es[s.drawn .tlbEvict % (es.length + 1)]? with
    | some e => (s.spend, s.spend.leafRes c (s.creelOf n) e va.toNat k, none)
    | none => s.spend.walked n va.toNat k wrongPath

/-- The d bit, set by compare-and-swap before the first store through a leaf whose d is 0; `none` when the entry in
memory differs from the entry as the walker read it: the leaf is discarded (06/R186). -/
def State.setDirty (s : State) (n : Nat) (e : TlbLeaf) : Option State :=
  if pteD e.pte then some s
  else if s.rd64 e.pteAddr = e.pte then
    let e' := { e with pte := setFld e.pte 7 7 1 }
    some ((s.wr64 e.pteAddr e'.pte).modCore n fun c => { c with tlb := c.tlb.map fun f => if f = e then e' else f })
  else none
/-- What the walker holds for an address is discarded, so that the next walk starts at the root (06/R186). -/
def State.dropLeaf (s : State) (n : Nat) (e : TlbLeaf) (va : Nat) : State :=
  s.modCore n fun c => { c with tlb := c.tlb.filter (fun f => f ≠ e && !f.hits e.asid va), ptr := [] }

/-! ## Invalidation (06/R192) -/

def Core.tlbinv (c : Core) (keep : TlbLeaf → Bool) : Core := { c with tlb := c.tlb.filter keep, ptr := [] }
/-- A cached leaf whose range contains an address. -/
def TlbLeaf.covers (e : TlbLeaf) (va : Nat) : Bool := va / 2 ^ (12 + 9 * e.level) == e.va / 2 ^ (12 + 9 * e.level)

end Sys2Proof.Machine
end

