-- ==== Sys2Proof/Machine/Cache.lean ====
section
/-!
DEFINITION. The caches, the directory and the coherence protocol (07). A cache holds tags and MOESI states; the bytes
themselves stand once, in `State.mem` (log entry 4).
-/
namespace Sys2Proof.Machine

/-! ## Sets of lines, most recent first (07/R204) -/

def lowestFree (used : List Nat) (ways : List Nat) : Option Nat := ways.find? fun w => !used.contains w
/-- A line enters a set of `ways` ways: the lowest invalid way, else the least recent line leaves. -/
def setFill (ways : Nat) (set : List CLine) (line : Nat) (st : Moesi) : List CLine × Option CLine :=
  match set.find? fun c => c.line = line with
  | some c => ({ c with st := st } :: set.filter (fun d => d.line ≠ line), none)
  | none =>
    match lowestFree (set.map (·.way)) (List.range ways) with
    | some w => ({ way := w, line := line, st := st } :: set, none)
    | none =>
      match set.getLast? with
      | some v => ({ way := v.way, line := line, st := st } :: set.dropLast, some v)
      | none => ([{ way := 0, line := line, st := st }], none)
def setDrop (set : List CLine) (line : Nat) : List CLine := set.filter fun c => c.line ≠ line
def setState (set : List CLine) (line : Nat) (st : Moesi) : List CLine :=
  set.map fun c => if c.line = line then { c with st := st } else c
def setFind (set : List CLine) (line : Nat) : Option Moesi := (set.find? fun c => c.line = line).map (·.st)

/-! ## Private caches by coherent agent (07/R215) -/

/-- The state of a line in an agent's private caches. L2 includes L1 (07/R199). -/
def State.privSt (s : State) (ag line : Nat) : Option Moesi :=
  if ag < 224 then setFind ((s.tile ag).l2.get [] (setL2 line)) line
  else setFind ((s.seq (ag - 224)).cache.get [] (setSeqCache line)) line
def State.setPriv (s : State) (ag line : Nat) (st : Moesi) : State :=
  if ag < 224 then
    let t := s.tile ag
    s.setTile ag { t with l2 := t.l2.set (setL2 line) (setState (t.l2.get [] (setL2 line)) line st) }
  else s.modSeq (ag - 224) fun q => { q with cache := q.cache.set (setSeqCache line) (setState (q.cache.get [] (setSeqCache line)) line st) }
def Tile.dropL1 (t : Tile) (line : Nat) : Tile :=
  { t with l1i := t.l1i.set (setL1 line) (setDrop (t.l1i.get [] (setL1 line)) line),
           l1d := t.l1d.set (setL1 line) (setDrop (t.l1d.get [] (setL1 line)) line) }
def State.dropPriv (s : State) (ag line : Nat) : State :=
  if ag < 224 then
    let t := (s.tile ag).dropL1 line
    s.setTile ag { t with l2 := t.l2.set (setL2 line) (setDrop (t.l2.get [] (setL2 line)) line) }
  else s.modSeq (ag - 224) fun q => { q with cache := q.cache.set (setSeqCache line) (setDrop (q.cache.get [] (setSeqCache line)) line) }
def Moesi.isDirty : Moesi → Bool | .m | .o => true | _ => false
def isM : Option Moesi → Bool | some .m => true | _ => false
def isME : Option Moesi → Bool | some .m | some .e => true | _ => false
/-- L1D of a tile holds a line in M or E: what a store that drains needs (04/R123). -/
def State.l1dOwned (s : State) (t line : Nat) : Bool :=
  (setFind ((s.tile t).l1d.get [] (setL1 line)) line).isSome && isME (s.privSt t line)
/-- The logical core that a physical tile runs. -/
def State.coreAt (s : State) (t : Nat) : Option Nat := (List.range 192).find? fun n => s.tileOf n = t
/-- A coherent agent as an error record names it: a core by its logical number, a sequencer by the Hamper's sequencer, the
plaiter unit or the Stake (17/R511). -/
def State.agentUnit (s : State) (ag : Nat) : Nat × Nat :=
  if ag < 224 then (1, (s.coreAt ag).getD ag)
  else if isPlaiter (ag - 224) then (7, unitOf (ag - 224))
  else if ag - 224 < 14 then (6, ag - 224) else (0xA, 0)
/-- The creel on whose behalf a coherent agent works. -/
def State.agentCreel (s : State) (ag : Nat) : Option Nat :=
  if ag < 224 then (match s.coreAt ag with | some n => s.creelOf n | none => none) else s.seqCreel (ag - 224)

/-! ## The third-level slice (07/R199, R205, R210) -/

/-- The ways a creel's fill may use in a slice (07/R205): named in its mask, powered, not retired, not being cleaned. -/
def State.fillWays (s : State) (sl : Nat) (cr : Option Nat) : List Nat :=
  let x := s.slice sl
  let mask := match cr with | some c => (s.creel c).wayMask | none => 0xFFFF
  (List.range 16).filter fun w => wayBit mask w && !wayBit x.off w && !wayBit x.retired w && !wayBit x.cleaning w && !wayBit x.powerCleaning w
/-- A line enters its home slice for a creel; a dirty victim goes to the victim buffer, whose oldest writeback has left when
a 17th comes (07/R199, R204, R205, R220). -/
def State.sliceFill (s : State) (line : Nat) (dirty : Bool) (cr : Option Nat) : State :=
  let h := homeOf line
  let x := s.slice h
  let set := x.sets.get [] (setL3 line)
  let ways := s.fillWays h cr
  let put := fun (set' : List SLine) (v : List Victim) =>
    s.setSlice h { x with sets := x.sets.set (setL3 line) set', victims := (x.victims ++ v).drop (x.victims.length + v.length - 16) }
  match set.find? fun c => c.line = line with
  | some c => put ({ c with dirty := c.dirty || dirty } :: set.filter (fun d => d.line ≠ line)) []
  | none =>
    match lowestFree (set.map (·.way)) ways with
    | some w => put ({ way := w, line := line, dirty := dirty } :: set) []
    | none =>
      match (set.reverse.find? fun c => ways.contains c.way) with
      | some v =>
        put ({ way := v.way, line := line, dirty := dirty } :: set.filter (fun d => d.line ≠ v.line))
          (if v.dirty then [{ line := v.line, issued := false }] else [])
      | none => s
/-- A fill that allocates counts in UC_L3_FILL (20/R566). -/
def State.sliceAlloc (s : State) (line : Nat) (dirty : Bool) (cr : Option Nat) : State :=
  match cr with
  | some c => if s.sliceHas line then s.sliceFill line dirty cr else (s.sliceFill line dirty cr).ucAdd c 0x28 1
  | none => s.sliceFill line dirty cr
/-- A hit makes its way the most recent (07/R204). -/
def State.sliceTouch (s : State) (line : Nat) : State :=
  let x := s.slice (homeOf line)
  let set := x.sets.get [] (setL3 line)
  match set.find? fun c => c.line = line with
  | some c => s.setSlice (homeOf line) { x with sets := x.sets.set (setL3 line) (c :: set.filter fun d => d.line ≠ line) }
  | none => s
/-- The slice's copy leaves for memory or is made clean. -/
def State.sliceClean (s : State) (line : Nat) (keep : Bool) : State :=
  let h := homeOf line
  let x := s.slice h
  let set := x.sets.get [] (setL3 line)
  let set' := if keep then set.map (fun c => if c.line = line then { c with dirty := false } else c)
    else set.filter (fun c => c.line ≠ line)
  s.setSlice h { x with sets := x.sets.set (setL3 line) set' }

/-! ## The directory (07/R216, R217) -/

def State.setDir (s : State) (d : DirEntry) : State :=
  let x := s.slice (homeOf d.line)
  s.setSlice (homeOf d.line) { x with dir := d :: x.dir.filter (fun e => e.line ≠ d.line) }
def State.dropDir (s : State) (line : Nat) : State :=
  let x := s.slice (homeOf line)
  s.setSlice (homeOf line) { x with dir := x.dir.filter (fun e => e.line ≠ line) }
def DirEntry.holders (d : DirEntry) : List Nat := d.owner.toList ++ d.sharers.filter (fun a => d.owner ≠ some a)
/-- The entry without one agent; an entry without holders is dropped. -/
def State.dirLeave (s : State) (ag line : Nat) : State :=
  match s.dirOf line with
  | none => s
  | some d =>
    let d' := { d with owner := if d.owner = some ag then none else d.owner, sharers := setErase d.sharers ag }
    if d'.owner = none ∧ d'.sharers = [] then s.dropDir line else s.setDir { d' with shared := true }

/-- An agent's copy is written back to the slice and the entry is cleared or reduced (07/R199, R216, R221). -/
def State.writebackLine (s : State) (ag line : Nat) (cr : Option Nat) : State :=
  match s.privSt ag line with
  | none => s
  | some st =>
    let s := s.dropPriv ag line
    let s := if st.isDirty then s.sliceAlloc line true cr
      else if ag < 224 ∧ !s.sliceHas line then s.sliceAlloc line false cr else s
    s.dirLeave ag line
/-- A holder drops its copy on an invalidation; a dirty copy is written back first when `wb`, into a way of the creel that
owns the agent (07/R199, R205, R216, R217). -/
def State.invalidateAt (s : State) (wb : Bool) (ag line : Nat) : State :=
  match s.privSt ag line with
  | none => s.dirLeave ag line
  | some st =>
    let s := if wb && st.isDirty then s.sliceFill line true (s.agentCreel ag) else s
    (s.dropPriv ag line).dirLeave ag line
def State.invalidateAll (s : State) (wb : Bool) (line : Nat) (except : Option Nat) : State :=
  match s.dirOf line with
  | none => s
  | some d => (d.holders.filter fun a => some a ≠ except).foldl (fun s a => s.invalidateAt wb a line) s

/-- The directory set of a line: 65,536 entries in 16 ways are 4,096 sets (07/R216). -/
def dirSetOf (line : Nat) : Nat := Config.dirSet line % 4096
/-- Room for one more entry of a line's directory set: 16 ways with exact LRU; every holder of the evicted line is
invalidated (07/R216, R217). -/
def State.dirRoom (s : State) (line : Nat) : State :=
  let dir := (s.slice (homeOf line)).dir
  if dir.length < 16 then s else
  let same := dir.filter fun e => dirSetOf e.line = dirSetOf line
  if same.length < 16 then s else
  match same.getLast? with
  | some v => (s.invalidateAll true v.line none).dropDir v.line
  | none => s

/-! ## Fills and requests (07/R199, R216) -/

/-- The line enters the private caches of an agent; a displaced line is written back (07/R199, R204). -/
def State.fillPriv (s : State) (ag line : Nat) (st : Moesi) (fetch : Bool) (cr : Option Nat) : State :=
  if ag < 224 then
    let t := s.tile ag
    let (l2, v) := setFill 16 (t.l2.get [] (setL2 line)) line st
    let s := match v with | some v => s.writebackLine ag v.line cr | none => s
    let t := s.tile ag
    let t := { t with l2 := t.l2.set (setL2 line) l2 }
    let l1 := if fetch then t.l1i else t.l1d
    let (set, _) := setFill 8 (l1.get [] (setL1 line)) line st
    s.setTile ag (if fetch then { t with l1i := l1.set (setL1 line) set } else { t with l1d := l1.set (setL1 line) set })
  else
    let q := s.seq (ag - 224)
    let (c, v) := setFill 4 (q.cache.get [] (setSeqCache line)) line st
    let s := match v with | some v => s.writebackLine ag v.line cr | none => s
    s.modSeq (ag - 224) fun q => { q with cache := q.cache.set (setSeqCache line) c }

/-- A line that an agent holds is used: a hit in L1 orders L1 only, a hit in L2 orders L2 and fills L1 (07/R204). -/
def State.touchPriv (s : State) (ag line : Nat) (st : Moesi) (fetch : Bool) (cr : Option Nat) : State :=
  let t := s.tile ag
  let l1 := if fetch then t.l1i else t.l1d
  if ag < 224 ∧ (setFind (l1.get [] (setL1 line)) line).isSome then
    let set := (setFill 8 (l1.get [] (setL1 line)) line st).1
    let t := { t with l2 := t.l2.set (setL2 line) (setState (t.l2.get [] (setL2 line)) line st) }
    s.setTile ag (if fetch then { t with l1i := l1.set (setL1 line) set } else { t with l1d := l1.set (setL1 line) set })
  else s.fillPriv ag line st fetch cr

/-- Where a request found its data. -/
inductive Src where
  | l1 | l2 | cache | slice | memory
  deriving DecidableEq, Repr

/-- Does a read of a range by a hub unit or a device meet poison: a marked line, a line of a fenced rank that no cache holds
(08/R251), a device's answer that fails or is poisoned (16/R478, R480)? -/
def State.poisonedRange (s : State) (a n : Nat) : Bool :=
  if inWindow a then Config.deviceFate a s.free % 4 != 0
  else (linesOf a n).any fun l =>
    s.poisoned l || s.fencedRead l
/-- A poisoned answer of a device that a unit takes along: its lane group is not in service (16/R480). -/
def State.poisonTaken (s : State) (a : Nat) : Bool :=
  Config.deviceFate a s.free % 4 == 3 &&
    (match s.region a with | .window lg _ => fld (s.lg lg).ctl 2 0 != 0 | _ => false)
/-- An answer with an error is recorded in AER and in the page of the creel (16/R478), a read of a fenced rank in that page
(08/R251, 17/R511). -/
def State.readFailed (s : State) (cr a n : Nat) : State :=
  if inWindow a then
    match s.region a, Config.deviceFate a s.free % 4 with
    | .window lg _, 1 => (s.modLg lg fun g => { g with aer := g.aer + 1 }).creelError cr 2 4 0x4 a lg 0
    | .window lg _, 2 => (s.modLg lg fun g => { g with aer := g.aer + 1 }).creelError cr 2 4 0x5 a lg 0
    | _, _ => s
  else ((linesOf a n).filter s.fencedRead).foldl (fun s l => s.creelError cr 2 3 0x22 (64 * l) (channelOf l) (Config.position l).toNat) s

/-- A request for a line still in the victim buffer: an eviction not yet issued is cancelled and the line returns to
the slice; one that was issued is waited for, and the line comes from memory (07/R220; log entry 135). -/
def State.victimRecall (s : State) (line : Nat) (cr : Option Nat) : State × Bool :=
  let x := s.slice (homeOf line)
  match x.victims.find? fun v => v.line = line with
  | some v =>
    let s := s.setSlice (homeOf line) { x with victims := x.victims.filter fun v => v.line ≠ line }
    if v.issued then (s, false) else (s.sliceFill line true cr, true)
  | none => (s, false)

/-- Data from the slice, or from memory with a third-level allocation for a core (07/R199, R216). -/
def State.homeData (s : State) (line : Nat) (alloc : Bool) (cr : Option Nat) : State × Src :=
  if s.sliceHas line then (s.sliceTouch line, .slice)
  else
    let (s, got) := s.victimRecall line cr
    if got then (s, .slice)
    else (if alloc then s.sliceAlloc line false cr else s, .memory)

/-- A read request at the home (07/R216): the state granted and the source of the data. -/
def State.homeRead (s : State) (ag line : Nat) (cr : Option Nat) : State × Moesi × Src :=
  match s.dirOf line with
  | some d =>
    match d.owner with
    | some o =>
      let s' := match s.privSt o line with
        | some .m => (s.setPriv o line .o).setDir { d with shared := true, sharers := setInsert d.sharers ag }
        | some .e => (s.setPriv o line .s).setDir { d with owner := none, shared := true, sharers := setInsert (setInsert d.sharers o) ag }
        | _ => s.setDir { d with shared := true, sharers := setInsert d.sharers ag }
      (s', .s, .cache)
    | none =>
      let (s, src) := s.homeData line (ag < 224) cr
      (s.setDir { d with sharers := setInsert d.sharers ag }, .s, src)
  | none =>
    let (s, src) := s.homeData line (ag < 224) cr
    let s := s.dirRoom line
    (s.setDir { line := line, owner := some ag, shared := false, sharers := [] }, .e, src)

/-- A core's request that crosses a bridge stop: its home slice is on another base die (20/R566). -/
def State.bridgeCount (s : State) (ag line : Nat) (cr : Option Nat) : State :=
  match cr with
  | some c => if ag < 224 ∧ baseDie ag ≠ baseDie (homeOf line) then s.ucAdd c 0x20 1 else s
  | none => s

/-- A read of a line by an agent through its own caches, once no earlier request for it is in progress (07/R215, R216). -/
def State.readNow (s : State) (ag line : Nat) (fetch : Bool) (cr : Option Nat) : State × Src :=
  match s.privSt ag line with
  | some st =>
    let l1 := if ag < 224 then
        (setFind ((if fetch then (s.tile ag).l1i else (s.tile ag).l1d).get [] (setL1 line)) line).isSome else true
    (s.touchPriv ag line st fetch cr, if l1 then .l1 else .l2)
  | none =>
    let (s, st, src) := (s.bridgeCount ag line cr).homeRead ag line cr
    (s.fillPriv ag line st fetch cr, src)

/-- An agent obtains a line for writing: M (07/R215, R216). -/
def State.ownNow (s : State) (ag line : Nat) (cr : Option Nat) : State × Src :=
  match s.privSt ag line with
  | some .m => (s.touchPriv ag line .m false cr, .l1)
  | some .e => (s.touchPriv ag line .m false cr, .l1)
  | some _ =>
    let s := (s.bridgeCount ag line cr).invalidateAll false line (some ag)
    ((s.setDir { line := line, owner := some ag, shared := false, sharers := [] }).touchPriv ag line .m false cr, .cache)
  | none =>
    let owned := s.ownedLine line
    let s := (s.bridgeCount ag line cr).invalidateAll false line none
    let (s, src) := if owned then (s, Src.cache) else s.homeData line (ag < 224) cr
    let s := s.dirRoom line
    ((s.setDir { line := line, owner := some ag, shared := false, sharers := [] }).fillPriv ag line .m false cr, src)

/-! ## Requests in progress (07/R217, R219, R220) -/

/-- The line of a read that the home granted reaches its requester, unless the directory has dropped it meanwhile. -/
def State.arrive (s : State) (ag line : Nat) (fetch : Bool) (cr : Option Nat) : State :=
  match s.privSt ag line, s.dirOf line with
  | none, some d =>
    if d.owner = some ag then s.fillPriv ag line .e fetch cr
    else if d.sharers.contains ag then s.fillPriv ag line .s fetch cr else s
  | _, _ => s
/-- The requests that wait for a line are served in the order in which they came. -/
def State.serveWaiting (s : State) (line : Nat) : State :=
  let x := s.slice (homeOf line)
  let w := x.waitq.filter fun q => q.line = line
  if w = [] then s else
  w.foldl (fun s q => if q.own then (s.ownNow q.agent line (s.agentCreel q.agent)).1
      else (s.readNow q.agent line false (s.agentCreel q.agent)).1)
    (s.setSlice (homeOf line) { x with waitq := x.waitq.filter fun q => q.line ≠ line })
/-- What a request waits for at the home: an earlier one whose line is on its way (R217), a writeback that was issued (R220). -/
def Slice.busyLine (x : Slice) (line : Nat) : Bool :=
  x.fills.any (fun f => f.line == line && !f.arrived) || x.victims.any fun v => v.line == line && v.issued
/-- An earlier request for a line completes, and then those that wait for it: every access that needs the line meets it in the
state that they leave. -/
def State.settleLine (s : State) (line : Nat) : State :=
  let x := s.slice (homeOf line)
  let here := x.fills.filter fun f => f.line = line && !f.arrived
  if here = [] then s else
  (here.foldl (fun s f => s.arrive f.agent line false (s.agentCreel f.agent))
    (s.setSlice (homeOf line) { x with fills := x.fills.map fun f => if f.line = line then { f with arrived := true } else f })).serveWaiting line

/-- A read, and a read for ownership, of an agent whose request reaches the home after those in progress. -/
def State.cohRead (s : State) (ag line : Nat) (fetch : Bool) (cr : Option Nat) : State × Src :=
  (s.settleLine line).readNow ag line fetch cr
def State.cohOwn (s : State) (ag line : Nat) (cr : Option Nat) : State × Src := (s.settleLine line).ownNow ag line cr

/-- A UC, inbound or hub-unit write at the home: no private copy is left stale, and a slice copy becomes dirty
(07/R199, R218). -/
def State.homeWrite (s : State) (line : Nat) : State :=
  let s := ((s.settleLine line).invalidateAll true line none)
  let s := if s.sliceHas line then s else (s.victimRecall line (s.segHolder (64 * line))).1
  if s.sliceHas line then s.sliceFill line true none else s
/-- A UC or inbound read at the home is served by the owner, else by the slice, else by memory, and the line stays where it was
(07/R218). -/
def State.homeLook (s : State) (line : Nat) : State × Src :=
  let s := s.settleLine line
  if s.ownedLine line then (s, .cache) else s.homeData line false (s.segHolder (64 * line))
def State.homeWriteRange (s : State) (a n : Nat) : State := (linesOf a n).foldl State.homeWrite s

/-- A block of bytes written by a hub unit or an inbound device (07/R199, R218). -/
def State.hubWrite (s : State) (a : Nat) (b : Bytes) : State := (s.homeWriteRange a b.length).storeBytes a b

/-! ## Maintenance (03/R106, R108; 07/R219) -/

/-- The line leaves this agent's caches for the third level, kept or dropped. -/
def State.cleanAt (s : State) (ag line : Nat) (drop : Bool) (cr : Option Nat) : State :=
  match s.privSt ag line with
  | none => s
  | some st =>
    if drop then s.writebackLine ag line cr
    else
      let s := if st.isDirty then s.sliceAlloc line true cr else s
      match st with
      | .m => s.setPriv ag line .e
      | .o => match s.dirOf line with
        | some d => (s.setPriv ag line .s).setDir { d with owner := none, shared := true, sharers := setInsert d.sharers ag }
        | none => s.setPriv ag line .s
      | _ => s
/-- CLEAN.P and FLUSH.P, once a fill of the line in progress has completed (07/R219). -/
def State.cleanTile (s : State) (ag line : Nat) (drop : Bool) (cr : Option Nat) : State :=
  (s.settleLine line).cleanAt ag line drop cr
/-- The line is written back to memory from every cache, kept or dropped; each holder's copy passes through a way of the creel
that owns it (07/R199, R219). -/
def State.cleanAll (s : State) (line : Nat) (drop : Bool) : State :=
  let s := s.settleLine line
  let s := match s.dirOf line with
    | none => s
    | some d => d.holders.foldl (fun s a => s.cleanAt a line drop (s.agentCreel a)) s
  s.sliceClean line (!drop)
/-- The victim buffer holds a line; a maintenance operation has its writeback issued and waits for memory (07/R222). -/
def State.victimHeld (s : State) (line : Nat) : Bool := (s.slice (homeOf line)).victims.any fun v => v.line == line
def State.victimIssue (s : State) (line : Nat) : State :=
  let x := s.slice (homeOf line)
  s.setSlice (homeOf line) { x with victims := x.victims.map fun v => if v.line = line then { v with issued := true } else v }

/-- Every private cache of a tile written back and emptied (04/R132, 19/R554). -/
def State.emptyTile (s : State) (t : Nat) (cr : Option Nat) : State :=
  let lines := ((s.tile t).l2.map (·.2)).flatten.map (·.line)
  (lines.foldl (fun s l => s.writebackLine t l cr) s).setTile t tileReset

end Sys2Proof.Machine
end

