-- ==== Sys2Proof/Machine/Mirror.lean ====
section
/-!
DEFINITION. What the pairing link carries of a creel's stores, vault changes and commit points (15/R439, R444-R453,
R463).
-/
namespace Sys2Proof.Machine

def State.modPair (s : State) (f : Pair → Pair) : State := { s with pair := f s.pair }
/-- The role of a creel on this device, by its code (15/R445). -/
def State.role (s : State) (cr : Nat) : Nat := s.pair.roles.get 0 cr
/-- PAIR_CREEL_CFG (15/R453). -/
def State.pairCfg (s : State) (cr : Nat) : W64 := s.pair.cfg.get (w64 0x3E8001E0000) cr
/-- The pair state code (15/R444). -/
def State.mirrorCode (s : State) : Nat := s.pair.st
/-- Do the rings and queues of a creel run (15/R445)? -/
def State.runsRole (s : State) (cr : Nat) : Bool := s.role cr = 0 || s.role cr = 1 || s.role cr = 3

/-- A W1C bit of PAIR_CREEL_STAT is set, which raises the pair event (15/R453, 17/R497). -/
def State.pairBit (s : State) (cr bit : Nat) : State :=
  let w := s.pair.stat.get 0 cr
  if tbit w bit then s
  else (s.modPair fun p => { p with stat := p.stat.set cr (setFld w bit bit 1) }).raiseFixed 2 cr
def State.pairCount (s : State) (cr hi lo : Nat) : State :=
  s.modPair fun p => { p with stat := p.stat.set cr (satInc (p.stat.get 0 cr) hi lo) }
/-- A role is set; a change sets role_change. -/
def State.setRole (s : State) (cr r : Nat) : State :=
  if s.role cr = r then s else (s.modPair fun p => { p with roles := p.roles.set cr r }).pairBit cr 0
/-- PAIR_CREEL_STAT as read. -/
def State.pairStat (s : State) (cr : Nat) : W64 := setFld (s.pair.stat.get 0 cr) 7 4 (s.role cr)

/-- A frame enters the transmit queue of its class and stays until the link layer acknowledges it (15/R439). -/
def State.sendFrame (s : State) (cls : Nat) (m : PairMsg) : State :=
  let n := s.pair.tx.get 0 cls
  let f : TxFrame := { cls := cls, seq := n, msg := m, sent := s.clock }
  (s.modPair fun p => { p with tx := p.tx.set cls (n + 1), unacked := p.unacked ++ [f], sent := p.sent + 1 }).emit 9 [cls, n]

/-! ## Capture (15/R447, R448) -/

def granuleOf (line : Nat) : Nat := line / 32768
def State.marked (s : State) (cr line : Nat) : Bool := (s.pair.marks.get [] cr).contains (granuleOf line)
/-- A line goes to the partner as its bytes stand; one that the resync copy still has to bring is left to it (R460). -/
def State.sendLine (s : State) (cr line : Nat) : State :=
  if (s.pair.copies.get { lines := [], handles := [], sess := [] } cr).lines.contains line then s
  else
    let m := PairMsg.line (Fin.ofNat 64 cr) (BitVec.ofNat 46 line) (s.rdBytes (64 * line) 64) (s.poisoned line)
    (s.sendFrame 3 m).ucAdd cr 0x60 64
/-- Lines written by an agent (a core, or 255 for the home slices) are logged; a core's log of 256 lines sends its oldest. -/
def State.capture (s : State) (cr agent : Nat) (lines : List Nat) : State :=
  if s.role cr ≠ 1 then s else
  (lines.filter (s.marked cr)).foldl (fun s l =>
    let key := 256 * cr + agent
    let log := s.pair.logs.get [] key
    if log.contains l then s
    else if agent < 255 ∧ 256 ≤ log.length then
      (s.modPair fun p => { p with logs := p.logs.set key (log.drop 1 ++ [l]) }).sendLine cr (log.headD 0)
    else s.modPair fun p => { p with logs := p.logs.set key (log ++ [l]) }) s
def State.captureLines (s : State) (cr : Nat) (lines : List Nat) : State := s.capture cr 255 lines
/-- Every captured line of a creel is sent. -/
def State.sendCaptured (s : State) (cr : Nat) : State :=
  let ls := (s.pair.logs.filter fun p => p.1 / 256 = cr).flatMap (·.2)
  ls.foldl (fun s l => s.sendLine cr l) (s.modPair fun p => { p with logs := p.logs.filter fun q => q.1 / 256 ≠ cr })

/-! ## Commits (15/R448-R451) -/

/-- A commit: the captured lines, then its marker, whose deadline runs from now. -/
def State.commit (s : State) (cr : Nat) (vault : Bool) (who : Waiter) : State :=
  let s := s.sendCaptured cr
  let id := s.pair.nextId
  let c : Commit := { id := id, creel := cr, cfg := s.pairCfg cr, vault := vault, since := s.clock, late := false, who := who }
  let s := s.modPair fun p => { p with nextId := id + 1, commits := p.commits ++ [c] }
  (s.sendFrame (if vault then 2 else 3) (.marker (Fin.ofNat 64 cr) id)).ucAdd cr 0x58 1
def asyncCfg (w : W64) : Bool := tbit w 2
def stallCfg (w : W64) : Bool := !tbit w 3
/-- A commit of a creel's regions that nobody waits for (R451). -/
def Commit.region (c : Commit) : Bool := !c.vault && c.who == .none
/-- The lag of a creel has reached lag_us: the age of its oldest unacknowledged region commit (R451). -/
def State.lagging (s : State) (cr : Nat) : Bool :=
  s.pair.commits.any fun c => c.creel == cr && c.region && decide (c.since + fld (s.pairCfg cr) 47 32 * 2 ^ 32 / 1000000 ≤ s.clock)
/-- Region commit points of a bounded-lag creel wait under stall while the lag lasts (R451). -/
def State.lagHeld (s : State) (cr : Nat) : Bool := asyncCfg (s.pairCfg cr) && stallCfg (s.pairCfg cr) && s.lagging cr
/-- A commit point of a waiter: may it go on? The first time, the commit is sent; a synchronous one waits for its
release. `tok`: the waiter's number in `released`. -/
def State.commitPoint (s : State) (cr tok : Nat) (who : Waiter) : State × Bool :=
  if s.role cr ≠ 1 then (s, true)
  else if s.pair.released.contains tok then (s.modPair fun p => { p with released := setErase p.released tok }, true)
  else if s.pair.commits.any fun c => c.who = who then (s, false)
  else if asyncCfg (s.pairCfg cr) then
    if s.lagHeld cr then (s, false) else (s.commit cr false .none, true)
  else (s.commit cr false who, false)
/-- Are the commit points of a core's creel mirrored? -/
def State.mirrored (s : State) (n : Nat) : Bool :=
  match s.creelOf n with | some cr => s.role cr = 1 | none => false
/-- A vault change that no command waits for (a session that expires). -/
def State.vaultChange (s : State) (cr : Nat) (m : PairMsg) : State :=
  if s.role cr = 1 then (s.sendFrame 2 m).commit cr true .none else s
/-- The commit point of a core's barrier or marked store. -/
def State.commitGate (s : State) (n : Nat) : State × Bool :=
  match s.creelOf n with
  | none => (s, true)
  | some cr => s.commitPoint cr n (.core n)
/-- The vault changes of a command go to the partner, and its completion waits (11/R327); in SOLO it completes unmirrored.
Answers: does it wait, is it unmirrored. -/
def State.vaultCommit (s : State) (cr id : Nat) (msgs : List PairMsg) (changes : Bool) : State × Bool × Bool :=
  if s.role cr = 3 then (s, false, changes)
  else if s.role cr ≠ 1 then (s, false, false)
  else
    let s := msgs.foldl (fun s m => s.sendFrame 2 m) s
    if !changes ∧ asyncCfg (s.pairCfg cr) then (s.commit cr false .none, false, false)
    else (s.commit cr changes (.hamper id), true, false)

/-- Lines of a range whose write a fenced rank discards: no cache holds them (08/R251). -/
def State.fencedOut (s : State) (a n : Nat) : List Nat :=
  (linesOf a n).filter fun l => s.fencedLine l && !s.sliceHas l && (s.dirOf l).isNone
/-- A posted write of a hub unit; one to a strict window is followed by the zero-length read that acknowledges it (05/R160). -/
def State.unitPost (s : State) (cr a : Nat) (b : Bytes) : State :=
  let plain := s.postStore (some cr) (b.zipIdx.map fun x => (a + x.2, x.1))
  match s.region a with
  | .window lg off =>
    match (if s.outboundOff a then none else s.strictWindow lg off) with
    | some w => match s.strictSend lg (s.portOf lg off) 5 0 cr w [(a, b)] with | some (s, _) => s | none => plain
    | none => plain
  | _ => plain
/-- A write of a hub unit to a creel's memory, captured at the home slices. -/
def State.unitWrite (s : State) (cr a : Nat) (b : Bytes) : State :=
  let pairs : FMap Byte := b.zipIdx.map fun x => (a + x.2, x.1)
  if inWindow a then s.unitPost cr a b
  else match s.fencedOut a b.length with
    | [] => (s.hubWrite a b).captureLines cr (linesOf a b.length)
    | bad =>
      let s := (s.homeWriteRange a b.length).store (pairs.filter fun p => !bad.contains (p.1 / 64))
      (bad.foldl (fun s l => s.fencedWrite (some cr) l) s).captureLines cr ((linesOf a b.length).filter fun l => !bad.contains l)
/-- A completion record of a line queue is written, counted, and its event raised (16/R495). -/
def State.lineRecord (s : State) (cr k : Nat) (tx : Bool) (a : Nat) (b : Bytes) (src : Option Nat) : State :=
  let s := s.unitWrite cr a b
  let x := s.lqs.get lqReset k
  let up := fun (r : Ring) => { r with cqProd := (r.cqProd + 1) % 2 ^ 32 }
  let s := { s with lqs := s.lqs.set k (if tx then { x with tx := up x.tx } else { x with rx := up x.rx }) }
  match src with | some e => s.unitEvent e cr 5 (fld x.ctl 34 32) | none => s

/-- A commit leaves the list; its waiter goes on. `unm`: without the partner's acknowledgement (R450). -/
def State.release (s : State) (c : Commit) (unm : Bool) : State :=
  let s := s.modPair fun p => { p with commits := p.commits.filter fun d => d.id ≠ c.id }
  match c.who with
  | .core n => s.modPair fun p => { p with released := setInsert p.released n }
  | .job u k => s.modPair fun p => { p with released := setInsert p.released (256 + 4 * u + k) }
  | .msi src => s.raiseHeld src c.creel
  | .line k tx a b src => s.lineRecord c.creel k tx a b src
  | .hamper id =>
    { s with vault := { s.vault with active := s.vault.active.map fun h =>
        if h.id = id then
          { h with out := h.out.map fun o => { o with waits := false, unmirrored := o.unmirrored || (unm && c.vault) } }
        else h } }
  | .none => s
/-- A commit completes without the partner, and is counted (R450). -/
def State.releaseUnmirrored (s : State) (c : Commit) : State := (s.release c true).pairCount c.creel 63 48

end Sys2Proof.Machine
end

