-- ==== Sys2Proof/Machine/Audit.lean ====
section
/-!
DEFINITION. Audit chains, records and checkpoints of the Hamper (11/R332-R336), which other units append to as well.
-/
namespace Sys2Proof.Machine

/-! ## Audit (11/R332-R336) -/

def State.audit (s : State) (cr : Nat) : Audit := s.vault.audit.get auditReset cr
def State.setAudit (s : State) (cr : Nat) (a : Audit) : State := s.modVault fun v => { v with audit := v.audit.set cr a }
def State.chain (s : State) (n : Nat) : Chain := s.bbkm.chains.get chainReset n
def words8 (l : List Nat) : Bytes := l.flatMap fun w => toLe 8 w
/-- A record's 128 bytes. -/
def auditRecord (seq sec st frac w3 w4 : Nat) (k1 k2 c1 : W64) (head : Bytes) : Bytes :=
  words8 [seq, sec, st % 4 * 2 ^ 32 + frac % 2 ^ 32, w3, w4, k1.toNat, k2.toNat, c1.toNat] ++ head.take 48 ++ zeros 16
/-- Held records are written to the ring while it takes them, in sequence order. -/
def State.auditFlush (s : State) (cr : Nat) : Nat → State
  | 0 => s
  | f + 1 =>
    let a := s.audit cr
    match a.held with
    | [] => s
    | r :: rest =>
      let seq := leNat (r.take 8)
      let at_ := a.ring + 128 * (seq % 2 ^ a.log2n)
      if !a.set ∨ a.consumed + 2 ^ a.log2n < seq ∨ !s.dmaOk cr at_ 128 true then s
      else ((s.unitWrite cr at_ r).setAudit cr { a with held := rest }).auditFlush cr f
/-- The body of a checkpoint as it is signed: chain, sequence number and head that it covers, time at signing, its number (11/R335). -/
def checkpointBody (s : State) (n cp : Nat) (cover : Bytes) : Bytes :=
  toLe 8 n ++ cover ++ toLe 8 s.hoop.sec ++ toLe 8 (s.hoop.frac + s.hoop.st * 2 ^ 32) ++
    (Config.serial ++ zeros 16).take 16 ++ s.bbkm.ownerDigest ++
    sha384 ((List.range 8).flatMap fun i => s.stake.meas.get (zeros 48) i) ++ toLe 8 cp ++ zeros 56
/-- A checkpoint covers the chain as it stands and waits for its signature. -/
def State.checkpoint (s : State) (n : Nat) : State :=
  let c := s.chain n
  let s := s.modBbkm fun k => { k with chains := k.chains.set n { c with cps := c.cps + 1 } }
  if n < 64 then let a := s.audit n; s.setAudit n { a with waiting := a.waiting ++ [(c.cps, toLe 8 c.seq ++ c.head.take 48)] } else s
/-- A record joins a chain: head and sequence number go to BBKM; a creel's record goes to its ring, or is held with the
audit-full event (11/R332-R335). Chain 64 is the device's. -/
def State.auditAppend (s : State) (n sec st frac w3 w4 : Nat) (k1 k2 c1 : W64) : State :=
  let c := s.chain n
  let r := auditRecord (c.seq + 1) sec st frac w3 w4 k1 k2 c1 c.head
  let s := s.modBbkm fun b => { b with chains := b.chains.set n { c with seq := c.seq + 1, head := sha384 r } }
  let s := if n < 64 then
      let a := s.audit n
      let s := s.setAudit n { a with held := a.held ++ [r] }
      let s := s.auditFlush n (a.held.length + 1)
      if (s.audit n).held = [] then s
      else
        let s := if a.set ∧ !s.dmaOk n (a.ring + 128 * ((c.seq + 1) % 2 ^ a.log2n)) 128 true then s.creelError n 2 6 0x42 a.ring 0 0 else s
        s.notice n 0 6
    else s
  if (c.seq + 1) % 65536 = 0 then s.checkpoint n else s
/-- A record of the device's chain for an action of the Stake (11/R332; opcode and origin 2, officer port). -/
def State.audit64 (s : State) (op status : Nat) : State :=
  s.auditAppend 64 s.hoop.sec s.hoop.st s.hoop.frac (op % 65536 * 2 ^ 48 + status % 65536 * 2 ^ 32) (2 * 2 ^ 28) 0 0 0
/-- A record of the device's chain for an event that is no command: its opcode is not given. -/
def State.auditEvent (s : State) : State := s.spend.audit64 (s.drawn .unstated) 0
/-- May the vault accept another command of a creel (11/R333, R336)? -/
def State.auditOpen (s : State) (cr : Nat) : Bool :=
  let a := s.audit cr
  let inFlight := (s.vault.active.filter fun c => c.creel = cr ∧ c.taken).length
  a.set && a.held.isEmpty && decide ((s.chain cr).seq + inFlight < a.consumed + 2 ^ a.log2n) && decide (a.waiting.length < 8)

/-- While the audit of a creel takes no record, only AUDIT_SETUP and AUDIT_CONSUMED are accepted (R333, R336). -/
def auditOnly (w : W64) : Bool := fld w 63 48 = 0x0801 || fld w 63 48 = 0x0802
def State.vaultOpen (s : State) (cr : Nat) (w : W64) : Bool := s.auditOpen cr || auditOnly w
/-- A command of a creel is held for want of an audit ring with room: the audit-full event (R333). -/
def State.auditHold (s : State) (cr : Nat) : State :=
  if (s.audit cr).set ∧ (s.audit cr).waiting.length ≥ 8 then s else s.notice cr 0 6

/-- A pair-failover recommendation (15/R463); an unpaired device only logs it. -/
def State.recommend (s : State) : State :=
  let s := s.note 0xA 0 0x463
  if s.pair.st = 0 then s
  else
    let s := (s.modPair fun p => { p with advised := true }).auditEvent
    (List.range 64).foldl (fun s cr => if s.role cr = 1 ∨ s.role cr = 3 then s.pairBit cr 3 else s) s

end Sys2Proof.Machine
end

