-- ==== Sys2Proof/Machine/CoreOps.lean ====
section
/-!
DEFINITION. Operations of one core: registers, performance counters (20), the store buffer and the write-combining
buffers (04/R123-R127, 05/R151), and exception, interrupt and machine-check entry (03/R110, 17/R513).
-/
namespace Sys2Proof.Machine

/-! ## Registers (02/R30-R34) -/

/-- g0 reads zero (02/R31). -/
def Ctx.rd (x : Ctx) (r : Nat) : W64 := if r = 0 then 0 else x.g.get 0 r
/-- A write to g0 is discarded (02/R31). -/
def Ctx.wr (x : Ctx) (r : Nat) (v : W64) : Ctx := if r = 0 then x else { x with g := x.g.set r v }
/-- p0 reads true (02/R32). -/
def Ctx.rdp (x : Ctx) (r : Nat) : Bool := if r = 0 then true else x.p.get false r
/-- A write to p0 is discarded (02/R32). -/
def Ctx.wrp (x : Ctx) (r : Nat) (b : Bool) : Ctx := if r = 0 then x else { x with p := x.p.set r b }
def Ctx.step (x : Ctx) : Ctx := { x with pc := x.pc + 4 }
def Core.vr (c : Core) (r : Nat) : W256 := c.v.get 0 r

/-! ## Counters (20/R558-R565) -/

/-- The amount an event adds. -/
def evAmount (evs : List (Nat × Nat)) (code : Nat) : Nat :=
  evs.foldl (fun a e => if e.1 = code then a + e.2 else a) 0
/-- PMC_n steps: its own events by the level filter, or the wraps of the counter below when chained (20/R561-R563).
The accumulator carries the core, the wraps of the counter below if it chains, and whether an interrupt is due. -/
def pmOne (priv : Bool) (evs : List (Nat × Nat)) (acc : Core × Option Nat × Bool) (n : Nat) : Core × Option Nat × Bool :=
  let (c, carry, irq) := acc
  let sel := c.sysr (0x88 + n)
  let own := if tbit sel (if priv then 20 else 21) then evAmount evs (fld sel 7 0) else 0
  let amt := if tbit (c.sysr 0x80) n then carry.getD own else 0
  let v := (c.sysr (0x90 + n)).toNat + amt
  let c := if amt = 0 then c else c.setSys (0x90 + n) (w64 v)
  let wraps := v / 2 ^ 64
  if tbit sel 23 && n != 7 then (c, some wraps, irq)
  else if wraps = 0 then (c, none, irq)
  else (c.setSys 0x81 (setFld (c.sysr 0x81) n n 1), none, irq || tbit sel 22)
/-- The compatibility bank and the beat counter (20/R564). -/
def legAdd (evs : List (Nat × Nat)) (c : Core) : Core :=
  { c with leg := evs.foldl (fun m e => if e.1 < 48 then m.set e.1 ((m.get 0 e.1 + e.2) % 2 ^ 48) else m) c.leg,
           beat := c.beat + w64 (evAmount evs 0) }
/-- Events counted at a core at one level (20/R559-R564); an overflow interrupt sets its S vector pending. -/
def Core.count (c : Core) (priv : Bool) (evs : List (Nat × Nat)) : Core :=
  let (c, _, irq) := (List.range 8).foldl (pmOne priv evs) (legAdd evs c, none, false)
  if irq then
    let ctl := c.sysr 0x80
    let c := { c with svec := bankSet c.svec (fld ctl 31 24) true }
    if tbit ctl 16 then c.setSys 0x80 (setFld ctl 7 0 0) else c
  else c
/-- Counters, beat counter and bank at their reset values (20/R565). -/
def Core.clearCounters (c : Core) : Core :=
  { c with sys := c.sys.filter (fun p => p.1 < 0x80 ∨ 0xC0 ≤ p.1), leg := [], beat := 0 }

/-- The class-S and class-B events of one instruction: what the manual fixes, and a free amount beside it (20/R559;
log entry 7). -/
def State.specEvents (s : State) (base : List (Nat × Nat)) : State × List (Nat × Nat) :=
  (s.spend,
    base ++ [(0x30, 1), (0x00, Config.free .beatCount s.free)] ++
      ([0x27, 0x28, 0x29, 0x2A, 0x2B, 0x2C, 0x2D, 0x2E, 0x2F, 0x30, 0x32, 0x33, 0x35, 0x36, 0x37, 0x38, 0x39, 0x3A, 0x3B].map
        fun k => (k, Config.free .specCount (64 * s.free + k))))

/-! ## Entry (03/R110, 17/R513) -/

/-- Hardware writes fields of SYS_STATUS: of a write that has not taken effect, only the fields of `keep` still wait for
ISYNC (03/R97; log entry 8). -/
def Core.overtake (c : Core) (keep : W64) : Core :=
  { c with pend := c.pend.map fun q => if q.reg = 0 then { q with mask := q.mask &&& keep } else q }

/-- The status word at entry: ppriv, pie saved; S with interrupts off (03/R110). -/
def entryStatus (st : W64) : W64 :=
  setFld (setFld (setFld (setFld st 2 2 (fld st 0 0)) 3 3 (fld st 1 1)) 0 0 1) 1 1 0
def vecTarget (v : W64) : W64 := v &&& ~~~ 3#64

/-- Exception or interrupt entry of a core, one step (03/R110). -/
def Core.enter (c : Core) (cause eaddr einfo : W64) : Core :=
  let c := { c.overtake 0x10 with x := { c.x with pc := vecTarget (c.sysr 5) } }
  (((c.setSys 1 cause).setSys 3 eaddr).setSys 4 einfo).setSys 0 (entryStatus (c.sysr 0))

/-- A write-combining buffer drains: its bytes go to memory at the home slice, or to the device; a line that has become
reserved takes nothing (05/R151, R155; 01/R29). -/
def State.wcDrain (s : State) (n : Nat) (b : WcBuf) : State :=
  match s.region (64 * b.line) with
  | .dram | .cxl _ =>
    let s := s.homeWrite b.line
    let s := if s.fencedLine b.line then s.fencedWrite (s.creelOf n) b.line else s.store b.bytes
    match s.creelOf n with | some cr => s.capture cr n [b.line] | none => s
  | .reserved => match s.creelOf n with | some cr => s.creelError cr 2 1 0x12 (64 * b.line) n 0 | none => s
  | _ => s.postStore (s.creelOf n) b.bytes
/-- Every write-combining buffer of a core drains (05/R151); each drain is a class-S event (20/R560). -/
def State.wcDrainAll (s : State) (n : Nat) : State :=
  let bufs := (s.core n).wc
  let s := bufs.foldl (fun s b => s.wcDrain n b) s
  s.modCore n fun c => { c with wc := [] }.count c.priv [(0x3B, bufs.length)]

/-- An exception of a core at its present pc: SYS_EPC, then entry (03/R110); the write-combining buffers drain. -/
def State.takeExc (s : State) (n code : Nat) (eaddr : Option W64) (einfo : W64) : State :=
  let s := s.wcDrainAll n
  let ea := eaddr.getD (w64 (s.drawn .unstated))
  (s.spend).modCore n fun c => ((c.setSys 2 c.x.pc).enter (w64 code) ea einfo).count c.priv [(0x20, 1)]

/-- The wait for strict stores is left to the code that is interrupted: it goes on after ERET (05/R174). -/
def Core.leaveFence (c : Core) : Core := { c with ioFence := false, ioSaved := c.ioFence || c.ioSaved }
/-- An interrupt of a core: the highest pending S vector is taken and cleared (03/R110, 17/R502). -/
def State.takeIntr (s : State) (n vec : Nat) : State :=
  let s := s.wcDrainAll n
  let ea := w64 (s.drawn .unstated)
  (s.spend).modCore n fun c =>
    let c := { c.leaveFence with svec := bankSet c.svec vec false }
    ((c.setSys 2 c.x.pc).enter (setFld (w64 vec) 63 63 1) ea 0).count c.priv [(0x21, 1)]

/-- SYS_MCSTATUS at a machine check (17/R513, R514). -/
def mcStatus (st : W64) (kind seq : Nat) : W64 :=
  setFld (setFld (setFld (setFld (setFld 0 3 0 kind) 5 5 (fld st 0 0)) 6 6 (fld st 1 1)) 7 7 1) 63 32 seq

/-! ## The store buffer (04/R123-R127) -/


/-- A byte store to memory of a given type from the head of the buffer (04/R123; 05/R149, R151, R155; 01/R29;
08/R251; 17/R517). -/
def State.performStore (s : State) (n : Nat) (mt : MemType) (bytes : FMap Byte) (k : Nat := 1) : State :=
  let lines := ((mapKeys bytes).map (· / 64)).eraseDups
  let cr := s.creelOf n
  let gone := bytes.any fun p => s.region p.1 = .reserved
  if gone then
    match cr with | some c => s.creelError c 2 1 0x12 ((mapKeys bytes).headD 0) n 0 | none => s
  else
  match mt with
  | .wb =>
    let s := lines.foldl (fun s l =>
      let (s, src) := s.cohOwn (s.tileOf n) l cr
      if src = .memory ∧ s.fencedLine l then s.markPoison l else s) s
    let s := s.store bytes
    match cr with | some c => s.capture c n lines | none => s
  | .wc =>
    let held := fun l => if some l = lines.head? then k else 0
    lines.foldl (fun s l =>
      let mine : FMap Byte := bytes.filter fun p => p.1 / 64 = l
      let c := s.core n
      match c.wc.find? fun b => b.line = l with
      | some b =>
        let b' : WcBuf := { b with bytes := mapMerge b.bytes mine, stores := b.stores + held l }
        if b'.bytes.length = 64 then
          (s.modCore n fun c => { c with wc := c.wc.filter (fun d => d.line ≠ l) }.count c.priv [(0x3B, 1)]).wcDrain n b'
        else s.modCore n fun c => { c with wc := c.wc.map fun d => if d.line = l then b' else d }
      | none =>
        let nb : WcBuf := { line := l, bytes := mapMerge [] mine, stores := held l }
        let s := if c.wc.length < 8 then s else match c.wc with
          | v :: r => (s.modCore n fun c => { c with wc := r }.count c.priv [(0x3B, 1)]).wcDrain n v
          | [] => s
        if nb.bytes.length = 64 then (s.modCore n fun c => c.count c.priv [(0x3B, 1)]).wcDrain n nb
        else s.modCore n fun c => { c with wc := c.wc ++ [nb] }) s
  | .uc =>
    match s.region ((mapKeys bytes).headD 0) with
    | .dram | .cxl _ =>
      let s := lines.foldl State.homeWrite s
      let bad := lines.filter s.fencedLine
      let s := s.store (bytes.filter fun p => !bad.contains (p.1 / 64))
      let s := bad.foldl (fun s l => s.fencedWrite cr l) s
      match cr with
      | some c => s.capture c n lines
      | none => s
    | _ => s.postStore cr bytes
  | .dev | .strict => s.postStore cr bytes

/-- The miss buffers that hold some lines are free again (04/R123). -/
def State.releaseMiss (s : State) (t : Nat) (lines : List Nat) : State :=
  if (s.tile t).miss = [] then s else s.setTile t { s.tile t with miss := (s.tile t).miss.filter fun l => !lines.contains l }
/-- The head entry drains (04/R123). A release-marked entry first drains the write-combining buffers (05/R151). -/
def State.drainHead (s : State) (n : Nat) : State :=
  match (s.core n).sb with
  | [] => s
  | e :: r =>
    let s := s.modCore n fun c => { c with sb := r }
    let s := if e.release then s.wcDrainAll n else s
    let s := s.releaseMiss (s.tileOf n) ((mapKeys e.bytes).map (· / 64))
    s.performStore n e.mt e.bytes e.stores
/-- The first k entries drain, in program order. -/
def State.drainN (s : State) (n : Nat) : Nat → State
  | 0 => s
  | k + 1 => (s.drainHead n).drainN n k
def State.drainAll (s : State) (n : Nat) : State := s.drainN n (s.core n).sb.length

def overlaps (m : FMap Byte) (addrs : List Nat) : Bool := addrs.any fun a => m.has a
/-- How many entries stand up to and including the youngest that satisfies a test. -/
def upToLast (sb : List SbEntry) (p : SbEntry → Bool) : Nat :=
  match (sb.reverse.findIdx? p) with
  | some i => sb.length - i
  | none => 0
def State.drainOver (s : State) (n : Nat) (addrs : List Nat) : State :=
  s.drainN n (upToLast (s.core n).sb fun e => overlaps e.bytes addrs)
/-- Marked accesses are performed in order: what a release-marked store waits for is drained (05/R153). -/
def State.drainReleases (s : State) (n : Nat) : State :=
  s.drainN n (upToLast (s.core n).sb fun e => e.release)
/-- No younger store merges into an entry that stands now (04/R124). -/
def State.sealSb (s : State) (n : Nat) : State :=
  s.modCore n fun c => { c with sb := c.sb.map fun e => { e with sealed := true } }

/-- The entry into which a store to one line of WB memory merges: of that line alone, plain, before no barrier, and with no
younger entry that holds one of the bytes (04/R124). -/
def mergeSlot (sb : List SbEntry) (line : Nat) (bytes : FMap Byte) : Option Nat :=
  (List.range sb.length).find? fun i =>
    match sb.drop i with
    | e :: r => e.mt = .wb && !e.sealed && !e.release && e.bytes.all (fun p => p.1 / 64 = line) &&
        r.all fun y => !overlaps y.bytes (mapKeys bytes)
    | [] => false
/-- A store enters the buffer; it merges into an older entry of the same line of WB memory, where R124 allows it. A
full buffer waits for its head (04/R113, R123, R124). `k`: 0 for the second half of a store that crosses a page. -/
def State.pushStore (s : State) (n : Nat) (mt : MemType) (bytes : FMap Byte) (release : Bool) (k : Nat := 1) : State :=
  let sb := (s.core n).sb
  let line := (mapKeys bytes).headD 0 / 64
  let can := mt = .wb ∧ !release ∧ bytes.all (fun p => p.1 / 64 = line)
  match (if can then mergeSlot sb line bytes else none) with
  | some i => s.modCore n fun c =>
      { c with sb := c.sb.mapIdx fun j e =>
          if j = i then { e with bytes := mapMerge e.bytes bytes, stores := e.stores + k } else e }
  | none =>
    let s := if 128 ≤ sb.length then s.drainHead n else s
    let s := if release then s.sealSb n else s
    s.modCore n fun c =>
      { c with sb := c.sb ++ [{ mt := mt, bytes := bytes, sealed := release, release := release, stores := k }] }

end Sys2Proof.Machine
end

