-- ==== Sys2Proof/Machine/Mailbox.lean ====
section
/-!
DEFINITION. The mailbox mechanism of the Stake (10/R276-R292): pages, doorbells, completions, the error budget.
-/
namespace Sys2Proof.Machine

def State.port (s : State) (p : Nat) : MbxPort := s.stake.ports.get portReset p
def State.setPort (s : State) (p : Nat) (x : MbxPort) : State :=
  s.modStake fun k => { k with ports := k.ports.set p x }
def State.modPort (s : State) (p : Nat) (f : MbxPort → MbxPort) : State := s.setPort p (f (s.port p))
/-- A retirement: its entry in the reserve report, the device log, and the notice to every creel that uses the unit
(19/R553, R557). -/
def State.retiredRec (s : State) (kind old new : Nat) (uses : Nat → Bool) : State :=
  let e : Retired := { kind := kind, old := old, new := new, sec := s.hoop.sec }
  let s := { s with reserve := { s.reserve with recent := (e :: s.reserve.recent).take 16 } }
  ((List.range 64).filter fun c => (s.creel c).st != .unassigned && uses c).foldl (fun s c => s.notice c 5 5) (s.note 0xA kind (old * 4096 + new))

/-- A Hamper unit is retired: a reserve unit of its class takes its number while there is one, and below 60 % it goes out of
service without (19/R550, R552). -/
def hamperClass (e : Nat) : Nat := if e < 24 then 0 else if e < 48 then 1 else if e < 56 then 2 else 3
def hamperReserve : Nat → Nat | 0 => 4 | 1 => 4 | _ => 2
def State.retireHamper (s : State) (e margin : Nat) : State :=
  let k := hamperClass e
  let n := s.reserve.hamper.get 0 k
  if n < hamperReserve k then ({ s with reserve := { s.reserve with hamper := s.reserve.hamper.set k (n + 1) } }).retiredRec 6 e n
    fun c => s.ringHolder.any fun p => p.2 == c
  else
    let s := s.note 6 e 0
    if margin < 60 then { s with reserve := { s.reserve with out := s.reserve.out ++ [(6, e)] } } else s
/-- A flash block is rewritten to a reserve block (19/R552). -/
def State.retireBlock (s : State) (flash blk : Nat) : State :=
  let n := s.reserve.flash.get 0 flash
  let s : State := { s with reserve := { s.reserve with flash := s.reserve.flash.set flash (n + 1) } }
  s.retiredRec 8 (blk % 4096) n fun _ => false

/-! ## The authority table (10/R276, R286, R287) -/

def roleOfSlot (p : Nat) : Nat :=
  if p < 64 then 2 else if p = 64 then 1 else if p ≤ 66 then 3 else if p = 67 then 4 else if p ≤ 69 then 5
  else if p = 70 then 6 else 0
/-- The entry of a slot: role and the creel of a tenant slot are fixed; the rest as PAT_WRITE left it. An entry nobody
wrote is enabled and device-wide (log entry 1: the manual gives X). -/
def State.patEntry (s : State) (p : Nat) : W64 :=
  let w := s.stake.pat.get (w64 0x8040) p
  let w := setFld w 14 12 (roleOfSlot p)
  if p < 64 then setFld w 6 0 p else w
def patEnabled (w : W64) : Bool := tbit w 15
def patCreel (w : W64) : Nat := fld w 6 0

/-! ## The error budget (10/R292) -/

/-- A failed count of a port: counts older than a second fall out. The officer port's budget is not kept. -/
def State.countFail (s : State) (p : Nat) : State :=
  if p = 64 then s
  else s.modPort p fun x => { x with counts := s.clock :: x.counts.filter fun t => s.clock < t + secs 1 }

/-! ## Port accesses (10/R277, R281-R285) -/

/-- A port writes a word of a command slot: discarded and counted while the Stake owns the slot. -/
def State.mbxSlotWrite (s : State) (p ix : Nat) (v : W64) : State :=
  if (s.port p).owner.testBit (ix / 24) then s.countFail p
  else s.modPort p fun x => { x with words := x.words.set ix v }
/-- MBX_DOORBELL: the named slots the Stake does not own pass to it, in ascending order. -/
def State.mbxDoorbell (s : State) (p : Nat) (v : W64) : State :=
  let x := s.port p
  if !s.stake.up ∨ x.suspended.isSome then s
  else
    let new := (List.range 16).filter fun k => tbit v k && !x.owner.testBit k
    s.setPort p { x with owner := x.owner ||| (v.toNat % 65536), queue := x.queue ++ new }
/-- MBX_CQ_CONS: ignored when prod − cons would be negative or above 16 (10/R284). -/
def State.mbxCqCons (s : State) (p : Nat) (v : W64) : State :=
  let x := s.port p
  let c := fld v 31 0
  if s.stake.up ∧ (x.prod + 2 ^ 32 - c) % 2 ^ 32 ≤ 16 then s.setPort p { x with cons := c } else s
/-- The release of the firmware that runs, from the header of its slot (18/R524); release 3.2 where no slot ran. -/
def State.fwRelease (s : State) : Nat :=
  let b := (s.stake.imgs.get imgReset s.stake.upd.running).bytes
  if b = [] then 0x0302 else leNat ((b.drop 0x0C).take 2)
def mbxStatus (s : State) (p : Nat) : W64 :=
  let e := s.patEntry p
  w64 (s.fwRelease % 65536 * 2 ^ 48 + s.bbkm.life % 16 * 2 ^ 16 + b2n (s.port p).suspended.isSome * 2 ^ 15 + b2n (patEnabled e) * 2 ^ 14 +
    roleOfSlot p * 2 ^ 11 + patCreel e)
/-- A read of a mailbox page; every register reads zero while the mailboxes are inactive (10/R275). The reserved fields of word 1 of a
slot read zero (00/R8, 10/R279); the Stake's check of them sees what was written (R289; log entry 143). -/
def State.mbxRead (s : State) (p off : Nat) : W64 :=
  if !s.stake.up ∨ 71 ≤ p then 0 else
  let x := s.port p
  if off < 0xC00 then (if off / 8 % 24 = 1 then x.words.get 0 (off / 8) &&& 0xFF00FF else x.words.get 0 (off / 8))
  else if off = 0xC08 then w64 x.owner
  else if off = 0xC10 then w64 x.prod
  else if off = 0xC18 then w64 x.cons
  else if off = 0xC20 then mbxStatus s p
  else if 0xE00 ≤ off then x.ring.get 0 ((off - 0xE00) / 8)
  else 0
/-- A write to a mailbox page; one to a reserved slot's page is recorded in the device log (10/R276). -/
def State.mbxWrite (s : State) (p off : Nat) (v : W64) : State :=
  if !s.stake.up then s
  else if 71 ≤ p then s.note 0xA p off
  else if off < 0xC00 then s.mbxSlotWrite p (off / 8) v
  else if off = 0xC00 then s.mbxDoorbell p v
  else if off = 0xC18 then s.mbxCqCons p v
  else s

/-! ## Completions (10/R280, R281, R284) -/

/-- A command ends: its completion waits for the ring. Refused and malformed commands count (10/R292). -/
def State.complete (s : State) (c : Cmd) (status : Nat) (result : W64) (reply : List W64) : State :=
  let s := if status / 256 = 1 ∨ status / 256 = 2 then s.countFail c.port else s
  s.modPort c.port fun x =>
    { x with comps := x.comps ++ [{ slot := c.slot, tag := c.tag, status := status, irq := c.irq,
                                    result := if reply = [] then result else w64 (8 * reply.length), reply := reply }] }
/-- The oldest completion of a port is written once the ring has room: reply, entry, count, owner bit, event. -/
def State.mbxPost (s : State) (p : Nat) : State :=
  let x := s.port p
  match x.comps with
  | [] => s
  | c :: r =>
    if 16 ≤ (x.prod + 2 ^ 32 - x.cons) % 2 ^ 32 then s
    else
      let i := 4 * (x.prod % 16)
      let words := (c.reply.zipIdx).foldl (fun m (w : W64 × Nat) => m.set (24 * c.slot + 2 + w.2) w.1) x.words
      let ring := ((((x.ring.set i (w64 (c.tag * 2 ^ 32 + c.status * 2 ^ 16 + c.slot * 2 ^ 8))).set (i + 1) (w64 s.hoop.sec)).set
        (i + 2) (w64 (s.hoop.st * 2 ^ 32 + s.hoop.frac))).set (i + 3) c.result)
      let s := s.setPort p { x with words := words, ring := ring, prod := (x.prod + 1) % 2 ^ 32, comps := r,
                                    owner := if x.owner.testBit c.slot then x.owner - 2 ^ c.slot else x.owner }
      if p < 64 ∧ c.irq then s.raiseFixed 4 p else s
/-- A started command that waited ends. -/
def State.finishRun (s : State) (sel : RunCmd → Bool) (status : Nat) (result : W64) : State :=
  let done := s.stake.started.filter sel
  done.foldl (fun s r => s.complete r.cmd status result [])
    (s.modStake fun k => { k with started := k.started.filter fun r => !sel r })

end Sys2Proof.Machine
end

