-- ==== Sys2Proof/Machine/Seal.lean ====
section
/-!
DEFINITION. The sealed-field buffer (13/R397-R402): shares, handles, validity, zeroization.
-/
namespace Sys2Proof.Machine

/-- Quotas at reset: key-cache and sealed-field shares have defaults (11/R323, 13/R398), the others none. -/
def quotaReset : Nat → Nat | 7 => 960 | 8 => 512 | _ => 0
def State.quota (s : State) (cr kind : Nat) : Nat := (s.creel cr).quota.get (quotaReset kind) kind

def sealEntReset : SealEnt := { creel := 0, gen := 0, seq := 0, entries := 0, bytes := [], emittable := false }
/-- A seal handle: creel, generation, first entry (13/R399). -/
def sealHandle (ix : Nat) (e : SealEnt) : Nat := e.creel % 64 * 2 ^ 26 + e.gen % 1024 * 2 ^ 16 + ix % 2 ^ 16
/-- The field a handle names for the job that runs on a sequencer (13/R400). `sq`: 4 × unit + sequencer. -/
def State.sealOf (s : State) (sq : Option Nat) (cr h : Nat) : Option SealEnt :=
  let ix := h % 65536
  if s.seals.has ix then
    let e := s.seals.get sealEntReset ix
    if h = sealHandle ix e ∧ e.creel = cr ∧ sq = some e.seq then some e else none
  else none
def State.sealGet (s : State) (sq : Option Nat) (cr h : Nat) : Option Bytes := (s.sealOf sq cr h).map (·.bytes)
/-- A field enters the creel's share, at entries the seal router chooses; none: the share would be exceeded or the job has
created 64 fields (13/R398). -/
def State.sealPut (s : State) (sq : Option Nat) (cr : Nat) (b : Bytes) (emittable : Bool) : Option (State × Nat) :=
  match sq with
  | none => none
  | some q =>
    let n := max 1 ((b.length + 63) / 64)
    let used := s.seals.foldl (fun a p => if p.2.creel = cr then a + p.2.entries else a) 0
    let mine := (s.seals.filter fun p => p.2.seq = q).length
    if s.quota cr 8 < used + n ∨ 64 ≤ mine then none
    else
      let st := s.drawn .unstated % 32768
      match (upto st 32768).find? fun i => !s.seals.has (i % 32768) with
      | none => none
      | some i =>
        let ix := i % 32768
        let g := s.sealGen.get 0 ix % 1023 + 1
        let e : SealEnt := { creel := cr, gen := g, seq := q, entries := n, bytes := b, emittable := emittable }
        some ({ s.spend with seals := s.seals.set ix e, sealGen := s.sealGen.set ix g }, sealHandle ix e)
/-- Every field of a sequencer's job is zeroized (13/R400). -/
def State.sealDrop (s : State) (q : Nat) : State := { s with seals := s.seals.filter fun p => p.2.seq ≠ q }

end Sys2Proof.Machine
end

