-- ==== Sys2Proof/Machine/Asym.lean ====
section
/-!
DEFINITION. Public-key algorithms over numbers: RSA (PKCS #1), ECDSA on P-256 and P-384 (FIPS 186-5), Ed25519
(RFC 8032) (12/R354, R368, R369).
-/
namespace Sys2Proof.Machine

/-! ## Modular arithmetic -/

def powModFrom (m : Nat) : Nat → Nat → Nat → Nat
  | 0, _, _ => 1 % m
  | k + 1, b, e => let r := powModFrom m k (b * b % m) (e / 2); if e % 2 = 1 then r * b % m else r
def powMod (m b e : Nat) : Nat := powModFrom m (Nat.log2 e + 1) (b % m) e
/-- The extended Euclidean algorithm, keeping the coefficient of the first number. -/
def invFrom (m : Int) : Nat → Int → Int → Int → Int → Int
  | 0, _, _, s, _ => s % m
  | k + 1, r0, r1, s0, s1 => if r1 = 0 then s0 % m else invFrom m k r1 (r0 % r1) s1 (s0 - r0 / r1 * s1)
/-- The inverse of a modulo m (0 where there is none that matters). -/
def invMod (m a : Nat) : Nat := (invFrom m (2 * Nat.log2 m + 4) (a % m : Nat) m 1 0).toNat

/-! ## RSA: the secret is the two primes, half the modulus length each (11/R313) -/

def rsaBytes : Nat → Nat | 0x20 => 256 | 0x21 => 384 | _ => 512
def rsaE : Nat := 65537
structure RsaPub where
  n : Nat
  e : Nat
  k : Nat
def rsaPubOf (b : Bytes) : RsaPub := { n := beNat (b.take (b.length - 4)), e := beNat (b.drop (b.length - 4)), k := b.length - 4 }
def rsaPubBytes (sec : Bytes) : Bytes :=
  let h := sec.length / 2
  toBe sec.length (beNat (sec.take h) * beNat (sec.drop h)) ++ toBe 4 rsaE
def rsaPriv (sec c : Bytes) : Bytes :=
  let h := sec.length / 2
  let p := beNat (sec.take h)
  let q := beNat (sec.drop h)
  let d := invMod (Nat.lcm (p - 1) (q - 1)) rsaE
  toBe sec.length (powMod (p * q) (beNat c) d)
def rsaPubOp (p : RsaPub) (s : Bytes) : Bytes := toBe p.k (powMod p.n (beNat s) p.e)
def mgf1 (h : Nat) (seed : Bytes) (len : Nat) : Bytes :=
  ((List.range (len + 1)).flatMap fun i => if len ≤ i * (hashLen h).getD 32 then [] else hashOf h (seed ++ toBe 4 i)).take len
/-- EMSA-PSS with a salt of the digest length: the modulus length is a multiple of eight bits. -/
def pssEncode (h k : Nat) (digest salt : Bytes) : Bytes :=
  let hh := hashOf h (List.replicate 8 0 ++ digest ++ salt)
  let db := List.replicate (k - salt.length - hh.length - 2) 0 ++ [1] ++ salt
  match xorBytes db (mgf1 h hh db.length) with
  | b :: r => (b &&& 0x7f) :: r ++ hh ++ [0xbc]
  | [] => []
def pssVerify (h : Nat) (digest em : Bytes) : Bool :=
  let hl := (hashLen h).getD 32
  let hh := (em.drop (em.length - hl - 1)).take hl
  let db := xorBytes (em.take (em.length - hl - 1)) (mgf1 h hh (em.length - hl - 1))
  let salt := db.drop (db.length - hl)
  em.length != 0 && em == pssEncode h em.length digest salt
/-- The DER prefix of a digest of PKCS #1 v1.5. -/
def digestInfo (h : Nat) : Bytes :=
  let (oid, len) : Byte × Byte := match h with
    | 1 => (1, 32) | 2 => (2, 48) | 3 => (3, 64) | 4 => (8, 32) | 5 => (9, 48) | _ => (10, 64)
  [0x30, len + 17, 0x30, 13, 6, 9, 0x60, 0x86, 0x48, 1, 0x65, 3, 4, 2, oid, 5, 0, 4, len]
def pkcs1Encode (h k : Nat) (digest : Bytes) : Bytes :=
  let t := digestInfo h ++ digest
  [0, 1] ++ List.replicate (k - t.length - 3) 0xff ++ [0] ++ t
/-- RSA-OAEP with SHA-384 and an empty label: the message, if the padding is right. -/
def oaepDecode (em : Bytes) : Option Bytes :=
  let h := 2
  let hl := 48
  let ms := (em.drop 1).take hl
  let md := em.drop (1 + hl)
  let seed := xorBytes ms (mgf1 h md hl)
  let db := xorBytes md (mgf1 h seed md.length)
  let rest := (db.drop hl).dropWhile (· == 0)
  if em.headD 1 = 0 ∧ db.take hl = hashOf h [] ∧ rest.headD 0 = 1 then some (rest.drop 1) else none

/-! ## Short Weierstrass curves with a = −3 -/

structure Curve where
  p : Nat
  n : Nat
  b : Nat
  gx : Nat
  gy : Nat
  len : Nat
def p256 : Curve :=
  { p := 0xffffffff00000001000000000000000000000000ffffffffffffffffffffffff,
    n := 0xffffffff00000000ffffffffffffffffbce6faada7179e84f3b9cac2fc632551,
    b := 0x5ac635d8aa3a93e7b3ebbd55769886bc651d06b0cc53b0f63bce3c3e27d2604b,
    gx := 0x6b17d1f2e12c4247f8bce6e563a440f277037d812deb33a0f4a13945d898c296,
    gy := 0x4fe342e2fe1a7f9b8ee7eb4a7c0f9e162bce33576b315ececbb6406837bf51f5, len := 32 }
def p384 : Curve :=
  { p := 0xfffffffffffffffffffffffffffffffffffffffffffffffffffffffffffffffeffffffff0000000000000000ffffffff,
    n := 0xffffffffffffffffffffffffffffffffffffffffffffffffc7634d81f4372ddf581a0db248b0a77aecec196accc52973,
    b := 0xb3312fa7e23ee7e4988e056be3f82d19181d9c6efe8141120314088f5013875ac656398d8a2ed19d2a85c8edd3ec2aef,
    gx := 0xaa87ca22be8b05378eb1c71ef320ad746e1d3b628ba79b9859f741e082542a385502f25dbf55296c3a545e3872760ab7,
    gy := 0x3617de4a96262c6f5d9e98bf9292dc29f8f41dbd289a147ce9da3113b5f0b8c00a60b1ce1d7e819d7a431d7c90ea0e5f, len := 48 }
/-- A point: none at infinity. -/
abbrev Pt := Option (Nat × Nat)
def ecAdd (c : Curve) : Pt → Pt → Pt
  | none, q => q
  | q, none => q
  | some (x1, y1), some (x2, y2) =>
    if x1 = x2 ∧ (y1 + y2) % c.p = 0 then none
    else
      let l := if x1 = x2 then (3 * x1 * x1 + (c.p - 3)) * invMod c.p (2 * y1) % c.p
        else (y2 + (c.p - y1)) * invMod c.p (x2 + (c.p - x1)) % c.p
      let x := (l * l + 2 * c.p - x1 - x2) % c.p
      some (x, (l * (x1 + (c.p - x)) + (c.p - y1)) % c.p)
def ecMulFrom (c : Curve) : Nat → Nat → Pt → Pt
  | 0, _, _ => none
  | k + 1, e, q => let r := ecMulFrom c k (e / 2) (ecAdd c q q); if e % 2 = 1 then ecAdd c r q else r
def ecMul (c : Curve) (e : Nat) (q : Pt) : Pt := ecMulFrom c (Nat.log2 e + 1) e q
def ecOn (c : Curve) (x y : Nat) : Bool := x < c.p && y < c.p && (y * y) % c.p == (x * x * x + (c.p - 3) * x + c.b) % c.p
def ecPub (c : Curve) (d : Nat) : Bytes :=
  match ecMul c d (some (c.gx, c.gy)) with
  | some (x, y) => [4] ++ toBe c.len x ++ toBe c.len y
  | none => []
def ecPoint (c : Curve) (b : Bytes) : Option (Nat × Nat) :=
  let x := beNat ((b.drop 1).take c.len)
  let y := beNat (b.drop (1 + c.len))
  if b.length = 1 + 2 * c.len ∧ b.headD 0 = 4 ∧ ecOn c x y then some (x, y) else none
/-- The integer of a digest: its leftmost bits, as many as the order has. -/
def ecDigest (c : Curve) (d : Bytes) : Nat := beNat (d.take c.len)
def ecdsaSign (c : Curve) (d k : Nat) (digest : Bytes) : Bytes :=
  match ecMul c k (some (c.gx, c.gy)) with
  | some (x, _) =>
    let r := x % c.n
    toBe c.len r ++ toBe c.len (invMod c.n k * (ecDigest c digest + r * d) % c.n)
  | none => []
def ecdsaVerify (c : Curve) (pub digest sig : Bytes) : Bool :=
  let r := beNat (sig.take c.len)
  let t := beNat (sig.drop c.len)
  match ecPoint c pub with
  | none => false
  | some q =>
    if sig.length ≠ 2 * c.len ∨ r = 0 ∨ c.n ≤ r ∨ t = 0 ∨ c.n ≤ t then false
    else
      let w := invMod c.n t
      match ecAdd c (ecMul c (ecDigest c digest * w % c.n) (some (c.gx, c.gy))) (ecMul c (r * w % c.n) (some q)) with
      | some (x, _) => x % c.n == r
      | none => false

/-! ## Ed25519 -/

def edP : Nat := 2 ^ 255 - 19
def edL : Nat := 2 ^ 252 + 27742317777372353535851937790883648493
def edD : Nat := (edP - 121665) * invMod edP 121666 % edP
def edAdd (a b : Nat × Nat) : Nat × Nat :=
  let t := edD * a.1 * b.1 * a.2 * b.2 % edP
  ((a.1 * b.2 + b.1 * a.2) * invMod edP (1 + t) % edP, (a.2 * b.2 + a.1 * b.1) * invMod edP (1 + (edP - t)) % edP)
def edMulFrom : Nat → Nat → Nat × Nat → Nat × Nat
  | 0, _, _ => (0, 1)
  | k + 1, e, q => let r := edMulFrom k (e / 2) (edAdd q q); if e % 2 = 1 then edAdd r q else r
def edMul (e : Nat) (q : Nat × Nat) : Nat × Nat := edMulFrom (Nat.log2 e + 1) e q
/-- The x coordinate of an encoded point, if there is one (RFC 8032, 5.1.3). -/
def edX (y sign : Nat) : Option Nat :=
  if edP ≤ y then none else
  let x2 := (y * y + (edP - 1)) * invMod edP (edD * y * y + 1) % edP
  if x2 = 0 then (if sign = 1 then none else some 0)
  else
    let x := powMod edP x2 ((edP + 3) / 8)
    let x := if x * x % edP = x2 then x else x * powMod edP 2 ((edP - 1) / 4) % edP
    if x * x % edP ≠ x2 then none else some (if x % 2 = sign then x else edP - x)
def edBase : Nat × Nat :=
  let y := 4 * invMod edP 5 % edP
  ((edX y 0).getD 0, y)
def edEnc (q : Nat × Nat) : Bytes := toLe 32 (q.2 + 2 ^ 255 * (q.1 % 2))
def edDec (b : Bytes) : Option (Nat × Nat) :=
  let v := leNat b
  (edX (v % 2 ^ 255) (v / 2 ^ 255)).map fun x => (x, v % 2 ^ 255)
/-- The secret scalar and the prefix of a seed. -/
def edScalar (seed : Bytes) : Nat × Bytes :=
  let h := sha512 seed
  let a := leNat (h.take 32)
  (2 ^ 254 + a % 2 ^ 254 / 8 * 8, h.drop 32)
def edPub (seed : Bytes) : Bytes := edEnc (edMul (edScalar seed).1 edBase)
def edSign (seed m : Bytes) : Bytes :=
  let (a, pre) := edScalar seed
  let pub := edEnc (edMul a edBase)
  let r := leNat (sha512 (pre ++ m)) % edL
  let rr := edEnc (edMul r edBase)
  let k := leNat (sha512 (rr ++ pub ++ m)) % edL
  rr ++ toLe 32 ((r + k * a) % edL)
def edVerify (pub m sig : Bytes) : Bool :=
  match edDec pub, edDec (sig.take 32) with
  | some a, some r =>
    let t := leNat (sig.drop 32)
    let k := leNat (sha512 (sig.take 32 ++ pub ++ m)) % edL
    sig.length == 64 && pub.length == 32 && decide (t < edL) && edMul t edBase == edAdd r (edMul k a)
  | _, _ => false

end Sys2Proof.Machine
end

