-- ==== Sys2Proof/Machine/Vault.lean ====
section
/-!
DEFINITION. The vault: key objects and their rules (11/R313-R324), sessions (R325, R326), random bits (R329-R331),
audit records (R332-R336), and the frame that every Hamper command runs in: the order of checks, use counts, the state
commit and the completion (11/R321, R327; 12/R343-R351).
-/
namespace Sys2Proof.Machine

/-! ## Attributes (11/R313, R314) -/

def attrAlg (w : W64) : Nat := fld w 63 56
def attrUsage (w : W64) : Nat := fld w 55 48
def attrExport (w : W64) : Nat := fld w 47 46
def attrKek (w : W64) : Bool := tbit w 45
def attrMirror (w : W64) : Bool := tbit w 44
def attrDual (w : W64) : Bool := tbit w 43
def attrPub (w : W64) : Bool := tbit w 42
def attrCreel (w : W64) : Nat := fld w 37 32
def KeyObj.alg (k : KeyObj) : Nat := attrAlg k.w0
def KeyObj.may (k : KeyObj) (bit : Nat) : Bool := tbit k.w0 bit
def isAes (a : Nat) : Bool := 1 ≤ a && a ≤ 3
def isRsa (a : Nat) : Bool := 0x20 ≤ a && a ≤ 0x22
def isMlDsa (a : Nat) : Bool := a == 0x30 || a == 0x31
def isKem (a : Nat) : Bool := a == 0x34 || a == 0x35
def isSlh (a : Nat) : Bool := a == 0x38 || a == 0x39
def isAsym (a : Nat) : Bool := isRsa a || a == 0x28 || a == 0x29 || a == 0x2A || isMlDsa a || isKem a || isSlh a
/-- The usage sets an algorithm allows, as masks of the usage byte (11/R314). -/
def algGroups (a : Nat) : List Nat :=
  if isAes a then [0x03, 0x04, 0x08, 0x10, 0x20]
  else if a = 0x08 then [0x02, 0x08, 0x10, 0x20]
  else if a = 0x10 then [0x08, 0x20]
  else if a = 0x20 then [0xC0]
  else if isRsa a then [0xC0, 0x04]
  else if isKem a then [0x04]
  else if isAsym a then [0xC0]
  else []
def usageOk (a u : Nat) (pubOnly : Bool) : Bool :=
  u != 0 && (algGroups a).any (fun m => u &&& m == u) && (!pubOnly || u == 0x80 || u == 0x04)
/-- A word 0 of attributes that R314 and R316 allow. -/
def attrOk (w : W64) : Bool :=
  usageOk (attrAlg w) (attrUsage w) (attrPub w) && attrExport w != 3 &&
    (!attrKek w || (attrAlg w == 3 && attrUsage w == 0x04))
/-- A template's must-be-zero fields: creel, public_only and the reserved ones (12/R352). -/
def templateMbz (w : W64) : Bool := fld w 42 42 = 0 && fld w 41 32 = 0 && fld w 31 0 = 0
/-- Key bytes of a symmetric algorithm; an HMAC key may have 16 to 64. -/
def keyLenOk (a n : Nat) : Bool :=
  if a = 0x10 then 16 ≤ n && n ≤ 64 else if isAes a || a == 8 then n == (match a with | 1 => 16 | 2 => 24 | 3 => 32 | _ => 16) else true
def cipherOf (a : Nat) (key : Bytes) : Cipher := if a = 8 then tdeaCipher key else aesCipher key
def kcvOf (a : Nat) (key : Bytes) : Nat :=
  if isAes a then beNat ((cmac (aesCipher key) (zeros 16)).take 3)
  else if a = 8 then beNat ((tdeaEnc key (zeros 8)).take 3) else 0
/-- Bytes brought to the length that their standard gives. -/
def fitLen (n : Nat) (b : Bytes) : Bytes := (b ++ zeros n).take n
/-- The length of the public part of a key (12/R354). -/
def pubLen (a : Nat) : Nat :=
  if isRsa a then rsaBytes a + 4 else match a with
    | 0x28 => 65 | 0x29 => 97 | 0x2A => 32 | 0x30 => 1952 | 0x31 => 2592 | 0x34 => 1184 | 0x35 => 1568 | 0x38 => 48 | 0x39 => 64 | _ => 0
/-- The public part of a secret (12/R354). -/
def publicOf (a : Nat) (sec : Bytes) : Bytes :=
  if isRsa a then rsaPubBytes sec
  else if a = 0x28 then ecPub p256 (beNat sec)
  else if a = 0x29 then ecPub p384 (beNat sec)
  else if a = 0x2A then edPub sec
  else if isAsym a then fitLen (pubLen a) (Config.pqPublic a sec) else []

/-! ## Handles and objects (11/R317) -/

def handleIx (h : W64) : Nat := fld h 21 0
def handleOf (gen cr ix : Nat) : W64 := w64 (gen % 2 ^ 24 * 2 ^ 40 + cr % 64 * 2 ^ 32 + ix % 2 ^ 22)
/-- The object a handle names for a creel. -/
def State.objOf (s : State) (cr : Nat) (h : W64) : Option KeyObj :=
  if h ≠ 0 ∧ s.vault.objs.has (handleIx h) then
    let k := s.vault.objs.get keyReset (handleIx h)
    if k.handle = h ∧ attrCreel k.w0 = cr then some k else none
  else none
def State.setObj (s : State) (k : KeyObj) : State :=
  s.modVault fun v => { v with objs := v.objs.set (handleIx k.handle) k }
def State.objCount (s : State) (cr : Nat) : Nat := (s.vault.objs.filter fun p => attrCreel p.2.w0 = cr).length
/-- A free record below the capacity whose reuse count is not spent; which one is not specified (11/R317). -/
def State.freeRecord (s : State) : Option Nat :=
  let c := s.vault.cap
  let st := s.drawn .unstated % max 1 c
  (upto st c).findSome? fun i =>
    let i := i % max 1 c
    if !s.vault.objs.has i ∧ s.vault.recGen.get 0 i < 0xFFFFFF then some i else none
/-- A new object from attribute words and material; none: the quota is reached. -/
def State.newObj (s : State) (cr : Nat) (w0 nb na lim : W64) (sec pub : Bytes) : Option (State × W64) :=
  if s.quota cr 6 ≤ s.objCount cr then none else
  match s.freeRecord with
  | none => none
  | some i =>
    let g := s.vault.recGen.get 0 i + 1
    let h := handleOf g cr i
    let w := setFld (setFld w0 37 32 cr) 42 42 (b2n (sec = [] ∧ isAsym (attrAlg w0)))
    let k : KeyObj := { w0 := w, notBefore := nb, notAfter := na, useLimit := lim, useCount := 0, kcv := kcvOf (attrAlg w) sec,
                        version := 1, handle := h, secret := sec, pub := pub, bad := false }
    some ((s.spend.modVault fun v => { v with recGen := v.recGen.set i g }).setObj k, h)
/-- Sealed key memory at the top of installed memory (11/R309). -/
def skmBytes (units : Nat) : Nat :=
  2 ^ 30 * (match units with | 0 => 0 | 1 => 2 | 4 => 6 | 16 => 21 | n => Config.skmRegion n)
def State.skmBase (s : State) : Nat := s.installed - skmBytes (s.vault.cap / 2 ^ 18)
/-- A key whose material is not cached is read from its record; a poisoned line makes the object unusable
(11/R311, R317, R324). -/
def State.keyFetch (s : State) (cr : Nat) (k : KeyObj) : State :=
  let ix := handleIx k.handle
  let at_ := s.skmBase + 4096 * ix
  if k.bad ∨ (s.vault.cache.get [] cr).contains ix ∨ !s.poisonedRange at_ (64 + k.secret.length + k.pub.length) then s
  else (s.setObj { k with bad := true }).deferredTo (some cr) 6 0x41 at_ 0 ix
/-- The cache entries of an object go when it changes or is destroyed (11/R320, R324). -/
def State.uncache (s : State) (ix : Nat) : State :=
  s.modVault fun v => { v with cache := v.cache.map fun p => (p.1, p.2.filter (· ≠ ix)) }
/-- Destruction: record and cache entries are overwritten (11/R320). -/
def State.destroy (s : State) (h : W64) : State :=
  (s.uncache (handleIx h)).modVault fun v => { v with objs := v.objs.erase (handleIx h) }
/-- Material enters the key cache: exact LRU over the creel's share (11/R323). -/
def State.cacheTouch (s : State) (cr ix : Nat) : State :=
  s.modVault fun v => { v with cache := v.cache.set cr (((ix :: (v.cache.get [] cr).filter (· ≠ ix))).take (s.quota cr 7)) }

/-! ## Random bits (11/R329-R331) -/

/-- An instance that has reached 65,536 requests or one second of Hoop time since it reseeded does so first (11/R330). -/
def Drbg.fresh (d : Drbg) (now : Nat) : Drbg := if 65536 ≤ d.requests ∨ d.since + secs 1 ≤ now then { requests := 0, since := now } else d
/-- n random bytes from an instance: free values. -/
def State.random (s : State) (inst n : Nat) : State × Bytes :=
  let d := (s.vault.drbg.get drbgReset inst).fresh s.now
  (s.spend.modVault fun v => { v with drbg := v.drbg.set inst { d with requests := d.requests + 1 } },
    toLe n (s.drawn .random))
/-- The secret of a new key of an algorithm: bytes for symmetric keys and seeds, a scalar for curves, primes for RSA. -/
def State.genSecret (s : State) (inst a hmacLen : Nat) : State × Bytes :=
  if isRsa a then
    let (s, r) := s.random inst 64
    let h := rsaBytes a / 2
    let (p, q) := Config.rsaPrimes (16 * h) (leNat r)
    (s, toBe h p ++ toBe h q)
  else if a = 0x28 ∨ a = 0x29 then
    let c := if a = 0x28 then p256 else p384
    let (s, r) := s.random inst (c.len + 8)
    (s, toBe c.len (1 + leNat r % (c.n - 1)))
  else
    let n := match a with
      | 1 => 16 | 2 => 24 | 3 => 32 | 8 => 16 | 0x10 => hmacLen | 0x2A => 32 | 0x30 => 32 | 0x31 => 32 | 0x34 => 64 | 0x35 => 64
      | 0x38 => 72 | _ => 96
    s.random inst n

/-! ## Sessions (11/R325, R326) -/

def State.session (s : State) (n : Nat) : Sess := s.vault.sess.get sessReset n
def State.setSession (s : State) (n : Nat) (x : Sess) : State := s.modVault fun v => { v with sess := v.sess.set n x }
def sessHandle (n gen : Nat) : Nat := gen % 2 ^ 20 * 4096 + n % 4096
/-- The open session a handle names for a creel, or why there is none (12/R350). -/
def State.sessionOf (s : State) (cr h : Nat) : Sum Nat Sess :=
  let x := s.session (h % 4096)
  if !s.vault.sess.has (h % 4096) ∨ x.gen % 2 ^ 20 ≠ h / 4096 ∨ x.creel ≠ cr then .inl 6
  else if x.closed ≠ 0 then .inl x.closed
  else if x.expiry ≠ BitVec.allOnes 64 ∧ x.expiry.toNat < s.hoop.sec then .inl 2
  else .inr x
/-- The session that a command names is open as the vault accepts the command: the command then completes whatever closes the session
later (11/R326). -/
def State.sessLive (s : State) (cr : Nat) (w1 : W64) : Bool := match s.sessionOf cr (fld w1 63 32) with | .inr _ => true | .inl _ => false
/-- A command of a session is counted, and a limit reached closes it. -/
def Sess.count (x : Sess) (failed : Bool) : Sess :=
  let x := { x with cmds := x.cmds + 1, fails := x.fails + b2n failed }
  if x.closed ≠ 0 then x
  else if x.maxCmd ≠ 0 ∧ x.maxCmd ≤ x.cmds then { x with closed := 3 }
  else if x.maxFail ≠ 0 ∧ x.maxFail ≤ x.fails then { x with closed := 4 }
  else x

/-! ## What a vault change sends to the partner (11/R327, 15/R447) -/

def State.objMsgs (s : State) (cr : Nat) (hs : List W64) : List PairMsg :=
  hs.filterMap fun h =>
    if h = 0 then none else
    match s.objOf cr h with
    | none => some (.noObject (Fin.ofNat 64 cr) h)
    | some k =>
      if attrMirror k.w0 then
        some (.object (Fin.ofNat 64 cr) [k.w0, k.notBefore, k.notAfter, k.useLimit, k.useCount, w64 k.kcv, k.version, k.handle] k.secret k.pub)
      else none
def State.sessMsg (s : State) (n : Nat) : PairMsg :=
  let x := s.session n
  .session (Fin.ofNat 64 x.creel) (Fin.ofNat 4096 n)
    ([w64 x.gen, w64 x.families, x.expiry, w64 x.maxCmd, w64 x.maxFail, w64 x.cmds, w64 x.fails, w64 x.closed] ++
      (List.range 16).map fun i => x.slots.get 0 i)
def State.chainMsg (s : State) (cr : Nat) : PairMsg := .chain (Fin.ofNat 64 cr) (s.chain cr).seq (s.chain cr).head

/-! ## The frame of a command (12/R345-R351) -/

def HCmd.w (c : HCmd) (i : Nat) : W64 := c.words.getD i 0
def HCmd.op (c : HCmd) : Nat := fld (c.w 0) 63 48
def HCmd.sess (c : HCmd) : Bool := tbit (c.w 0) 32
def HCmd.outSeal (c : HCmd) : Bool := tbit (c.w 0) 37
def HCmd.auxSeal (c : HCmd) : Bool := tbit (c.w 0) 36
def HCmd.inSeal (c : HCmd) : Bool := tbit (c.w 0) 35
def HCmd.inAddr (c : HCmd) : Nat := (c.w 4).toNat
def HCmd.inLen (c : HCmd) : Nat := fld (c.w 5) 63 32
def HCmd.outCap (c : HCmd) : Nat := fld (c.w 5) 31 0
def HCmd.outAddr (c : HCmd) : Nat := (c.w 6).toNat
def HCmd.auxAddr (c : HCmd) : Nat := (c.w 7).toNat
def HCmd.auxLen (c : HCmd) : Nat := fld (c.w 8) 63 32
/-- Bytes held in descriptor fields, first byte lowest (12/R345). -/
def HCmd.bytes (c : HCmd) (i n : Nat) : Bytes := ((upto i ((n + 7) / 8)).flatMap fun j => toLe 8 (c.w j).toNat).take n
/-- The sequencer whose job made the call, as 4 × unit + sequencer. -/
def HCmd.jobSeq (c : HCmd) : Option Nat := match c.origin with | .plaiter u k _ => some (4 * u + k) | _ => none
def HCmd.isRing (c : HCmd) : Bool := match c.origin with | .ring _ => true | _ => false

/-- How a command's own work ends. `out`: bytes for the output, `wipe`: the output range is zeroed instead. -/
structure HWork where
  s : State
  status : Nat := 0
  result : Option W64 := none
  out : Bytes := []
  wipe : Bool := false
  changes : Bool := false

/-- What a command is made of: the operands it uses (in, out, aux, key1, key2) and the parameter words that are not
must-be-zero, its checks in the order of R351, its need for random bits, and its work on the objects its keys name. -/
structure HSpec where
  useIn : Bool := false
  useOut : Bool := false
  useAux : Bool := false
  useK1 : Bool := false
  useK2 : Bool := false
  params : List Nat := []
  /-- may in name a sealed field (13/R401) -/
  sealIn : HCmd → Bool := fun _ => false
  sealAux : Bool := false
  sealOut : Bool := false
  /-- a Plaiter call of it must ask for a sealed result (13/R401) -/
  mustSeal : Bool := false
  inPlace : Bool := false
  /-- further ranges that the vault will write, given by address in the parameters -/
  ranges : HCmd → List (Nat × Nat) := fun _ => []
  /-- further checks of class 0x02 that no key decides; status and result -/
  fmt : HCmd → Option (Nat × W64) := fun _ => none
  /-- may key1, key2 be used this way (0x0102) -/
  may : HCmd → List KeyObj → Bool := fun _ _ => true
  /-- limits that depend on a key's algorithm -/
  limits : HCmd → List KeyObj → Option (Nat × W64) := fun _ _ => none
  /-- is the use counted under R321 -/
  counts : Bool := true
  approval : HCmd → List KeyObj → Bool := fun _ _ => false
  random : HCmd → List KeyObj → Bool := fun _ _ => false
  work : State → HCmd → List KeyObj → HWork

def overlapR (a n b m : Nat) : Bool := n != 0 && m != 0 && decide (a < b + m) && decide (b < a + n)
/-- The fields a seal handle leaves unused: its upper half, and the length, which comes from the field (13/R401). A seal
flag that the command does not take is left to check 2. -/
def HSpec.sealMbz (d : HSpec) (c : HCmd) : Bool :=
  !c.isRing &&
    ((c.inSeal && d.sealIn c && (fld (c.w 4) 63 32 != 0 || c.inLen != 0)) ||
      (c.auxSeal && d.sealAux && (fld (c.w 7) 63 32 != 0 || c.auxLen != 0)) ||
      (c.outSeal && d.sealOut && (c.w 6 != 0 || c.outCap != 0)))
/-- Check 1: format, must-be-zero fields, lengths and values, overlaps (12/R345, R347; log entry 36). -/
def HSpec.check1 (d : HSpec) (c : HCmd) : Option (Nat × W64) :=
  let z := fun (b : Bool) (w : W64) => b || w == 0
  let inMem := if d.useIn && !c.inSeal then c.inLen else 0
  let outMem := if d.useOut && !c.outSeal then c.outCap else 0
  let auxMem := if d.useAux && !c.auxSeal then c.auxLen else 0
  if fld (c.w 1) 31 24 ≠ 1 then some (0x0205, 0)
  else if fld (c.w 0) 47 38 ≠ 0 ∨ fld (c.w 1) 23 0 ≠ 0 ∨ fld (c.w 8) 31 0 ≠ 0 ∨ (!c.sess ∧ fld (c.w 1) 63 32 ≠ 0) ∨
      !z d.useK1 (c.w 2) ∨ !z d.useK2 (c.w 3) ∨ !z d.useIn (c.w 4) ∨ !(d.useIn || c.inLen = 0) ∨ !(d.useOut || c.outCap = 0) ∨
      !z d.useOut (c.w 6) ∨ !z d.useAux (c.w 7) ∨ !(d.useAux || c.auxLen = 0) ∨
      ((upto 9 7).any fun i => !d.params.contains i && c.w i != 0) ∨
      (c.sess ∧ ((d.useK1 && decide (16 ≤ (c.w 2).toNat)) || (d.useK2 && decide (16 ≤ (c.w 3).toNat)))) ∨
      d.sealMbz c then some (0x0203, 0)
  else (d.fmt c).or <| if (overlapR c.inAddr inMem c.outAddr outMem && !(d.inPlace && c.inAddr == c.outAddr && decide (c.inLen ≤ c.outCap))) ||
      overlapR c.inAddr inMem c.auxAddr auxMem || overlapR c.outAddr outMem c.auxAddr auxMem then some (0x0204, 0)
  else none
/-- A buffer by address: physical for a ring, local or physical for a Plaiter call (12/R351). -/
def State.bufOk (s : State) (c : HCmd) (a n : Nat) (write : Bool) : Bool :=
  n == 0 || (match c.origin with
    | .plaiter _ _ d =>
      if localBase ≤ a then
        if write then localWritable (a - localBase) n || (d == 64 && a == localBase + 0x20000 && decide (n ≤ 65536))
        else localReadable (a - localBase) n
      else s.dmaOk c.creel a n write
    | .ring _ => s.dmaOk c.creel a n write)
/-- Bytes of an operand by address, and the output written (13/R404); the ingest DMA writes the message store (13/R383). -/
def State.opRead (s : State) (c : HCmd) (a n : Nat) : Bytes :=
  match c.origin with
  | .plaiter u k _ => if localBase ≤ a then s.localRead u k (a - localBase) n else s.rdBytes a n
  | .ring _ => s.rdBytes a n
def State.opWrite (s : State) (c : HCmd) (a : Nat) (b : Bytes) : State :=
  match c.origin with
  | .plaiter u k d =>
    if d = 64 then s.modJob u k fun j => { j with msg := b }
    else if localBase ≤ a then s.localWrite u k (a - localBase) b
    else s.unitWrite c.creel a b
  | .ring _ => s.unitWrite c.creel a b
/-- Check 2: buffers and seal flags. -/
def HSpec.check2 (d : HSpec) (s : State) (c : HCmd) : Option (Nat × W64) :=
  let anySeal := c.inSeal || c.auxSeal || c.outSeal
  if (d.useIn && !c.inSeal && !s.bufOk c c.inAddr c.inLen false) || (d.useOut && !c.outSeal && !s.bufOk c c.outAddr c.outCap true) ||
      (d.useAux && !c.auxSeal && !s.bufOk c c.auxAddr c.auxLen false) || (d.ranges c).any (fun p => !s.dmaOk c.creel p.1 p.2 true) then
    some (0x0109, 0)
  else if (c.isRing && anySeal) || (c.inSeal && !d.sealIn c) || (c.auxSeal && !d.sealAux) || (c.outSeal && !d.sealOut) ||
      (!c.isRing && d.mustSeal && !c.outSeal) ||
      (c.inSeal && (s.sealGet c.jobSeq c.creel (fld (c.w 4) 31 0)).isNone) ||
      (c.auxSeal && (s.sealGet c.jobSeq c.creel (fld (c.w 7) 31 0)).isNone) then some (0x0108, 0)
  else none
/-- The command with the lengths of its sealed operands in their place, for the limits that a length has (13/R401). -/
def State.unsealed (s : State) (c : HCmd) : HCmd :=
  let len := fun w => ((s.sealGet c.jobSeq c.creel (fld w 31 0)).getD []).length
  let c := if c.inSeal then
      { c with words := (c.words.set 0 (setFld (c.w 0) 35 35 0)).set 5 (setFld (c.w 5) 63 32 (len (c.w 4))) }
    else c
  if c.auxSeal then { c with words := c.words.set 8 (setFld (c.w 8) 63 32 (len (c.w 7))) } else c
def creelCode : CreelSt → Nat | .unassigned => 0 | .stopped => 1 | .running => 2 | .resetting => 3 | .migrating => 4
/-- Check 3: creel state (a creel that moves completes what it has taken, 15/R462), session, family. -/
def State.check3 (s : State) (c : HCmd) : Option (Nat × W64) :=
  if (s.creel c.creel).st ≠ .running ∧ (s.creel c.creel).st ≠ .migrating then some (0x0303, w64 (creelCode (s.creel c.creel).st))
  else if c.sess then
    if c.live then (if (s.session (fld (c.w 1) 43 32)).families.testBit (c.op / 256 - 1) then none else some (0x0105, 0))
    else match s.sessionOf c.creel (fld (c.w 1) 63 32) with
      | .inl n => some (0x0301, w64 n)
      | .inr x => if x.families.testBit (c.op / 256 - 1) then none else some (0x0105, 0)
  else none
/-- The handle a key field names: itself, or the slot of the session. -/
def State.keyHandle (s : State) (c : HCmd) (i : Nat) : W64 :=
  if c.sess then (s.session (fld (c.w 1) 43 32)).slots.get 0 (fld (c.w i) 3 0) else c.w i
def HSpec.handles (d : HSpec) (s : State) (c : HCmd) : List W64 :=
  (if d.useK1 then [s.keyHandle c 2] else []) ++ (if d.useK2 then [s.keyHandle c 3] else [])
/-- The objects of the key operands; none: a handle names no object (check 4). -/
def State.objsOf (s : State) (cr : Nat) (hs : List W64) : Option (List KeyObj) := hs.mapM (s.objOf cr)
/-- Validity, limit (check 5; 11/R321, R322); a key that both key fields name is used twice. -/
def State.keyTimes (s : State) (uses : Nat) (k : KeyObj) : Option (Nat × W64) :=
  let ranged := k.notBefore ≠ 0 ∨ k.notAfter ≠ BitVec.allOnes 64
  if ranged ∧ s.hoop.st = 0 then some (0x0302, 0)
  else if s.hoop.sec < k.notBefore.toNat ∨ k.notAfter.toNat < s.hoop.sec then some (0x0103, 0)
  else if k.useLimit ≠ 0 ∧ k.useLimit.toNat < k.useCount.toNat + uses then some (0x0104, 0)
  else none
/-- A use is counted (11/R321). -/
def State.countUse (s : State) (cr : Nat) (h : W64) : State :=
  match s.objOf cr h with
  | some k => s.setObj { k with useCount := k.useCount + 1 }
  | none => s
/-- An approval of an open session for a handle or set and an operation, within ten minutes (11/R319). -/
def State.approvalIx (s : State) (cr : Nat) (name : W64) (op : Nat) : Option Approval :=
  if s.officer.isNone then none else
  s.stake.approvals.find? fun a => a.creel = cr ∧ a.name = name ∧ a.op = op ∧ a.by0 ∧ a.by1 ∧ s.clock < a.since + secs 600
def State.useApproval (s : State) (cr : Nat) (name : W64) (op : Nat) : State :=
  match s.approvalIx cr name op with
  | some a => s.modStake fun k => { k with approvals := k.approvals.filter (· ≠ a) }
  | none => s

/-- Commands of one ring, or calls of one job (12/R345, 13/R408). -/
def sameSender : HOrigin → HOrigin → Bool
  | .ring a, .ring b => a == b
  | .plaiter u k _, .plaiter v l _ => u == v && k == l
  | _, _ => false
/-- Does one command act on an object that another, accepted before it, still has to act on (11/R321)? -/
def conflict (a b : HCmd) : Bool :=
  a.creel == b.creel && ([a.w 2, a.w 3].any fun h => h != 0 && [b.w 2, b.w 3].contains h || a.sess || b.sess)
/-- The command that may run now: accepted, not yet run, with no earlier command in its way (12/R349). -/
def State.hReady (s : State) (id op : Nat) : Option HCmd :=
  match s.vault.active.find? fun c => c.id = id with
  | none => none
  | some c =>
    let earlier := s.vault.active.filter fun e => e.id < id
    let fenced := tbit (c.w 0) 34 && earlier.any fun e => sameSender e.origin c.origin
    if c.op = op ∧ c.out.isNone ∧ !fenced ∧ !(earlier.any fun e => e.taken && e.out.isNone && conflict e c) ∧
        (c.taken ∨ s.vaultOpen c.creel (c.w 0)) then
      some { c with taken := true, live := if c.taken then c.live else s.sessLive c.creel (c.w 1) }
    else none
/-- A call that the vault does not accept is held (11/R333). -/
def State.hHeld (s : State) (id : Nat) : State :=
  match s.vault.active.find? fun c => c.id = id with
  | none => s
  | some c => if c.out.isNone ∧ !c.taken ∧ !s.vaultOpen c.creel (c.w 0) then s.auditHold c.creel else s

def State.setHCmd (s : State) (c : HCmd) : State :=
  s.modVault fun v => { v with active := v.active.map fun d => if d.id = c.id then c else d }
/-- The command's work has ended (a status of class 0x07 in TRIAL fails the health checks, 18/R542): session counters, the state commit, its place in the completions (11/R325, R327). -/
def State.hEnd (s : State) (c : HCmd) (hs : List W64) (status : Nat) (result : W64) (changes : Bool) : State :=
  let failed := status ≠ 0
  let s := if status / 256 = 7 ∧ s.stake.upd.st = 3 then s.modStake fun m => { m with upd := { m.upd with failed := true } } else s
  let n := fld (c.w 1) 43 32
  let valid := c.sess ∧ s.vault.sess.has n
  let s := if valid ∧ (s.session n).creel = c.creel then s.setSession n ((s.session n).count failed) else s
  let ch := changes || c.sess
  let msgs := if ch ∧ s.role c.creel = 1 then
      s.objMsgs c.creel ((hs ++ (if c.op / 256 = 1 ∧ status = 0 then [result] else [])).eraseDups) ++
        (if valid then [s.sessMsg n] else []) ++ (if c.op = 0x0201 ∧ status = 0 then [s.sessMsg (fld result 11 0)] else [])
    else []
  let (s, waits, unm) := s.vaultCommit c.creel c.id msgs ch
  let cnt := match hs with
    | h :: _ => (match s.objOf c.creel h with | some k => k.useCount | none => 0)
    | [] => 0
  let o : HDone :=
    { status := status, result := result, waits := waits, unmirrored := unm, recorded := false, sec := s.hoop.sec, frac := s.hoop.frac,
      st := s.hoop.st, k1 := hs.getD 0 0, k2 := hs.getD 1 0, count1 := cnt, sess := if valid then some n else none }
  s.setHCmd { c with out := some o }

/-- A sealed result counts among the fields its job has created (13/R406). -/
def State.sealMade (s : State) (c : HCmd) (h : Nat) : State :=
  match c.origin with
  | .plaiter u k _ => s.modJob u k fun j => { j with seals := j.seals ++ [h] }
  | .ring _ => s
/-- The bytes of an input operand, by address or by seal handle. -/
def State.hIn (s : State) (c : HCmd) : Bytes :=
  if c.inSeal then (s.sealGet c.jobSeq c.creel (fld (c.w 4) 31 0)).getD [] else s.opRead c c.inAddr c.inLen
def State.hAux (s : State) (c : HCmd) : Bytes :=
  if c.auxSeal then (s.sealGet c.jobSeq c.creel (fld (c.w 7) 31 0)).getD [] else s.opRead c c.auxAddr c.auxLen
/-- The operands by address that a command reads from memory or a device. -/
def HSpec.reads (d : HSpec) (c : HCmd) : List (Nat × Nat) :=
  (if d.useIn && !c.inSeal && decide (c.inAddr < localBase) then [(c.inAddr, c.inLen)] else []) ++
    (if d.useAux && !c.auxSeal && decide (c.auxAddr < localBase) then [(c.auxAddr, c.auxLen)] else [])
/-- Does an operand read poisoned data that ends the command (0x0603)? -/
def HSpec.poison (d : HSpec) (s : State) (c : HCmd) : Bool := (d.reads c).any fun r => s.poisonedRange r.1 r.2 && !s.poisonTaken r.1
/-- The output of a command whose input came poisoned from a lane group that is not in service is stored marked (16/R480). -/
def HSpec.marks (d : HSpec) (s t : State) (c : HCmd) (len : Nat) : State :=
  if (d.reads c).any (fun r => s.poisonTaken r.1) && decide (c.outAddr < localBase) then (linesOf c.outAddr len).foldl State.markPoison t else t

/-- The frame: R351's order, then the counted use, then the work, its output and the end. A command that needs random
bits waits while the source is stopped and fails once it is declared failed (11/R331). -/
def hamper (op id : Nat) (d : HSpec) (s : State) : Out :=
  match s.hReady id op with
  | none => .next (s.hHeld id)
  | some c =>
    let hs := d.handles s c
    let stop := fun (r : Nat × W64) => Host.Outcome.next (s.hEnd c hs r.1 r.2 false)
    if s.vault.broken then stop (0x0701, 0) else
    match d.check1 c with
    | some r => stop r
    | none =>
    match d.check2 s c <|> d.fmt (s.unsealed c) with
    | some r => stop r
    | none =>
    match s.check3 c with
    | some r => stop r
    | none =>
    match s.objsOf c.creel hs with
    | none => stop (0x0101, 0)
    | some ks =>
    let s := ks.foldl (fun s k => s.keyFetch c.creel k) s
    let ks := (s.objsOf c.creel hs).getD ks
    let stop := fun (r : Nat × W64) => Host.Outcome.next (s.hEnd c hs r.1 r.2 false)
    if ks.any (·.bad) then stop (0x0602, 0)
    else if !d.may c ks then stop (0x0102, 0) else
    match d.limits (s.unsealed c) ks with
    | some r => stop r
    | none =>
    match (if d.counts then ks.findSome? fun k => s.keyTimes (hs.count k.handle) k else none) with
    | some r => stop r
    | none =>
    if d.approval c ks && (s.approvalIx c.creel (hs.headD 0) op).isNone then stop (0x0106, 0)
    else if d.random c ks && s.vault.entropy == 1 then .next (s.setHCmd { c with yielded := true })
    else
      let s := if d.approval c ks then s.useApproval c.creel (hs.headD 0) op else s
      let s := if d.counts then ks.foldl (fun s k => s.countUse c.creel k.handle) s else s
      let s := ks.foldl (fun s k => s.cacheTouch c.creel (handleIx k.handle)) s
      let changes := d.counts && !ks.isEmpty
      if d.random c ks && s.vault.entropy == 2 then .next (s.hEnd c hs 0x0702 0 changes)
      else if d.poison s c then
        .next (((d.reads c).foldl (fun s r => s.readFailed c.creel r.1 r.2) s).hEnd c hs 0x0603 0 changes)
      else
        let w := d.work s c ks
        let ch := changes || w.changes
        if w.status = 0 ∨ w.status = 1 then
          if c.outSeal ∧ w.status = 0 then
            match w.s.sealPut c.jobSeq c.creel w.out (c.op == 0x0401 || c.op == 0x0408) with
            | none => .next (s.hEnd c hs 0x0401 0 changes)
            | some (t, h) => .next ((t.sealMade c h).hEnd c hs 0 (w64 h) ch)
          else if w.wipe ∧ w.status = 1 then .next ((w.s.opWrite c c.outAddr (zeros c.outCap)).hEnd c hs w.status (w.result.getD 0) ch)
          else if w.out ≠ [] ∧ c.outCap < w.out.length then .next (s.hEnd c hs 0x0202 (w64 w.out.length) changes)
          else
            let t := if w.out = [] then w.s else d.marks s (w.s.opWrite c c.outAddr w.out) c w.out.length
            .next (t.hEnd c hs w.status (w.result.getD (w64 w.out.length)) ch)
        else .next (s.hEnd c hs w.status (w.result.getD 0) changes)

end Sys2Proof.Machine
end

