-- ==== Sys2Proof/Machine/Resets.lean ====
section
/-!
DEFINITION. What several units start from inside their own steps: the end of a program, the reset of a creel (09/R265,
R266), the release of its boot core (18/R530), the stop of the whole device (17/R518, R519; 18/R521), a read of the
Hoop (14/R424), the end of a cleaning (09/R264).
-/
namespace Sys2Proof.Machine

/-! ## Plaiter jobs seen from a sequencer (13/R376, R415-R417) -/

/-- The end of the addresses from which a sequencer fetches: the instruction memory of a Plaiter sequencer (13/R375), for a Hamper
sequencer the same size (log entry 34), for the Stake its ROM and then its SRAM (10/R273; log entry 140). -/
def seqImemSize (i : Nat) : Nat := if i = 86 then 0x480000 else 0x10000
def State.countInstr (s : State) (i : Nat) : State :=
  if isPlaiter i ∧ s.hasJob (unitOf i) (seqLane i) then s.modJob (unitOf i) (seqLane i) fun j => { j with instrs := j.instrs + 1 }
  else s
/-- A trace record of a completed instruction (13/R416): its pc, its beats, the register it wrote. -/
def State.traceInstr (s : State) (i : Nat) (pc : W64) (beats : Nat) (dest : Option Nat) : State :=
  match s.seqCreel i with
  | none => s
  | some cr =>
    let u := unitOf i
    let j := s.job u (seqLane i)
    let t := (s.pqs.get pqReset j.queue).trace
    let n := 256 * 2 ^ fld t 3 0
    let at_ := fld t 51 12 * 4096 + 16 * ((j.index * 4096 + (j.instrs - 1)) % n)
    let w0 := pc.toNat % 65536 + beats % 65536 * 2 ^ 16 + j.index % 65536 * 2 ^ 32 + (u * 256 + seqLane i) * 2 ^ 48
    let w1 := match dest with | some d => ((s.seq i).x.rd d).toNat | none => 0
    if s.dmaOk cr at_ 16 true then s.unitWrite cr at_ (toLe 8 w0 ++ toLe 8 w1)
    else s.creelError cr 2 7 0x42 at_ u 0

/-! ## A read of the Hoop (14/R424) -/

/-- Two reads of one agent give strictly increasing values: time has passed between them. -/
def State.hoopRead (s : State) : State × Nat × Nat × Nat :=
  let s := s.advance 1
  (s, s.hoop.sec, s.hoop.frac, s.hoop.st)

/-! ## Release of a creel (18/R530) -/

def bootRecReset : BootRec := { loadAddr := 0, length := 0, entry := 0, digest := [], autostart := false, retain := false }
/-- A core as a release leaves it; vectors already pending stay (17/R506). -/
def releasedCore (c : Core) (cr reason : Nat) (b : BootRec) (boot : Bool) : Core :=
  let g : FMap W64 := [(1, w64 cr), (2, w64 b.loadAddr), (3, w64 b.length), (4, w64 reason)]
  { coreReset with
    x := { g := g, p := [], pc := w64 (b.loadAddr + b.entry) }, sys := [(0, 1), (5, w64 (b.loadAddr + b.entry))],
    run := if boot then .running else .held, svec := c.svec, upend := c.upend, leg := c.leg, beat := c.beat,
    discarded := c.discarded }
/-- The counter registers of a core keep their values across a release that does not reset them (20/R565). -/
def keepCounters (old new : Core) : Core :=
  { new with sys := (old.sys.filter fun p => 0x80 ≤ p.1 && p.1 ≤ 0x99).foldl (fun m p => m.set p.1 p.2) new.sys }
/-- Segment entry 0 covers the image; the boot core runs and every other core is held. -/
def State.releaseCreel (s : State) (cr reason : Nat) : State :=
  let b := s.stake.boots.get bootRecReset cr
  let g : Seg := { w0 := w64 (b.loadAddr / 4096 * 4096 + 0xF), w1 := w64 ((b.loadAddr + b.length - 1) / 4096 * 4096) }
  let s := s.modCreel cr fun c => { c with segs := c.segs.set 0 g, st := .running }
  let cores := s.coresOf cr
  cores.foldl (fun s n => s.modCore n fun c =>
    let held := bankAny c.svec || bankAny c.upend
    keepCounters c (releasedCore c cr reason b (some n == cores.head? || held))) s

/-! ## The end of every program and command of a creel (09/R266 rows 2 and 3) -/

/-- The jobs of a unit end with no completion, and their sealed fields are zeroized (13/R400, R421). -/
def State.endUnit (s : State) (u : Nat) : State :=
  let s := (List.range 4).foldl (fun s k =>
    (s.modSeq (plaiterSeq u k) fun z => { z with run := false, ops := [], busy := [], miss := none, strict := [], ioFence := false }).sealDrop (4 * u + k)) s
  s.modUnit u fun x => { x with jobs := [], load := none }
def State.unitsOf (s : State) (cr : Nat) : List Nat := (s.unitCreel.filter fun p => p.2 = cr).map (·.1)

/-- Word 3 and word 4 of a command's audit record (11/R332). -/
def auditW3 (op status ring sess kind : Nat) (rv sv unm : Bool) : Nat :=
  op % 65536 * 2 ^ 48 + status % 65536 * 2 ^ 32 + (if rv then ring % 1024 else 0) * 2 ^ 22 + (if sv then sess % 4096 else 0) * 2 ^ 10 +
    kind % 4 * 2 ^ 8 + b2n rv * 4 + b2n sv * 2 + b2n unm
def HCmd.auditRec (c : HCmd) (s : State) (kind status : Nat) (o : HDone) : State :=
  let w0 := c.words.getD 0 0
  let (ring, rv, origin) := match c.origin with | .ring r => (r, true, 0) | .plaiter _ _ _ => (0, false, 1)
  s.auditAppend c.creel o.sec o.st o.frac (auditW3 (fld w0 63 48) status ring (o.sess.getD 0) kind rv o.sess.isSome o.unmirrored)
    (fld w0 31 0 * 2 ^ 32 + origin * 2 ^ 28) o.k1 o.k2 o.count1
def State.doneNow (s : State) : HDone :=
  { status := 0, result := 0, waits := false, unmirrored := false, recorded := false, sec := s.hoop.sec, frac := s.hoop.frac, st := s.hoop.st,
    k1 := 0, k2 := 0, count1 := 0, sess := none }
/-- A command of the creel meets the reset: one whose commit has begun keeps its effect and its record, unmirrored if the
partner has not answered; any other is abandoned with a record of kind 1. -/
def State.endHCmd (s : State) (c : HCmd) : State :=
  match c.out with
  | some o =>
    let s := if o.waits then (s.pairCount c.creel 63 48).pairBit c.creel 1 else s
    if o.recorded then s else c.auditRec s 0 o.status { o with unmirrored := o.unmirrored || o.waits }
  | none =>
    let sess := if tbit (c.words.getD 0 0) 32 ∧ s.vault.sess.has (fld (c.words.getD 1 0) 43 32) then some (fld (c.words.getD 1 0) 43 32) else none
    c.auditRec s 1 0x0304 { s.doneNow with sess := sess }
def State.endHamper (s : State) (cr : Nat) : State :=
  let (mine, rest) := s.vault.active.partition fun c => c.creel = cr
  let s := mine.foldl State.endHCmd s
  let s := s.modVault fun v => { v with active := rest }
  let s := s.modPair fun p => { p with commits := p.commits.filter fun c => !(mine.any fun h => c.who == .hamper h.id) }
  let open_ := (s.vault.sess.filter fun p => p.2.creel = cr ∧ p.2.closed = 0).map (·.1)
  let s := open_.foldl (fun s n => s.setSession n { s.session n with closed := 5 }) s
  if open_ = [] ∨ s.role cr ≠ 1 then s
  else (open_.foldl (fun s n => s.sendFrame 2 (s.sessMsg n)) s).commit cr true .none

/-- A ring at a creel reset (12/R342). -/
def Ring.atReset (r : Ring) : Ring := { r with prod := 0, cons := 0, cqProd := 0, taken := 0, fault := 0, stopping := false, posted := [] }
def State.heldLq (s : State) (cr : Nat) : List Nat := (mapKeys s.lqs).filter fun k => k / 16 = cr
/-- The sources of a creel are left masked and not pending (17/R500). -/
def State.maskSources (s : State) (cr : Nat) : State :=
  { s with sources := s.sources.map fun p => if p.2.holder = some cr then (p.1, { p.2 with mask := true, pending := false }) else p }
/-- Row 4: the state that R265 clears; what a creel keeps stays. -/
def State.clearCreel (s : State) (cr : Nat) : State :=
  let s := (s.coresOf cr).foldl (fun s n => s.modCore n fun c => { coreReset with run := .stopped, discarded := c.discarded }) s
  let s := s.maskSources cr
  let rs := (s.ringHolder.filter fun p => p.2 = cr).map (·.1)
  let qs := (s.pqHolder.filter fun p => p.2 = cr).map (·.1)
  let s := s.modVault fun v => { v with rings := rs.foldl (fun m r => m.set r (m.get ringReset r).atReset) v.rings }
  let s := { s with pqs := qs.foldl (fun m q => let x := m.get pqReset q; m.set q { x with ring := x.ring.atReset }) s.pqs }
  let s := { s with lqs := (s.heldLq cr).foldl (fun m k => let x := m.get lqReset k; m.set k { x with rx := x.rx.atReset, tx := x.tx.atReset }) s.lqs }
  s.modPair fun p => { p with logs := p.logs.filter (fun q => q.1 / 256 ≠ cr), commits := p.commits.filter (fun c => c.creel ≠ cr ∨ (c.vault ∧ c.who = .none)) }

/-- Kinds of reset: 0 creel reset, 1 CREEL_STOP, 2 warm reset, 3 the stop of DEBUG_UNLOCK. Row 5: RUNNING with the boot
core released, or STOPPED; the record; the copy of a RECEIVING creel begins again (15/R461); the commands that waited for it
complete. -/
def State.creelResetEnd (s : State) (cr kind : Nat) : State :=
  let s := { s with resetting := s.resetting.erase cr }
  let s := s.clearCreel cr
  let s := if kind = 0 then s.creelError cr 4 0xA 0x50 0 cr 0 else if kind = 2 then s else s.creelError cr 4 0xA 0x52 0 cr 0
  let s := s.modCreel cr fun c => { c with st := .stopped }
  let s := if kind = 0 then s.releaseCreel cr 2 else s
  let p := s.port cr
  let s := if kind = 0 then s.setPort cr { p with comps := [], cons := p.prod, owner := p.comps.foldl (fun o c => o - (o &&& 2 ^ c.slot)) p.owner } else s
  let s : State := if State.role s cr = 5 then s.sendFrame 5 (.copyAgain (Fin.ofNat 64 cr)) else s
  s.finishRun (fun r => match r.why with | .reset c => c == cr | _ => false) 0 0
/-- Rows 1 to 3: stores drain; an unacknowledged store to a strict window holds the reset (05/R172). -/
def State.creelResetBegin (s : State) (cr kind : Nat) : State :=
  let s := s.modCreel cr fun c => { c with st := .resetting }
  let s := (s.coresOf cr).foldl (fun s n =>
    ((s.drainAll n).wcDrainAll n).modCore n fun c => { c with run := .stopped, parked := none, dev := none }) s
  let s := (s.unitsOf cr).foldl State.endUnit s
  let s := s.endHamper cr
  { s with resetting := s.resetting.set cr kind }
def State.strictHeld (s : State) (cr : Nat) : Bool := (s.coresOf cr).any fun n => !(s.core n).strict.isEmpty
/-- A reset goes on once no strict-window store of the creel is outstanding. -/
def State.creelResetGo (s : State) (cr : Nat) : State :=
  if s.resetting.has cr ∧ !s.strictHeld cr then s.creelResetEnd cr (s.resetting.get 0 cr) else s
def State.creelReset (s : State) (cr kind : Nat) : State := (s.creelResetBegin cr kind).creelResetGo cr
/-- The reset that the Stake makes after a nested machine check (17/R515); a creel already in reset is not reset again. -/
def State.creelResetNow (s : State) (cr : Nat) : State :=
  if (s.creel cr).st = .running then s.creelReset cr 0 else s

/-! ## The end of a cleaning (07/R211, 09/R264) -/

def State.slicesClean (s : State) : Option Nat → Bool
  | some i => (s.slice i).cleaning = 0 && (s.slice i).powerCleaning = 0
  | none => (List.range 224).all fun i => (s.slice i).cleaning = 0 && (s.slice i).powerCleaning = 0
/-- Commands whose cleaning has ended complete; then a WAY_SET that waited for a way takes effect. -/
def State.cleaningDone (s : State) : State :=
  let ready := fun (r : RunCmd) => match r.why with | .cleaning i => s.slicesClean i | _ => false
  let s := s.finishRun ready 0 0
  if !s.slicesClean none then s
  else
    let held := s.stake.started.filter fun r => r.why == .wayHeld
    let s := held.foldl (fun s r => s.modCreel r.cmd.creel fun c =>
      { c with wayMask := (r.cmd.words.getD 0 0).toNat % 65536, exclMask := (r.cmd.words.getD 1 0).toNat % 65536 }) s
    s.finishRun (fun r => r.why == .wayHeld) 0 0

/-! ## The stop of the device (17/R518, R519; 18/R520, R521) -/

/-- What a loss leaves: BBKM, fuses, flash (images, boot images, configuration slots, device log, saved Hoop seconds, repair
lists), what has left the device, the time of the environment, the commands that wait; after a fatal reset also the Hoop
and the counts of discarded stores. -/
def State.afterLoss (s : State) (fatal hoopFailed : Bool) : State :=
  let keepHoop := fatal && !hoopFailed
  { State.reset with
    bbkm := s.bbkm, log := s.log, emitted := s.emitted, clock := s.clock, free := s.free, pending := s.pending,
    hoop := if keepHoop then s.hoop else
      { hoopReset with saved := s.hoop.saved, sec := match s.hoop.saved with | some t => t + 64 | none => 0 },
    reserve := { reserveReset with flash := s.reserve.flash },
    chans := s.chans.map fun p => (p.1, { chanReset with repair := p.2.repair }),
    cores := if fatal then s.cores.map (fun p => (p.1, { coreReset with discarded := p.2.discarded + p.2.buffered })) else [],
    stake := { stakeReset with imgs := s.stake.imgs, bootImgs := s.stake.bootImgs, cfgs := s.stake.cfgs, cfgLast := s.stake.cfgLast,
                               tampered := s.stake.tampered, retired := s.stake.retired, floor := s.stake.floor, rom := s.stake.rom },
    pair := { pairReset with fenceIn := s.pair.fenceIn, index := s.pair.index, partner := s.pair.partner },
    board := { boardReset with fatalLow := fatal, thermtrip := fatal && s.board.thermtrip },
    power := if fatal then 1 else 0 }
/-- A fatal-device error: the reset controller stops the device and records class 5; the Stake ROM starts next. -/
def State.fatalStop (s : State) (unit code : Nat) (hoopFailed : Bool) : State :=
  if s.power = 2 then (s.afterLoss true hoopFailed).logRec 5 unit code 0 0 0 else s
def State.fatal (s : State) (unit code : Nat) : State := s.fatalStop unit code false

/-! ## The end of a sequencer's program (02/R72) -/

/-- A program ends. A job's by END with what the END store gave, or by a fault (13/R400, R417); the Hamper's is noted in the device
log; the Stake's is a failure of the Stake (09/R268; log entry 141). A poisoned register is also a deferred error of the unit
(04/R139; log entry 138). -/
def State.programEnded (s : State) (i code : Nat) (addr : W64) : State :=
  let s := if code = 0x24 then s.deferredTo (s.seqCreel i) (s.agentUnit (224 + i)).1 0 0 (s.agentUnit (224 + i)).2 0 else s
  if i = 86 then s.fatal 0xA 0
  else if !isPlaiter i then s.note 6 i code
  else if s.hasJob (unitOf i) (seqLane i) then
    s.modJob (unitOf i) (seqLane i) fun j =>
      if j.ending.isSome then j
      else
        { j with ending := some { status := if code = 0x24 then 0x0603 else 0x0211, fault := code,
                                  pc := ((s.seq i).x.pc).toNat % 65536, result := 0, outLen := 0, detail := addr } }
  else s

end Sys2Proof.Machine
end

