-- ==== Sys2Proof/Machine/Rings.lean ====
section
/-!
DEFINITION. Rings of descriptors: their registers and checks (12/R339-R343), which Plaiter queues and line queues share
(13/R378-R381, 16/R494), and how the Hamper takes a descriptor and completes it (12/R344-R349).
-/
namespace Sys2Proof.Machine

/-- What tells the kinds of ring apart: the unit code of its errors, the size of a descriptor and of a completion entry, the
smallest log2_entries. -/
structure RingKind where
  unit : Nat
  dsize : Nat
  esize : Nat
  least : Nat := 4
def hrKind : RingKind := { unit := 6, dsize := 128, esize := 32 }
def pqKind : RingKind := { unit := 7, dsize := 64, esize := 64 }

def Ring.size (r : Ring) : Nat := 2 ^ fld r.ring 3 0
def Ring.base (r : Ring) : Nat := fld r.ring 51 12 * 4096
def Ring.cqBase (r : Ring) : Nat := fld r.cq 51 12 * 4096
def Ring.event (r : Ring) : Nat := fld r.ctl 28 16
def Ring.enabled (r : Ring) : Bool := tbit r.ctl 0
def Ring.running (r : Ring) : Bool := r.enabled && !tbit r.ctl 1 && r.fault == 0 && !r.stopping
def diff32 (a b : Nat) : Nat := (a + 2 ^ 32 - b % 2 ^ 32) % 2 ^ 32
/-- The check of a ring's configuration: 0, or the fault code (R339, R340). -/
def State.ringCheck (s : State) (cr : Nat) (k : RingKind) (r : Ring) : Nat :=
  if fld r.ring 3 0 < k.least ∨ 12 < fld r.ring 3 0 ∨ (tbit r.ctl 2 ∧ (s.src r.event).holder ≠ some cr) then 5
  else if !s.dmaOk cr r.base (r.size * k.dsize) false then 1
  else if !s.dmaOk cr r.cqBase (r.size * k.esize) true then 2
  else 0
/-- A fault stops the ring and raises an uncorrected-contained error (R340). -/
def State.ringFault (s : State) (cr : Nat) (k : RingKind) (inst : Nat) (r : Ring) (code : Nat) : State × Ring :=
  (s.creelError cr 2 k.unit 0x40 0 inst 0, { r with fault := code })
/-- With enable 0 and no command in flight, fault, fault_code and stop clear (R340). -/
def Ring.settle (r : Ring) (inFlight : Nat) : Ring :=
  if !r.enabled ∧ inFlight = 0 then { r with fault := 0, ctl := setFld r.ctl 1 1 0 } else r
/-- A write of the control register, already masked. `extra`: a further check at the change of enable. -/
def State.ringCtl (s : State) (cr : Nat) (k : RingKind) (inst : Nat) (r : Ring) (v : W64) (extra : Nat) (inFlight : Nat) : State × Ring :=
  let was := r.enabled
  let r := { r with ctl := v }
  if !tbit v 0 then (s, r.settle inFlight)
  else
    let code := s.ringCheck cr k r
    let code := if code = 0 ∧ !was then extra else code
    if code ≠ 0 then s.ringFault cr k inst r code
    else if was then (s, r)
    else (s, { r with prod := 0, taken := 0, cqProd := 0, cons := 0, posted := [] })
/-- A write of a base register: discarded and recorded while enabled (R340). -/
def State.ringBase (s : State) (cr : Nat) (k : RingKind) (inst : Nat) (r : Ring) (cq : Bool) (v : W64) : State × Ring :=
  if r.enabled then (s.creelError cr 2 k.unit 0x43 0 inst 0, r)
  else (s, if cq then { r with cq := setFld (setFld v 63 52 0) 11 0 0 } else { r with ring := setFld (setFld v 63 52 0) 11 4 0 })
/-- A doorbell: prod must not move backwards nor pass 2^n beyond taken (fault 3). One at a ring that has stopped on a fault is
discarded and recorded in the unit's error bank (05/R160; log entry 142). -/
def State.ringDoorbell (s : State) (cr : Nat) (k : RingKind) (inst : Nat) (r : Ring) (v : W64) : State × Ring :=
  let p := fld v 31 0
  if !r.enabled then (s, r)
  else if r.fault ≠ 0 then (s.bankRec k.unit inst 2 0 p, r)
  else if 2 ^ 31 ≤ diff32 p r.prod ∨ r.size < diff32 p r.taken then
    s.ringFault cr k inst r 3
  else (s, { r with prod := p, posted := if p = r.prod then r.posted else r.posted ++ [(p, s.clock)] })
/-- CQ_CONS: ignored when cq_prod − cons would be negative or above the ring's size (R343). -/
def Ring.consume (r : Ring) (v : W64) : Ring :=
  let c := fld v 31 0
  if r.size < diff32 r.cqProd c then r else { r with cons := c }
def Ring.status (r : Ring) : W64 := w64 (r.cqProd * 2 ^ 32 + r.taken)
def Ring.state (r : Ring) (inFlight : Nat) : W64 :=
  w64 (r.fault % 256 * 256 + b2n (r.fault != 0) * 4 + b2n ((tbit r.ctl 1 || r.fault != 0) && inFlight == 0) * 2 + b2n r.running)
/-- May the ring take a descriptor: one is posted and a place is free for its completion (R343). -/
def Ring.ready (r : Ring) (inFlight : Nat) : Bool :=
  r.running && r.prod != r.taken && decide (diff32 r.cqProd r.cons + inFlight < r.size)
/-- The next descriptor of a ring; the fault code of a failed or poisoned read (R339, R344). -/
def State.ringRead (s : State) (cr : Nat) (k : RingKind) (r : Ring) : Sum Nat (List W64) :=
  let a := r.base + k.dsize * (r.taken % r.size)
  if !s.dmaOk cr a k.dsize false then .inl 1
  else if s.poisonedRange a k.dsize then .inl 4
  else .inr ((List.range (k.dsize / 8)).map fun i => s.rd64 (a + 8 * i))
/-- The descriptor is taken; the time of its doorbell. -/
def Ring.take (r : Ring) : Ring :=
  let t := (r.taken + 1) % 2 ^ 32
  { r with taken := t, posted := r.posted.filter fun p => p.1 ≠ t ∧ diff32 p.1 t < 2 ^ 31 }
def Ring.postedAt (r : Ring) (now : Nat) : Nat := ((r.posted.find? fun p => p.1 ≠ r.taken ∧ diff32 p.1 r.taken < 2 ^ 31).map (·.2)).getD now
/-- A completion entry is written, then counted (R348, R164); one that fails R259 is not written: the ring
faults, or has already (log entry 22). -/
def State.ringComplete (s : State) (cr : Nat) (k : RingKind) (inst : Nat) (r : Ring) (entry : Bytes) : State × Ring :=
  let a := r.cqBase + k.esize * (r.cqProd % r.size)
  if !s.dmaOk cr a k.esize true then
    if r.fault = 0 then s.ringFault cr k inst r 2 else (s.creelError cr 2 k.unit 0x42 a inst 0, r)
  else (s.unitWrite cr a entry, { r with cqProd := (r.cqProd + 1) % 2 ^ 32 })

/-! ## Hamper rings -/

def State.hring (s : State) (r : Nat) : Ring := s.vault.rings.get ringReset r
def State.setHring (s : State) (r : Nat) (x : Ring) : State := s.modVault fun v => { v with rings := v.rings.set r x }
def State.hInFlight (s : State) (r : Nat) : Nat := (s.vault.active.filter fun c => c.origin = .ring r ∧ !c.lost).length
/-- Writes of a ring's page by the creel that holds it. -/
def State.hrCtrl (s : State) (r : Nat) (v : W64) : State :=
  if s.ringHolder.has r then
    let cr := s.ringHolder.get 0 r
    let m := w64 (fld v 2 0 + fld v 28 16 * 2 ^ 16)
    let (s, x) := s.ringCtl cr hrKind r (s.hring r) m 0 (s.hInFlight r)
    s.setHring r x
  else s
def State.hrDoorbell (s : State) (r : Nat) (v : W64) : State :=
  if s.ringHolder.has r ∧ (s.creel (s.ringHolder.get 0 r)).st ≠ .resetting then
    let (s, x) := s.ringDoorbell (s.ringHolder.get 0 r) hrKind r (s.hring r) v
    s.setHring r x
  else s
def State.hrCqCons (s : State) (r : Nat) (v : W64) : State :=
  if s.ringHolder.has r then s.setHring r ((s.hring r).consume v) else s
def State.hrBase (s : State) (r : Nat) (cq : Bool) (v : W64) : State :=
  if s.ringHolder.has r then
    let (s, x) := s.ringBase (s.ringHolder.get 0 r) hrKind r (s.hring r) cq v
    s.setHring r x
  else s

/-- HR_CTRL, HR_DOORBELL and HR_CQ_CONS written by the creel that holds the ring (R339-R343). -/
def execHrDoorbell (r : Fin 1024) (v : W64) (s : State) : Out := .next (s.hrDoorbell r v)
def execHrCtrl (r : Fin 1024) (v : W64) (s : State) : Out := .next (s.hrCtrl r v)
def execHrCqCons (r : Fin 1024) (v : W64) (s : State) : Out := .next (s.hrCqCons r v)

def hamperOps : List Nat :=
  upto 0x0101 11 ++ upto 0x0201 4 ++ upto 0x0301 6 ++ upto 0x0401 9 ++ upto 0x0501 4 ++ [0x0601, 0x0602, 0x0701] ++ upto 0x0801 4 ++
    [0x0901, 0x0902]
/-- A command joins those that came, under the creel's identity; an unknown opcode that is accepted ends at once (R351,
check 1). -/
def State.hTake (s : State) (origin : HOrigin) (cr index since : Nat) (ws : List W64) : State :=
  let c : HCmd := { id := s.vault.nextId, origin := origin, creel := cr, index := index, words := ws, since := since,
                    taken := s.vaultOpen cr (ws.getD 0 0), live := s.sessLive cr (ws.getD 1 0), yielded := false, lost := false, out := none }
  let s := s.modVault fun v => { v with nextId := v.nextId + 1, active := v.active ++ [c] }
  if hamperOps.contains c.op ∨ !c.taken then s else s.hEnd c [] 0x0201 0 false
/-- A ring has a descriptor that the vault may take. -/
def State.hRingReady (s : State) (r : Nat) : Bool :=
  let cr := s.ringHolder.get 0 r
  let n := s.hInFlight r
  s.ringHolder.has r && decide ((s.creel cr).st = .running) && s.runsRole cr && (s.hring r).ready n && decide (n < 256) && !s.paused &&
    (match s.ringRead cr hrKind (s.hring r) with | .inr ws => s.vaultOpen cr (ws.getD 0 0) | .inl _ => false)
/-- The ring whose turn it is: by creel, and within the creel by ring (11/R301). -/
def State.hTurn (s : State) : Option Nat :=
  let l := (mapKeys s.ringHolder).filter s.hRingReady
  match ((upto (s.vault.turn + 1) 64).map (· % 64)).find? fun c => l.any fun r => decide (s.ringHolder.get 0 r = c) with
  | none => none
  | some c => ((upto (s.vault.ringTurn.get 1023 c + 1) 1024).map (· % 1024)).find? fun r => l.contains r && decide (s.ringHolder.get 0 r = c)
/-- A ring takes its next descriptor, in its turn (R343, R344). -/
def execDescriptorTake (r : Fin 1024) (s : State) : Out :=
  if !s.ringHolder.has r then .next s else
  let cr := s.ringHolder.get 0 r
  let x := s.hring r
  let n := s.hInFlight r
  if (s.creel cr).st ≠ .running ∨ !s.runsRole cr ∨ !x.ready n ∨ 256 ≤ n ∨ s.paused then .next s
  else match s.ringRead cr hrKind x with
    | .inl code =>
      let (s, x) := s.ringFault cr hrKind r x code
      .next (s.setHring r x)
    | .inr ws =>
      if !s.vaultOpen cr (ws.getD 0 0) then .next (s.auditHold cr)
      else if s.hTurn ≠ some r.val then .next s
      else
        let s := s.modVault fun v => { v with turn := cr, ringTurn := v.ringTurn.set cr r }
        .next ((s.setHring r x.take).hTake (.ring r) cr x.taken (x.postedAt s.clock) ws)

/-! ## A creel that moves to the partner or from it (15/R462) -/

/-- The commands taken and the commits of a creel that a move must wait for. -/
def State.moveBusy (s : State) (cr : Nat) : Bool :=
  (s.vault.active.any fun h => h.creel == cr) || (s.pair.commits.any fun d => d.creel == cr) ||
    (s.unitsOf cr).any fun u => !(s.unit u).jobs.isEmpty
/-- The creel is MIGRATING. -/
def State.moveBegin (s : State) (cr : Nat) : State :=
  let st := (s.creel cr).st
  (s.modPair fun p => { p with moving := p.moving.set cr (st == .running) }).modCreel cr fun x =>
    { x with st := if st = .running ∨ st = .stopped then .migrating else st }
/-- It is no longer MIGRATING. -/
def State.moveOver (s : State) (cr : Nat) : State :=
  let st : CreelSt := if s.pair.moving.get true cr then .running else .stopped
  (s.modPair fun p => { p with moving := p.moving.erase cr }).modCreel cr fun x => { x with st := if x.st = .migrating then st else x.st }
def RunCmd.moves (r : RunCmd) (cr : Nat) : Bool := r.why == .moving && r.cmd.creel == cr
/-- The role changes hands and home flips; the command that asked for it completes. -/
def State.moveFlip (s : State) (cr : Nat) (toMe : Bool) : State :=
  let home := if toMe then s.pair.index else 1 - s.pair.index
  let s := (s.setRole cr (if toMe then 1 else 2)).modPair fun q => { q with cfg := q.cfg.set cr (setFld (s.pairCfg cr) 1 1 home) }
  (s.moveOver cr).finishRun (fun r => r.moves cr) 0 0
/-- The old primary has completed what it had taken: the final marker, and the role is the partner's. -/
def State.moveTry (s : State) (cr : Nat) : State :=
  if !s.pair.moving.has cr ∨ s.role cr ≠ 1 ∨ s.moveBusy cr then s
  else ((s.sendFrame 2 (.marker (Fin.ofNat 64 cr) s.pair.nextId)).sendFrame 2 (.move (Fin.ofNat 64 cr) true)).moveFlip cr false
/-- A move that the pair state overtakes ends where it stands, with the mirror state code. -/
def State.movesEnd (s : State) : State :=
  ((mapKeys s.pair.moving).foldl State.moveOver s).finishRun (fun r => r.why == .moving) 0x0303 (w64 s.pair.st)

/-- Words of a Hamper completion entry (R348). -/
def hEntry (c : HCmd) (o : HDone) : List W64 :=
  [w64 (fld (c.w 0) 31 0 * 2 ^ 32 + o.status % 65536 * 65536 + c.index % 65536), w64 o.sec, w64 (o.st % 4 * 2 ^ 32 + o.frac % 2 ^ 32), o.result]
def entryBytes (ws : List W64) : Bytes := ws.flatMap fun w => toLe 8 w.toNat
def nsOf (t : Nat) : Nat := t * 1000000000 / 2 ^ 32
/-- A call of a job completes: the words over its descriptor, the result of its door operation, or the end of ingest
(13/R383, R408). A job that is gone takes nothing. -/
def State.callDone (s : State) (u k dest : Nat) (c : HCmd) (o : HDone) : State :=
  if !s.hasJob u k then s
  else if dest = 64 then
    if (s.job u k).phase ≠ .ingest c.id then s
    else if o.status = 0 then s.modJob u k fun j => { j with phase := .ready }
    else
      let st := if o.status = 1 then 0x0601 else o.status
      s.modJob u k fun j =>
        { j with phase := .ready, ending := some { status := st, fault := 0, pc := 0, result := 0, outLen := 0, detail := 0 } }
  else
    match (s.job u k).ops.find? fun p => p.call = some c.id with
    | none => s
    | some p =>
      let s := s.localWrite u k p.p (entryBytes (hEntry c o))
      s.modJob u k fun j => { j with ops := j.ops.map fun q => if q.call = some c.id then { q with result := some (w64 o.status) } else q }
/-- An unknown opcode of a call ends once it is accepted. A command whose work has ended and whose commit waits for nobody completes: its audit record, then its entry and event
(R348, 11/R332, R333). A record that cannot be written holds the completion. -/
def execHamperCompletion (id : Nat) (s : State) : Out :=
  match s.vault.active.find? fun c => c.id = id with
  | none => .next s
  | some c =>
    match c.out with
    | none =>
      if hamperOps.contains c.op then .next s
      else if c.taken ∨ s.vaultOpen c.creel (c.w 0) then .next (s.hEnd { c with taken := true } [] 0x0201 0 false)
      else .next (s.auditHold c.creel)
    | some o =>
      if o.waits then .next s
      else
        let s := if o.recorded then s else (c.auditRec s 0 o.status o).setHCmd { c with out := some { o with recorded := true } }
        if !(s.audit c.creel).held.isEmpty then .next s else
        let s := if s.role c.creel = 1 then s.sendFrame 2 (s.chainMsg c.creel) else s
        let s := s.modVault fun v => { v with active := v.active.filter fun d => d.id ≠ id }
        let s := if c.yielded ∧ c.since + micros 2 < s.clock then s.breach c.creel 1 else s
        let s := ((s.ucAdd c.creel 0x30 1).ucAdd c.creel 0x38 (b2n (decide (1 < o.status)))).ucAdd c.creel 0x40 (nsOf (s.clock - c.since))
        match c.origin with
        | .plaiter u k dest => .next ((s.callDone u k dest c o).moveTry c.creel)
        | .ring r =>
          if c.lost then .next ((s.creelError c.creel 2 6 0x42 0 r 0).moveTry c.creel) else
          let (s, x) := s.ringComplete c.creel hrKind r (s.hring r) (entryBytes (hEntry c o))
          let s := s.setHring r (x.settle (s.hInFlight r))
          .next ((if tbit (c.w 0) 33 ∧ tbit x.ctl 2 then s.unitEvent x.event c.creel 6 r else s).moveTry c.creel)

end Sys2Proof.Machine
end

