-- ==== Sys2Proof/Machine/Queues.lean ====
section
/-!
DEFINITION. Plaiter job queues: their registers, and what happens to them when a unit leaves its creel (13/R378-R381, R421).
-/
namespace Sys2Proof.Machine

def State.pq (s : State) (q : Nat) : PQueue := s.pqs.get pqReset q
def State.setPq (s : State) (q : Nat) (x : PQueue) : State := { s with pqs := s.pqs.set q x }
def PQueue.unit (x : PQueue) : Nat := fld x.ring.ctl 35 32
/-- Jobs of a queue that are taken and not yet completed. -/
def State.pqInFlight (s : State) (q : Nat) : Nat :=
  ((List.range 16).map fun u =>
    ((s.unit u).jobs.filter fun p => p.2.queue = q).length + (match (s.unit u).load with | some j => b2n (j.queue == q) | none => 0)).foldl (· + ·) 0
def State.pqWith (s : State) (q : Nat) (f : Nat → Ring → State × Ring) : State :=
  if s.pqHolder.has q then
    let (s, r) := f (s.pqHolder.get 0 q) (s.pq q).ring
    s.setPq q { s.pq q with ring := r }
  else s
def pqCtlMask (v : W64) : W64 := setFld (setFld (setFld v 47 36 0) 31 29 0) 15 4 0
def State.pqCtrl (s : State) (q : Nat) (v : W64) : State :=
  s.pqWith q fun cr r =>
    let m := pqCtlMask v
    let held := s.unitCreel.has (fld m 35 32) && s.unitCreel.get 64 (fld m 35 32) == cr
    s.ringCtl cr pqKind q r m (if held then 0 else 6) (s.pqInFlight q)
def State.pqDoorbell (s : State) (q : Nat) (v : W64) : State :=
  s.pqWith q fun cr r => if (s.creel cr).st = .resetting then (s, r) else s.ringDoorbell cr pqKind q r v
def State.pqCqCons (s : State) (q : Nat) (v : W64) : State := s.pqWith q fun _ r => (s, r.consume v)
def State.pqBase (s : State) (q : Nat) (cq : Bool) (v : W64) : State := s.pqWith q fun cr r => s.ringBase cr pqKind q r cq v
def State.pqTrace (s : State) (q : Nat) (v : W64) : State :=
  if s.pqHolder.has q then s.setPq q { s.pq q with trace := setFld (setFld v 63 52 0) 11 4 0 } else s

/-- Every queue bound to a unit that leaves its creel faults with code 6 (R381). -/
def State.unitQueuesFault (s : State) (u : Nat) : State :=
  (List.range 256).foldl (fun s q =>
    if s.pqHolder.has q ∧ (s.pq q).unit = u ∧ (s.pq q).ring.enabled ∧ (s.pq q).ring.fault = 0 then
      s.pqWith q fun cr r => s.ringFault cr pqKind u r 6
    else s) s
/-- A unit taken from a creel: programs end, image and local data are erased (R421). -/
def State.unitTaken (s : State) (u : Nat) : State :=
  let s := (s.endUnit u).unitQueuesFault u
  let s := s.modUnit u fun x => { unitReset with turn := x.turn, leaving := x.leaving }
  { s with unitCreel := s.unitCreel.erase u }

end Sys2Proof.Machine
end

