-- ==== Sys2Proof/Machine/Stake.lean ====
section
/-!
DEFINITION. The Stake as it takes commands (10/R273-R292, R295-R299; 21/R577): the command table and its checks, acceptance,
port suspension, officer and auditor sessions, the cards.
-/
namespace Sys2Proof.Machine

/-! ## The command table (R296; 14/R437, 15/R464, 18/R547) -/

/-- A command's payload in words, the roles that may issue it, the lifecycle states of its States column, whether it acts on
the creel that word 1 names, the creel states it takes. -/
structure CmdSpec where
  words : Nat
  roles : List Nat
  life : List Nat
  creel : Bool := false
  states : List Nat := []
def rO : Nat := 1
def rT : Nat := 2
def rA : Nat := 3
def rP : Nat := 4
def rH : Nat := 5
def allRoles : List Nat := [1, 2, 3, 4, 5, 6]
def lifeAll : List Nat := [1, 2, 3, 4, 5]
def lifeEver : List Nat := [1, 2, 3, 4, 5, 6, 7]
def lifeLive : List Nat := [3, 4, 5]
def lifeConfig : List Nat := [3, 4]
def cmdSpec (op : Nat) : Option CmdSpec :=
  match op with
  | 0x0001 => some { words := 1, roles := allRoles, life := lifeEver }
  | 0x0002 => some { words := 0, roles := allRoles, life := lifeEver }
  | 0x0003 => some { words := 1, roles := [rO, rA], life := lifeEver }
  | 0x0004 => some { words := 1, roles := allRoles, life := lifeEver }
  | 0x0101 => some { words := 6, roles := [rO], life := [1] }
  | 0x0102 => some { words := 0, roles := [rO], life := [2, 4] }
  | 0x0103 => some { words := 0, roles := [rO], life := [3] }
  | 0x0104 => some { words := 0, roles := [rO], life := [4] }
  | 0x0105 => some { words := 0, roles := [rO], life := [5] }
  | 0x0106 => some { words := 1, roles := [rO], life := [1, 2, 3, 4, 5, 6] }
  | 0x0107 => some { words := 0, roles := [rO], life := [3] }
  | 0x0108 => some { words := 2, roles := [rO], life := [3] }
  | 0x0109 => some { words := 1, roles := [rO, rA], life := lifeAll }
  | 0x010A => some { words := 0, roles := [rO], life := [3] }
  | 0x010B => some { words := 7, roles := [rO], life := [3] }
  | 0x0201 => some { words := 4, roles := [rO], life := lifeConfig, creel := true, states := [0, 1] }
  | 0x0202 => some { words := 3, roles := [rO], life := lifeConfig, creel := true, states := [0, 1] }
  | 0x0203 => some { words := 0, roles := [rO], life := lifeConfig, creel := true, states := [1] }
  | 0x0204 => some { words := 2, roles := [rO], life := lifeConfig, creel := true }
  | 0x0205 => some { words := 2, roles := [rO], life := lifeConfig, creel := true }
  | 0x0206 => some { words := 2, roles := [rO], life := lifeConfig }
  | 0x0207 => some { words := 0, roles := [rO, rH], life := lifeLive, creel := true, states := [1] }
  | 0x0208 => some { words := 0, roles := [rO, rT, rH], life := lifeLive, creel := true, states := [2] }
  | 0x0209 => some { words := 0, roles := [rO, rT], life := lifeLive, creel := true, states := [2, 3] }
  | 0x020A => some { words := 3, roles := [rT], life := lifeLive, creel := true, states := [2] }
  | 0x020B => some { words := 1, roles := [rT, rA], life := lifeLive, creel := true }
  | 0x020C => some { words := 1, roles := [rT], life := lifeLive, creel := true, states := [2] }
  | 0x020D => some { words := 2, roles := [rT], life := lifeLive, creel := true, states := [2] }
  | 0x020E => some { words := 1, roles := [rT], life := lifeLive, creel := true, states := [2] }
  | 0x020F => some { words := 1, roles := [rT], life := lifeLive, creel := true, states := [2] }
  | 0x0210 => some { words := 0, roles := [rO, rT], life := lifeLive, creel := true }
  | 0x0301 => some { words := 1, roles := [rO, rA], life := lifeAll }
  | 0x0302 => some { words := 1, roles := [rO], life := lifeConfig }
  | 0x0303 => some { words := 2, roles := [rO], life := lifeConfig }
  | 0x0304 => some { words := 3, roles := [rO, rT], life := lifeLive }
  | 0x0305 => some { words := 1, roles := [rO], life := lifeConfig }
  | 0x0306 => some { words := 2, roles := [rO], life := lifeConfig }
  | 0x0307 => some { words := 3, roles := [rO], life := lifeConfig }
  | 0x0308 => some { words := 1, roles := [rO, rT], life := lifeLive }
  | 0x0401 => some { words := 0, roles := [rO, rA], life := lifeAll }
  | 0x0402 => some { words := 1, roles := [rO, rT], life := lifeLive }
  | 0x0501 => some { words := 3, roles := [rO], life := lifeConfig }
  | 0x0502 => some { words := 0, roles := [rO], life := lifeConfig }
  | 0x0503 => some { words := 0, roles := [rO], life := lifeConfig }
  | 0x0504 => some { words := 0, roles := [rO], life := lifeConfig }
  | 0x0505 => some { words := 0, roles := [rO, rA], life := lifeAll }
  | 0x0506 => some { words := 0, roles := [rO], life := lifeConfig }
  | 0x0507 => some { words := 1, roles := [rO, rA], life := lifeAll }
  | 0x0508 => some { words := 6, roles := [rO], life := lifeConfig }
  | 0x0509 => some { words := 4, roles := [rO], life := lifeConfig }
  | 0x050A => some { words := 2, roles := [rO], life := lifeConfig }
  | 0x050B => some { words := 0, roles := [rO], life := lifeLive }
  | 0x0601 => some { words := 2, roles := [rO], life := [3] }
  | 0x0602 => some { words := 0, roles := [rO, rP], life := lifeAll }
  | 0x0603 => some { words := 2, roles := [rO, rP], life := lifeConfig, creel := true }
  | 0x0604 => some { words := 3, roles := [rO, rT, rP], life := lifeLive, creel := true }
  | 0x0605 => some { words := 0, roles := [rO], life := lifeLive, creel := true }
  | 0x0606 => some { words := 4, roles := [rO], life := [3] }
  | 0x0607 => some { words := 0, roles := [rO], life := [3] }
  | 0x0701 => some { words := 0, roles := [rO, rA], life := lifeAll }
  | 0x0702 => some { words := 2, roles := [rO], life := lifeConfig }
  | 0x0703 => some { words := 1, roles := [rO], life := lifeConfig }
  | 0x0704 => some { words := 3, roles := [rO], life := lifeConfig }
  | 0x0705 => some { words := 1, roles := [rO], life := lifeConfig }
  | 0x0706 => some { words := 0, roles := [rO], life := [3] }
  | 0x0800 => some { words := 0, roles := [rO, rT, rA, rH], life := lifeAll }
  | _ => none

/-! ## Check 1: values (R289, R296) -/

def Cmd.w (c : Cmd) (i : Nat) : W64 := c.words.getD (i - 2) 0
def Cmd.n (c : Cmd) (i : Nat) : Nat := (c.w i).toNat
def bad (b : Bool) : Nat := if b then 0x0204 else 0
/-- The first failure of a list of checks; 0: none. -/
def firstBad (l : List Nat) : Nat := (l.find? (· ≠ 0)).getD 0
def rsvd (w : W64) (hi lo : Nat) : Nat := if fld w hi lo ≠ 0 then 0x0203 else 0
def sensorOk (n : Nat) : Bool :=
  n ≤ 8 || (16 ≤ n && n ≤ 27) || (32 ≤ n && n ≤ 38) || (40 ≤ n && n ≤ 45)
/-- A page range as GRANT_SET and a segment entry give it. -/
def rangeBad (base limit : W64) : Bool := fld base 63 52 ≠ 0 || fld base 11 0 ≠ 0 || fld limit 63 52 ≠ 0 || fld limit 11 0 ≠ 0 || decide (limit.toNat < base.toNat)
/-- Values of DEVICE_CONFIG (18/R548; 16/R467, R491). -/
def lgCfgBad (lg : Nat) (w : W64) : Bool :=
  let owner := fun (lo : Nat) => let o := fld w (lo + 6) lo; decide (64 ≤ o) && o != 0x7F
  fld w 63 38 ≠ 0 || decide (2 < fld w 2 0) || decide (4 < fld w 6 4) || fld w 9 7 == 0 || fld w 9 7 == 7 ||
    owner 10 || owner 17 || owner 24 || owner 31 || (fld w 2 0 == 2 && (decide (lg < 8) || fld w 6 4 != 0))
def lineCfgBad (w : W64) : Bool :=
  let pause := tbit w 7 || tbit w 6
  fld w 63 32 ≠ 0 || fld w 15 8 ≠ 0 || tbit w 3 || decide (5 < fld w 2 0) || (tbit w 4 && fld w 2 0 != 1) || (pause && fld w 31 16 != 0)
def addrCfgBad (a b : W64) : Bool :=
  fld a 62 48 ≠ 0 || fld b 63 21 ≠ 0 || decide (64 ≤ fld b 19 13) || fld b 11 0 == 4095
def devConfigBad (kind ix : Nat) (a b : W64) : Bool :=
  match kind with
  | 1 => decide (10 ≤ ix) || b != 0 || lgCfgBad ix a
  | 2 => (ix != 8 && ix != 9) || b != 0
  | 3 => decide (8 ≤ ix) || b != 0 || lineCfgBad a
  | 4 => decide (512 ≤ ix) || addrCfgBad a b
  | 5 => ix != 0 || b != 0 || decide (a.toNat < 1) || decide (16 < a.toNat)
  | 6 => ix != 0 || b != 0 || decide (1 < a.toNat)
  | _ => true
def hoopPrioOk (w : W64) : Bool := fld w 63 12 = 0 && decide (fld w 3 0 ≤ 3) && decide (fld w 7 4 ≤ 3) && decide (fld w 11 8 ≤ 3)
def pairCfgBad (w : W64) : Nat :=
  firstBad [rsvd w 63 48, rsvd w 15 4, bad (fld w 47 32 < 10 || 10000 < fld w 47 32), bad (fld w 31 16 < 10 || 80 < fld w 31 16)]
/-- Range and reserved-field checks of a payload, by opcode. -/
def cmdValues (c : Cmd) : Nat :=
  match c.op with
  | 0x0003 => bad (c.n 2 % 8 ≠ 0)
  | 0x0004 => bad (!sensorOk (c.n 2))
  | 0x0106 => bad (c.n 2 ≠ 0x5245544952450000)
  | 0x0108 => firstBad [bad (128 ≤ c.n 2), rsvd (c.w 3) 63 48, rsvd (c.w 3) 31 16, rsvd (c.w 3) 11 7, bad (16 < fld (c.w 3) 47 32), bad (64 < fld (c.w 3) 6 0)]
  | 0x0109 => bad (128 ≤ c.n 2)
  | 0x010B => bad (c.n 2 < 1 || 16 < c.n 2)
  | 0x0201 => bad (65536 ≤ c.n 5)
  | 0x0202 => bad (16 ≤ c.n 2 || (!(c.n 3 = 0 && c.n 4 = 0) && rangeBad (c.w 3) (c.w 4)))
  | 0x0204 => bad (c.n 2 < 1 || 8 < c.n 2 || (c.n 2 = 1 && 64 < c.n 3) || (c.n 2 = 3 && 16 < c.n 3) || (7 ≤ c.n 2 && c.n 3 % 64 ≠ 0))
  | 0x0205 => bad (65536 ≤ c.n 2 || 65536 ≤ c.n 3 || (c.n 2 ||| c.n 3) ≠ c.n 2)
  | 0x0206 => firstBad [bad (96 ≤ c.n 2), rsvd (c.w 3) 63 48, rsvd (c.w 3) 19 0]
  | 0x020A =>
    firstBad [bad (64 ≤ c.n 2), rsvd (c.w 3) 63 52, rsvd (c.w 3) 11 8, rsvd (c.w 3) 5 5, rsvd (c.w 4) 63 52, rsvd (c.w 4) 11 0,
      bad (fld (c.w 4) 51 12 < fld (c.w 3) 51 12 || (tbit (c.w 3) 2 && !tbit (c.w 3) 1))]
  | 0x020B => bad (64 ≤ c.n 2)
  | 0x020C => bad (c.n 2 < 1 || 4 < c.n 2)
  | 0x020D => bad (c.n 2 < 1 || 4 < c.n 2)
  | 0x020E => bad (192 ≤ c.n 2)
  | 0x020F => bad (192 ≤ c.n 2)
  | 0x0301 => bad (16 ≤ c.n 2)
  | 0x0303 => bad (16 ≤ c.n 2 || 8 ≤ c.n 3)
  | 0x0304 => bad (2 ≤ c.n 2)
  | 0x0305 => bad (c.n 2 < 1 || 48 < c.n 2)
  | 0x0306 => bad (c.n 2 = 0 || c.n 3 = 0)
  | 0x0307 => bad ((224 ≤ c.n 2 && c.n 2 ≠ 0xFFFF) || 8 ≤ c.n 3 || 2 ≤ c.n 4)
  | 0x0308 => bad (96 ≤ c.n 2)
  | 0x0402 => bad (192 ≤ c.n 2)
  | 0x0501 => bad (64 ≤ c.n 2)
  | 0x0507 => bad (2 ≤ c.n 2)
  | 0x0508 =>
    bad (64 ≤ c.n 2 || c.n 4 < 4 || 0x100000 < c.n 4 || c.n 5 % 4096 ≠ 0 || c.n 6 % 4 ≠ 0 || c.n 4 ≤ c.n 6 || 4 ≤ c.n 7)
  | 0x0509 => bad (devConfigBad (c.n 2) (c.n 3) (c.w 4) (c.w 5))
  | 0x050A => bad (c.n 2 < 1 || 60 < c.n 2 || 2 ≤ c.n 3)
  | 0x0603 => firstBad [if c.n 2 ≠ 0 then 0x0203 else 0, pairCfgBad (c.w 3)]
  | 0x0604 =>
    firstBad [rsvd (c.w 2) 63 1, bad (c.n 3 % 0x200000 ≠ 0 || c.n 4 < 1 || 65536 < c.n 4 || 0x80000000000 < c.n 3 + c.n 4 * 0x200000)]
  | 0x0606 =>
    firstBad [rsvd (c.w 4) 63 48, rsvd (c.w 5) 63 17, bad (fld (c.w 4) 47 16 < 100 || 100000 < fld (c.w 4) 47 16)]
  | 0x0702 => bad (!hoopPrioOk (c.w 2) || c.n 3 < 60 || 604800 < c.n 3)
  | 0x0703 => firstBad [rsvd (c.w 2) 63 19, rsvd (c.w 2) 7 3, bad (fld (c.w 2) 17 16 = 3)]
  | 0x0704 => rsvd (c.w 4) 63 8
  | _ => 0

/-- A resource kind and the number a slot word names are checked first (R289): opcode, length, fmt, reserved fields, values. -/
def check1 (c : Cmd) (w0 w1 : W64) : Nat :=
  match cmdSpec c.op with
  | none => 0x0201
  | some d =>
    if fld w0 47 32 ≠ 8 * d.words then 0x0202
    else if fld w1 23 16 ≠ 1 then 0x0205
    else if fld w1 63 24 ≠ 0 ∨ fld w1 15 8 ≠ 0 ∨ (c.port < 64 ∧ fld w1 6 0 ≠ 0) then 0x0203
    else if d.creel ∧ 64 ≤ c.creel then 0x0204
    else cmdValues c
/-- The address that ADDR_DECODE is about: the one given, or that of the line of a channel (word 3) with a position (word 4), which lies
past every line where there is none (08/R231). -/
def State.decodePa (s : State) (c : Cmd) : Nat :=
  if c.n 2 = 0 then c.n 3
  else match (List.range (s.installed / 64)).find? fun l => decide (channelOf l = c.n 3) && decide ((Config.position l).toNat = c.n 4) with
    | some l => 64 * l
    | none => s.installed
/-- A payload names an object outside the port's creel or grant (R289, R290). -/
def State.foreign (s : State) (c : Cmd) : Bool :=
  match c.op with
  | 0x020E | 0x020F => s.creelOf (c.n 2) != some c.creel
  | 0x0304 => decide (c.port < 64) && decide (s.decodePa c < s.installed) && !s.inGrant c.port (s.decodePa c) (s.decodePa c + 1)
  | 0x0308 => decide (c.port < 64) && c.n 2 != c.port
  | 0x0402 => decide (c.port < 64) && s.creelOf (c.n 2) != some c.port
  | _ => false
/-- Check 2: role, dual control, the scope of the port (R289, R295, R296). A host-attach port acts on creels with a virtual
function on its endpoint (16/R467). -/
def State.check2 (s : State) (c : Cmd) : Nat :=
  match cmdSpec c.op with
  | none => 0
  | some d =>
    let role := roleOfSlot c.port
    if !d.roles.contains role then 0x0101
    else if c.port = 64 ∧ s.officer.isNone then 0x0102
    else if d.creel ∧ role = rA ∧ patCreel (s.patEntry c.port) ≠ 64 ∧ patCreel (s.patEntry c.port) ≠ c.creel then 0x0103
    else if d.creel ∧ role = rH ∧ !tbit (s.lg (c.port - 60)).hamask c.creel then 0x0103
    else if s.foreign c then 0x0103
    else 0
/-- Check 3, lifecycle: the status is 0x0300 and the result the lifecycle code (R291, R297). -/
def State.lifeRefuses (s : State) (c : Cmd) : Bool :=
  match cmdSpec c.op with
  | none => false
  | some d => !d.life.contains s.bbkm.life

/-! ## Acceptance (R281-R283, R288) -/

/-- A port whose commands may be accepted now: enabled, not suspended; a tenant's creel is not UNASSIGNED. -/
def State.portAccepts (s : State) (p : Nat) : Bool :=
  let x := s.port p
  !x.queue.isEmpty && x.suspended.isNone && patEnabled (s.patEntry p) &&
    (64 ≤ p || (s.creel p).st != .unassigned)
def commandOf (s : State) (p k : Nat) : Cmd × W64 × W64 :=
  let x := s.port p
  let w := fun (i : Nat) => x.words.get 0 (24 * k + i)
  let w0 := w 0
  let w1 := w 1
  ({ port := p, slot := k, op := fld w0 63 48, tag := fld w0 31 0, irq := tbit w1 7,
     creel := if p < 64 then p else fld w1 6 0, words := (List.range 22).map fun i => w (i + 2), life := s.bbkm.life }, w0, w1)
/-- The next command in turn is accepted, or completes with the status of the check it fails. -/
def execCommandAcceptance (s : State) : Out :=
  if !s.stake.up ∨ s.paused then .next s else
  match ((upto (s.stake.turn + 1) 71).map (· % 71)).find? s.portAccepts with
  | none => .next s
  | some p =>
    match (s.port p).queue with
    | [] => .next s
    | k :: r =>
      let (c, w0, w1) := commandOf s p k
      let s := (s.modPort p fun x => { x with queue := r }).modStake fun m => { m with turn := p }
      let s := if p = 64 then s.modStake fun m => { m with session := s.officer.map fun e => { e with last := s.clock } } else s
      let c1 := check1 c w0 w1
      let c2 := s.check2 c
      if c1 ≠ 0 then .next (s.complete c c1 0 [])
      else if c2 ≠ 0 then .next (s.complete c c2 0 [])
      else if s.lifeRefuses c then .next (s.complete c 0x0300 (w64 s.bbkm.life) [])
      else .next (s.modStake fun m => { m with accepted := m.accepted ++ [c] })

/-- What a command acts on: its creel (CREEL_BOOT_SET names it in word 2), or the device. -/
def cmdObject (c : Cmd) : Nat :=
  if c.op = 0x0508 then c.n 2 else match cmdSpec c.op with | some d => if d.creel then c.creel else 64 | none => 64
/-- A started command that later ones on its creel wait for. A reset and a move are creel states instead, which have their own
answers (09/R255, R267). -/
def RunCmd.holds (r : RunCmd) (c : Cmd) : Bool :=
  decide (cmdObject r.cmd = cmdObject c) && decide (cmdObject c < 64) && decide (c.op ≠ 0x0209) &&
    match r.why with | .reset _ | .moving => false | _ => true
/-- The accepted command of a slot, once no earlier one of its port or on its object waits (R283). -/
def State.takeCmd (s : State) (p k op : Nat) : Option Cmd :=
  match s.stake.accepted.find? fun c => c.port = p ∧ c.slot = k ∧ c.op = op with
  | none => none
  | some c =>
    if ((s.stake.accepted.takeWhile (· ≠ c)).any fun e => e.port = p || cmdObject e == cmdObject c) ||
        s.stake.started.any fun r => r.holds c then none else some c
/-- Commands that TRIAL refuses (18/R541). -/
def trialRefuses (op : Nat) : Bool :=
  [0x0103, 0x0108, 0x010B, 0x0201, 0x0202, 0x0203, 0x0204, 0x0205, 0x0206, 0x0302, 0x0305, 0x0306, 0x0307, 0x0501, 0x0502, 0x0506,
    0x0508, 0x0509, 0x050A, 0x0603, 0x0606, 0x0702, 0x0703, 0x0704].contains op
/-- Check 3, the states of the creel and of the update. -/
def State.stateRefuses (s : State) (c : Cmd) : Option (Nat × Nat) :=
  match cmdSpec c.op with
  | none => none
  | some d =>
    if d.creel ∧ d.states ≠ [] ∧ !d.states.contains (creelCode (s.creel c.creel).st) then some (0x0301, creelCode (s.creel c.creel).st)
    else if s.stake.upd.st = 3 ∧ trialRefuses c.op then some (0x0304, 3)
    else none
/-- Chain 64 records what the officer and the partner command (11/R332). -/
def State.recordCmd (s : State) (c : Cmd) (status : Nat) : State :=
  if c.port = 64 ∨ c.port = 67 then
    s.auditAppend 64 s.hoop.sec s.hoop.st s.hoop.frac (c.op * 2 ^ 48 + status % 65536 * 2 ^ 32)
      (c.tag % 2 ^ 32 * 2 ^ 32 + (if c.port = 64 then 2 else 3) * 2 ^ 28) 0 0 0
  else s
/-- A command ends. -/
def State.done (s : State) (c : Cmd) (status : Nat) (result : Nat := 0) (reply : List W64 := []) : State :=
  (s.complete c status (w64 result) reply).recordCmd c status
/-- A started command that waits on hardware lets later ones start (R283). -/
def State.waitFor (s : State) (c : Cmd) (why : WaitFor) (old : List W64 := []) : State :=
  (s.recordCmd c 0).modStake fun m => { m with started := m.started ++ [{ cmd := c, why := why, old := old }] }
/-- The carrying out of an accepted command. `ready`: it may act now. -/
def stakeRowW (ready : State → Cmd → Bool) (p k op : Nat) (work : State → Cmd → State) (s : State) : Out :=
  match s.takeCmd p k op with
  | none => .next s
  | some c =>
    if !ready s c then .next s
    else
      let s := s.modStake fun m => { m with accepted := m.accepted.filter (· ≠ c) }
      match s.stateRefuses c with
      | some (st, r) => .next (s.complete c st (w64 r) [])
      | none => .next (work s c)
def stakeRow (p : Slot) (k : Fin 16) (op : Nat) (work : State → Cmd → State) (s : State) : Out :=
  stakeRowW (fun _ _ => true) p.val k.val op work s
/-- A command of a creel that waits while the creel is reset (09/R267). -/
def stakeRowR (p : Slot) (k : Fin 16) (op : Nat) (work : State → Cmd → State) (s : State) : Out :=
  stakeRowW (fun s c => (s.creel c.creel).st != .resetting) p.val k.val op work s

/-! ## Ports (R281-R285, R292) -/

/-- The transport of a slot is there (R276): an auditor's session, the pairing link, a host-attach link. -/
def State.transport (s : State) (p : Nat) : Bool :=
  if p = 65 ∨ p = 66 then s.stake.auditors.has (p - 65)
  else if p = 67 then decide (s.pair.st ≠ 0) && decide (s.pair.up ≠ 0)
  else if p = 68 ∨ p = 69 then s.hostMode (p - 60) && (s.lg (p - 60)).linkUp.testBit 0
  else true
/-- MBX_DOORBELL and MBX_CQ_CONS of a port (R281, R284); slots above 70 have no page that does anything. The Ceremony interface and
the sideband have no row for the words of a slot: they come with the doorbell, as pairs of offset and word. -/
def execMbxDoorbell (p : Slot) (v : W64) (slots : List (Nat × W64)) (s : State) : Out :=
  if !s.transport p then .next s
  else
    let s := if p.val = 64 ∨ p.val = 70 then
        (slots.filter fun w => w.1 < 0xC00 ∧ w.1 % 8 = 0).foldl (fun s w => s.mbxWrite p.val w.1 w.2) s
      else s
    .next (s.mbxWrite p.val 0xC00 v)
def execMbxCqCons (p : Slot) (v : W64) (s : State) : Out := if s.transport p then .next (s.mbxWrite p.val 0xC18 v) else .next s
def execMailboxCompletion (p : Slot) (s : State) : Out := .next (s.mbxPost p.val)
/-- 256 counts within a second suspend a port for a second (R292). -/
def execPortSuspension (p : Slot) (s : State) : Out :=
  let x := s.port p.val
  let n := (x.counts.filter fun t => s.clock < t + secs 1).length
  if p.val = 64 ∨ 71 ≤ p.val ∨ x.suspended.isSome ∨ n < 256 then .next s
  else .next ((s.setPort p.val { x with suspended := some s.clock }).note 0xA p.val 0x292)
def execPortSuspensionEnd (p : Slot) (s : State) : Out :=
  match (s.port p.val).suspended with
  | some t => if t + secs 1 ≤ s.clock then .next (s.modPort p.val fun x => { x with suspended := none, counts := [] }) else .next s
  | none => .next s

/-! ## The officer session and the cards (R295; 21/R577) -/

/-- A failed challenge: recorded; the eighth in a row locks the port for 15 min. -/
def State.challengeFailed (s : State) : State :=
  let n := s.stake.fails + 1
  let s := (s.modStake fun m => { m with fails := n }).note 0xA 64 n
  if 8 ≤ n then s.modStake fun m => { m with lockedAt := some s.clock } else s
/-- A card answers a challenge: a good answer ends the row of failures. -/
def State.challenge (s : State) (ok : Bool) : State :=
  if s.stake.lockedAt.isSome then s else if ok then s.modStake fun m => { m with fails := 0 } else s.challengeFailed
/-- Does a card answer: its signature is right and it is enrolled; before ownership any card may. -/
def State.cardOk (s : State) (c : Nat) (good : Bool) : Bool := good && (s.bbkm.life == 1 || s.bbkm.cards.contains c)
/-- The end of a session: component sets are zeroized, approvals go. -/
def State.sessionEnds (s : State) : State := s.modStake fun m => { m with session := none, comps := [], approvals := [] }
def execOfficerSessionOpen (c0 c1 : BitVec 384) (good0 good1 : Bool) (s : State) : Out :=
  if !s.stake.up ∨ s.officer.isSome ∨ s.stake.lockedAt.isSome ∨ c0 = c1 then .next s
  else
    let ok0 := s.cardOk c0.toNat good0
    let ok1 := s.cardOk c1.toNat good1
    if ok0 ∧ ok1 then
      .next (s.sessionEnds.modStake fun m => { m with session := some { c0 := c0.toNat, c1 := c1.toNat, last := s.clock }, fails := 0 })
    else .next ((s.challenge ok0).challenge ok1)
def execOfficerSessionEnd (removed : Bool) (s : State) : Out :=
  match s.stake.session with
  | none => .next s
  | some e => if removed ∨ e.last + secs 900 ≤ s.clock then .next s.sessionEnds else .next s
def execChallengeLockoutEnd (s : State) : Out :=
  match s.stake.lockedAt with
  | some t => if t + secs 900 ≤ s.clock then .next (s.modStake fun m => { m with lockedAt := none, fails := 0 }) else .next s
  | none => .next s
/-- A new object of a card: a component of a set, each from its own card; or an approval, complete when both cards show it. -/
def execCardPoll (card : Fin 2) (obj : CardObj) (good : Bool) (s : State) : Out :=
  match s.officer with
  | none => .next s
  | some e =>
    let s := s.challenge good
    if !good then .next s
    else match obj with
      | .component cr set ix key kcv =>
        let id := if card.val = 0 then e.c0 else e.c1
        if s.stake.comps.any fun c => c.creel = cr.val ∧ c.set = set.toNat ∧ c.ix = ix.val + 1 then .next s
        else .next (s.modStake fun m => { m with comps := m.comps ++
          [{ creel := cr.val, set := set.toNat, ix := ix.val + 1, card := id, key := key.take 32, kcv := kcv.toNat }] })
      | .approval cr name op =>
        let same := fun (a : Approval) => a.creel = cr.val && a.name == name && a.op == op.toNat
        let live := fun (a : Approval) => same a && (!(a.by0 && a.by1) || decide (s.clock < a.since + secs 600))
        let old := (s.stake.approvals.find? live).getD { creel := cr.val, name := name, op := op.toNat, by0 := false, by1 := false, since := s.clock }
        let a := if card.val = 0 then { old with by0 := true } else { old with by1 := true }
        let a := if a.by0 && a.by1 && !(old.by0 && old.by1) then { a with since := s.clock } else a
        .next (s.modStake fun m => { m with approvals := m.approvals.filter (fun x => !same x) ++ [a] })
/-- An approval not used within 10 min expires (11/R319). -/
def execApprovalExpiry (s : State) : Out :=
  .next (s.modStake fun m => { m with approvals := m.approvals.filter fun a => !(a.by0 && a.by1 && decide (a.since + secs 600 ≤ s.clock)) })

/-! ## Auditor sessions (R299) -/

def State.credOf (s : State) (p : Nat) : Option Bytes :=
  let id := fld (s.patEntry p) 47 32
  if id = 0 ∨ !s.stake.creds.has id then none else some (s.stake.creds.get [] id)
def State.auditorFits (s : State) (a : Nat) (key : Nat) : Bool :=
  !s.stake.auditors.has a && (match s.credOf (65 + a) with | some b => leNat b == key | none => false)
def execAuditorSessionOpen (key : BitVec 384) (s : State) : Out :=
  if !s.stake.up ∨ s.bbkm.life = 6 then .next s else
  match [0, 1].find? fun a => s.auditorFits a key.toNat with
  | some a => .next (s.modStake fun m => { m with auditors := m.auditors.set a s.clock })
  | none => .next s
/-- The 64-bit writes of a message in order. -/
def State.mbxWrites (s : State) (p off : Nat) : List W64 → State
  | [] => s
  | v :: r => (s.mbxWrite p off v).mbxWrites p (off + 8) r
def wordsOf : Nat → Bytes → List W64
  | 0, _ => []
  | f + 1, b => if b = [] then [] else w64 (leNat (b.take 8)) :: wordsOf f (b.drop 8)
/-- A message: operation, offset, length, then the data of a write; one that breaks the rules closes the session. -/
def execAuditorMessage (a : Fin 2) (m : Bytes) (s : State) : Out :=
  if !s.stake.auditors.has a then .next s
  else
    let p := 65 + a.val
    let op := leNat (m.take 4)
    let off := leNat ((m.drop 4).take 4)
    let len := leNat ((m.drop 8).take 4)
    let ok := 12 ≤ m.length ∧ (op = 1 ∨ op = 2) ∧ 8 ≤ len ∧ len ≤ 4096 ∧ len % 8 = 0 ∧ off % 8 = 0 ∧ off + len ≤ 4096 ∧
      m.length = 12 + (if op = 2 then len else 0)
    if ¬ ok then .next (s.modStake fun x => { x with auditors := x.auditors.erase a })
    else
      let s := s.modStake fun x => { x with auditors := x.auditors.set a s.clock }
      if op = 1 then .next (s.emit 6 (a.val :: (List.range (len / 8)).map fun i => (s.mbxRead p (off + 8 * i)).toNat))
      else .next (s.mbxWrites p off (wordsOf 512 (m.drop 12)))
def execAuditorSessionEnd (a : Fin 2) (closed : Bool) (s : State) : Out :=
  if s.stake.auditors.has a ∧ (closed ∨ s.stake.auditors.get 0 a + secs 900 ≤ s.clock) then
    .next (s.modStake fun x => { x with auditors := x.auditors.erase a })
  else .next s

end Sys2Proof.Machine
end

