-- ==== Sys2Proof/Machine/Hoop.lean ====
section
/-!
DEFINITION. The Hoop: sources, discipline, steps, holdover, its registers and its commands (14).
-/
namespace Sys2Proof.Machine

/-! ## Registers (R426) -/

def State.holdoverAge (s : State) : Nat := if s.hoop.st = 2 then (s.clock - s.hoop.lostAt) / 2 ^ 32 else 0
def State.hoopStatus (s : State) : W64 :=
  let h := s.hoop
  w64 (s.holdoverAge % 2 ^ 32 * 2 ^ 32 + h.src % 16 * 2 ^ 28 + (h.ptpUtc.getD s.stake.hoopCfg.utc) % 256 * 2 ^ 20 + min h.steps 255 * 2 ^ 12 +
    b2n h.stepNeeded * 2 + b2n h.alarm)
/-- A read of the Hoop page: each read is one sample. -/
def State.hoopPageRead (s : State) (off : Nat) : State × W64 :=
  if off = 0 then
    let (s, sec, frac, _) := s.hoopRead
    (s, w64 (sec % 2 ^ 32 * 2 ^ 32 + frac))
  else if off = 8 then
    let (s, sec, _, st) := s.hoopRead
    (s, w64 (st % 4 * 2 ^ 32 + sec / 2 ^ 32 % 2 ^ 32))
  else if off = 0x10 then (s, s.hoopStatus)
  else (s, 0)

/-! ## Selection and state (R430-R433) -/

/-- Within n ns. -/
def withinNs (d : Int) (n : Nat) : Bool := decide (d.natAbs * 1000000000 ≤ n * 2 ^ 32)
def withinSec (d : Int) : Bool := decide (d.natAbs ≤ 2 ^ 32)
def State.hoopQual (s : State) (c : Nat) : Bool := s.hoop.qual.testBit c
def State.hoopOff (s : State) (c : Nat) : Int := s.hoop.offs.get 0 c
/-- REF gives seconds only once they are known. -/
def State.refKnows (s : State) : Bool := s.hoop.ref.sec.isSome
/-- The qualified sources of the priority list that can be used, highest first. -/
def State.hoopSources (s : State) : List Nat :=
  let w := s.stake.hoopCfg.sources
  ([w % 16, w / 16 % 16, w / 256 % 16].takeWhile (· ≠ 0)).filter fun c => s.hoopQual c && (c != 1 || s.refKnows)
def State.modHoop (s : State) (f : Hoop → Hoop) : State := { s with hoop := f s.hoop }
/-- Every change of state or source raises the Hoop event and is recorded in chain 64. -/
def State.hoopChanged (s : State) : State :=
  (((List.range 64).filter fun c => (s.creel c).st != .unassigned).foldl (fun s c => s.notice c 3 3) s).auditEvent
def State.hoopTo (s : State) (st src : Nat) : State :=
  if s.hoop.st = st ∧ s.hoop.src = src then s
  else
    let s := s.modHoop fun h => { h with st := st, src := src, lostAt := if st = 2 ∧ h.st ≠ 2 then s.clock else h.lostAt,
                                         alarm := h.alarm && st == 2 }
    s.hoopChanged
/-- Is a qualified source more than 1 s away (R426, R433)? -/
def State.hoopFar (s : State) : State :=
  s.modHoop fun h => { h with stepNeeded := s.hoopSources.any fun c => !withinSec (s.hoopOff c) }
/-- A step of Hoop time: counted, and the new seconds are written to flash 1 (R424, R425). -/
def State.hoopStepBy (s : State) (d : Int) : State :=
  let t := (s.now + d : Int).toNat
  s.modHoop fun h => { h with sec := t / 2 ^ 32, frac := t % 2 ^ 32, steps := h.steps + 1, saved := some (t / 2 ^ 32),
                              offs := h.offs.map fun p => (p.1, p.2 - d), stepNeeded := false, slew := false, cal := false }
/-- The source is evaluated anew: at a qualification, a loss, or a change of an offset (R432). -/
def State.hoopEval (s : State) : State :=
  let l := s.hoopSources
  if s.hoop.st = 0 then
    match l with
    | [] => s
    | c :: _ => ((s.hoopStepBy (s.hoopOff c)).hoopTo 1 c).hoopFar
  else
    let s := s.hoopFar
    match l.find? fun c => withinSec (s.hoopOff c) with
    | none => (s.modHoop fun h => { h with slew := false, cal := false }).hoopTo 2 0
    | some c =>
      let keep := s.hoop.st = 1 ∧ (withinNs (s.hoopOff c) 100 ∨ (s.hoop.cal ∧ s.hoop.src = c))
      if keep then (s.modHoop fun h => { h with cal := h.cal && h.src == c }).hoopTo 1 c
      else (s.modHoop fun h => { h with slew := true, cal := false }).hoopTo 2 c
def State.hoopQualify (s : State) (c : Nat) : State := (s.modHoop fun h => { h with qual := h.qual ||| 2 ^ c }).hoopEval
/-- A source is lost; with the last one the age of HOLDOVER begins (R426). -/
def State.hoopLose (s : State) (c : Nat) : State :=
  let t := (s.modHoop fun h => { h with qual := if h.qual.testBit c then h.qual - 2 ^ c else h.qual, offs := h.offs.erase c }).hoopEval
  if s.hoopQual c ∧ t.hoop.qual = 0 then t.modHoop fun h => { h with lostAt := s.clock, alarm := false } else t
def State.hoopOffset (s : State) (c : Nat) (d : Int) : State := s.modHoop fun h => { h with offs := h.offs.set c d }

/-! ## Events of the sources (R429-R431) -/

/-- The whole second nearest to a time. -/
def nearestSec (t : Int) : Nat := ((t + 2 ^ 31) / 2 ^ 32).toNat
def State.ppsDelay (s : State) : Int := s.stake.hoopCfg.ppsDelay.toInt
/-- The seconds of this edge: counted on from the last, named by HOOP_SECONDS, or known from PTP, PAIR or the Hoop itself. -/
def State.edgeSec (s : State) : Option Nat :=
  match s.hoop.ref.sec, s.hoop.ref.given with
  | some n, _ => some (n + 1)
  | none, some (v, t) => if s.clock < t + secs 3 / 2 then some v else none
  | none, none =>
    if s.hoop.st ≠ 0 then some (nearestSec (s.now - s.ppsDelay))
    else if s.hoopQual 2 then some (nearestSec (s.now + s.hoopOff 2 - s.ppsDelay))
    else if s.hoopQual 3 then some (nearestSec (s.now + s.hoopOff 3 - s.ppsDelay))
    else none
def State.losePtp (s : State) : State := (s.modHoop fun h => { h with sync := [], ptpUtc := none }).hoopLose 2
/-- The time without an edge, or without a Sync, after which the source is lost, has passed. -/
def State.refDue (s : State) : Bool := match s.hoop.ref.last with | some t => decide (t + secs 3 / 2 ≤ s.clock) | none => false
def State.ptpDue (s : State) : Bool := s.hoop.sync ≠ [] && decide (s.hoop.lastSync + secs 3 ≤ s.clock)
/-- REF and PTP when they are lost (R429): nothing is left of what they had counted, but for a HOOP_SECONDS that came after the
time at which REF was lost (R430). -/
def State.loseRef (s : State) : State :=
  let after := fun (p : Nat × Nat) => s.refDue && decide (s.hoop.ref.last.getD 0 + secs 3 / 2 ≤ p.2)
  (s.modHoop fun h => { h with ref := { edges := 0, last := none, sec := none, given := h.ref.given.filter after } }).hoopLose 1
/-- HOOP_PPS: an edge, the cycles of HOOP_10M since the last one, and whether HOOP_10M keeps to 10 ppm. -/
def execHoopPps (cycles : Nat) (tenM : Bool) (s : State) : Out :=
  let s := if s.refDue then s.loseRef else s
  let r := s.hoop.ref
  let good := tenM && r.last.isSome && decide (9999998 ≤ cycles ∧ cycles ≤ 10000002)
  let n := if good then r.edges + 1 else 1
  let sec := s.edgeSec
  let s := s.modHoop fun h => { h with ref := { edges := n, last := some s.clock, sec := sec, given := if sec.isSome then none else h.ref.given } }
  let s := match sec with | some v => s.hoopOffset 1 ((v : Int) * 2 ^ 32 + s.ppsDelay - s.now) | none => s
  if s.hoopQual 1 then .next s.hoopEval
  else if 4 ≤ n ∧ tenM then .next (s.hoopQualify 1)
  else .next s
def spread (l : List Int) : Int := l.foldl max (l.headD 0) - l.foldl min (l.headD 0)
/-- PTP_MESSAGE: a Sync exchange with the offset it gives for a symmetric path, or another message; the UTC offset it gives.
The path asymmetry of HOOP_CAL is taken in (R436; log entry 145). -/
def execPtpMessage (sync : Bool) (measured : Int) (utc : Option (BitVec 8)) (s : State) : Out :=
  let offset := measured + s.stake.hoopCfg.ptpAsym.toInt
  let s := if sync ∧ s.ptpDue then s.losePtp else s
  let s := match utc with | some u => s.modHoop fun h => { h with ptpUtc := some u.toNat } | none => s
  if !sync then .next s
  else
    let l := (offset :: s.hoop.sync).take 16
    let s := (s.modHoop fun h => { h with sync := l, lastSync := s.clock }).hoopOffset 2 offset
    if s.hoopQual 2 then .next s.hoopEval
    else if l.length = 16 ∧ withinNs (spread l) 100 then .next (s.hoopQualify 2)
    else .next s
/-- SOURCE_LOST: REF (0), PTP (1) or PAIR (2) meets a condition of R429. `inputLost`: HOOP_10M absent, the announce receipt
timeout, the partner's lock lost. -/
def execSourceLost (src : Fin 3) (inputLost : Bool) (s : State) : Out :=
  match src with
  | 0 =>
    if inputLost ∨ s.refDue then .next s.loseRef else .next s
  | 1 =>
    if inputLost ∨ s.ptpDue then .next s.losePtp else .next s
  | 2 => if inputLost then .next (s.hoopLose 3) else .next s
def execHoopSecondsDiscard (s : State) : Out :=
  match s.hoop.ref.given with
  | some (_, t) => if t + secs 3 / 2 ≤ s.clock then .next (s.modHoop fun h => { h with ref := { h.ref with given := none } }) else .next s
  | none => .next s
/-- SLEW_COMPLETE: what is left of the offset is a measured value within 10 ns. -/
def execSlewComplete (s : State) : Out :=
  if !(s.hoop.slew || s.hoop.cal) ∨ s.hoop.src = 0 then .next s
  else
    let d : Int := (s.drawn .measured % 85 : Nat) - (42 : Int)
    let by_ := s.hoopOff s.hoop.src - d
    let s := s.spend.modHoop fun h => { h with slew := false, cal := false, offs := h.offs.map fun p => (p.1, p.2 - by_) }
    .next (s.hoopTo 1 s.hoop.src)
def execHoldoverAlarm (s : State) : Out :=
  if s.hoop.st = 2 ∧ !s.hoop.alarm ∧ s.stake.hoopCfg.alarm ≤ s.holdoverAge then
    .next (((List.range 64).filter fun c => (s.creel c).st != .unassigned).foldl (fun s c => s.notice c 4 3)
      (s.modHoop fun h => { h with alarm := true }))
  else .next s
/-- HOOP_SECONDS_SAVE: a multiple of 64 not yet written (R425). -/
def execHoopSecondsSave (s : State) : Out := .next (s.modHoop Hoop.save)
/-- HOOP_PPS_OUT: an edge at every integer second (R436). -/
def execHoopPpsOut (s : State) : Out :=
  if s.board.ppsSec = s.hoop.sec then .next s
  else .next (({ s with board := { s.board with pps := s.board.pps + 1, ppsSec := s.hoop.sec } }).emit 7 [s.hoop.sec])

/-! ## Commands (R437) -/

def execHoopStatus (p : Slot) (k : Fin 16) (s : State) : Out :=
  stakeRow p k 0x0701 (fun s c =>
    let off := fun (n : Nat) => if s.hoopQual n then BitVec.ofInt 64 (s.hoopOff n) else 0
    s.done c 0 0 [s.hoopStatus, off 1, off 2, off 3, w64 s.hoop.qual]) s
def State.modHoopCfg (s : State) (f : HoopCfg → HoopCfg) : State := s.modStake fun m => { m with hoopCfg := f m.hoopCfg }
def execHoopSources (p : Slot) (k : Fin 16) (s : State) : Out :=
  stakeRow p k 0x0702 (fun s c => ((s.modHoopCfg fun h => { h with sources := c.n 2, alarm := c.n 3 }).hoopEval).done c 0) s
/-- Another port or domain starts PTP anew. -/
def execHoopPtp (p : Slot) (k : Fin 16) (s : State) : Out :=
  stakeRow p k 0x0703 (fun s c =>
    if s.stake.hoopCfg.ptp = c.n 2 then s.done c 0
    else (s.modHoopCfg fun h => { h with ptp := c.n 2 }).losePtp.done c 0) s
/-- A change of calibration is slewed in LOCKED (R436). -/
def execHoopCal (p : Slot) (k : Fin 16) (s : State) : Out :=
  stakeRow p k 0x0704 (fun s c =>
    ((s.modHoopCfg fun h => { h with ppsDelay := c.w 2, ptpAsym := c.w 3, utc := c.n 4 }).modHoop fun h => { h with cal := h.st == 1 }).done c 0) s
def execHoopSeconds (p : Slot) (k : Fin 16) (s : State) : Out :=
  stakeRow p k 0x0705 (fun s c =>
    if s.hoop.st ≠ 0 then s.done c 0x0105
    else (s.modHoop fun h => { h with ref := { h.ref with given := some (c.n 2, s.clock) } }).done c 0) s
def execHoopStep (p : Slot) (k : Fin 16) (s : State) : Out :=
  stakeRow p k 0x0706 (fun s c =>
    if !s.hoop.stepNeeded then s.done c 0x0105
    else match s.hoopSources.find? fun n => !withinSec (s.hoopOff n) with
      | none => s.done c 0x0105
      | some n => ((s.hoopStepBy (s.hoopOff n)).hoopTo 1 n).hoopFar.done c 0) s

end Sys2Proof.Machine
end

