-- ==== Sys2Proof/Machine/LaneRegs.lean ====
section
/-!
DEFINITION. The registers that the lane groups and the line ports serve themselves: control pages (16/R471-R479), function
pages of the host-attach endpoints (R483-R486), and the line-port block (R493-R495).
-/
namespace Sys2Proof.Machine

/-! ## Lane-group control pages -/

def lgcCtlWrite (g : Lg) (v : W64) : Lg := if fld v 2 0 < 4 then { g with ctl := w64 (fld v 2 0) } else g
/-- A cap of 0 or above 768 leaves its field as it is (R475). -/
def capWrite (w v : W64) (i : Nat) : W64 :=
  let c := fld v (10 * i + 9) (10 * i)
  if c = 0 ∨ 768 < c then w else setFld w (10 * i + 9) (10 * i) c
def lgcTagsWrite (g : Lg) (v : W64) : Lg := { g with tags := (List.range 4).foldl (fun w i => capWrite w v i) g.tags }
def lgcTagsRead (g : Lg) : W64 :=
  setFld (setFld (setFld g.tags 63 40 0) 63 54 (g.reqs.length + g.quarantine.length)) 53 44 g.quarantine.length
def lgcStrictWrite (g : Lg) (k : Nat) (v : W64) : Lg := { g with strict := g.strict.set k (setFld v 11 1 0) }
/-- The ranges of two decoder words share an address. -/
def hdmMeets (a b : W64) : Bool := decide (fld a 63 49 ≤ fld b 48 34) && decide (fld b 63 49 ≤ fld a 48 34)
/-- A write that enables decoder k of group n is refused (R473). -/
def State.hdmRefused (s : State) (n k : Nat) (v : W64) : Bool :=
  decide (fld v 48 34 < fld v 63 49) || !(s.lg n).cxlUp.testBit (fld v 7 6) ||
    (upto 0 10).any fun m => (s.lg m).hdm.any fun p => (m != n || p.1 != k) && tbit p.2 0 && hdmMeets v p.2
/-- LGC_HDM_k: bits of the range change only while it is disabled; a refused write sets error and changes nothing else. -/
def State.hdmWrite (s : State) (n k : Nat) (v : W64) : State :=
  let old := (s.lg n).hdm.get 0 k
  let m := setFld (setFld v 33 8 0) 4 2 0
  let put := fun w => s.modLg n fun g => { g with hdm := g.hdm.set k w }
  if tbit old 0 then
    if setFld m 1 0 0 ≠ setFld old 1 0 0 then s else put (setFld old 0 0 (fld m 0 0))
  else if !tbit m 0 then put (setFld m 1 1 (fld old 1 1))
  else if s.hdmRefused n k m then put (setFld old 1 0 2)
  else put (setFld m 1 0 1)
def State.lgcWrite (s : State) (n off : Nat) (v : W64) : State :=
  if off = 0 then s.modLg n fun g => lgcCtlWrite g v
  else if off = 8 then s.modLg n fun g => lgcTagsWrite g v
  else if 0x100 ≤ off ∧ off < 0x180 ∧ off % 8 = 0 then s.modLg n fun g => lgcStrictWrite g ((off - 0x100) / 8) v
  else if 0x200 ≤ off ∧ off < 0x240 ∧ off % 8 = 0 then s.hdmWrite n ((off - 0x200) / 8) v
  else s
def State.lgcRead (s : State) (n off : Nat) : W64 :=
  let g := s.lg n
  if off = 0 then g.ctl
  else if off = 8 then lgcTagsRead g
  else if 0x100 ≤ off ∧ off < 0x180 ∧ off % 8 = 0 then g.strict.get 0 ((off - 0x100) / 8)
  else if 0x200 ≤ off ∧ off < 0x240 ∧ off % 8 = 0 then g.hdm.get 0 ((off - 0x200) / 8)
  else 0
def execLgcCtl (lg : Fin 10) (v : W64) (s : State) : Out := .next (s.lgcWrite lg.val 0 v)
def execLgcTags (lg : Fin 10) (v : W64) (s : State) : Out := .next (s.lgcWrite lg.val 8 v)
def execLgcStrict (lg : Fin 10) (k : Fin 16) (v : W64) (s : State) : Out := .next (s.lgcWrite lg.val (0x100 + 8 * k.val) v)
def execLgcHdm (lg : Fin 10) (k : Fin 8) (v : W64) (s : State) : Out := .next (s.lgcWrite lg.val (0x200 + 8 * k.val) v)

/-! ## Host-attach functions -/

/-- The check of the staged windows: 0, or the reason of R485 (a size out of range is looked for first). -/
def iwSize (t : W64) : Nat := fld t 5 0
def iwTarget (t : W64) : Nat := fld t 51 12 * 4096
def iwOffset (h : W64) : Nat := fld h 35 12 * 4096
def iwMeets (a b : W64 × W64) : Bool :=
  decide (iwOffset a.2 < iwOffset b.2 + 2 ^ iwSize b.1) && decide (iwOffset b.2 < iwOffset a.2 + 2 ^ iwSize a.1)
def staged (f : HostFn) : List (W64 × W64) :=
  ((List.range 8).map fun k => (f.tgt.get 0 k, f.host.get 0 k)).filter fun p => iwSize p.1 ≠ 0
def anyPair (l : List (W64 × W64)) : Bool :=
  match l with
  | [] => false
  | a :: r => r.any (iwMeets a) || anyPair r
def iwCheck (f : HostFn) : Nat :=
  let l := staged f
  if l.any fun p => iwSize p.1 < 12 ∨ 36 < iwSize p.1 then 3
  else if l.any fun p => iwOffset p.2 % 2 ^ iwSize p.1 ≠ 0 ∨ iwTarget p.1 % 2 ^ iwSize p.1 ≠ 0 then 1
  else if anyPair l then 2
  else 0
/-- HF_COMMIT acts on all eight windows at one point (R486). -/
def hfCommit (f : HostFn) (v : W64) : HostFn :=
  if !tbit v 0 then f
  else if iwCheck f = 0 then { f with act := staged f, gen := (f.gen + 1) % 2 ^ 32 }
  else { f with err := iwCheck f, cerr := true }
def hfStatus (f : HostFn) : W64 := w64 (f.gen * 2 ^ 32 + f.err * 256 + b2n f.cerr)
/-- A write of kind 3 leaves the export register unchanged (R483). -/
def hfExport (f : HostFn) (j : Nat) (v : W64) : HostFn :=
  if fld v 15 14 = 3 then f else { f with exports := f.exports.set j (setFld (setFld v 63 16 0) 13 10 0) }
def hfWrite (f : HostFn) (off : Nat) (v : W64) : HostFn :=
  if off < 0x80 ∧ off % 16 = 0 then { f with tgt := f.tgt.set (off / 16) (setFld (setFld v 63 52 0) 11 6 0) }
  else if off < 0x80 ∧ off % 16 = 8 then { f with host := f.host.set (off / 16) (setFld (setFld v 63 36 0) 11 0 0) }
  else if off = 0x80 then hfCommit f v
  else if off = 0x88 then { f with cerr := f.cerr && !tbit v 0 }
  else if off = 0x90 then (if fld v 9 0 = 0 ∨ 768 < fld v 9 0 then f else { f with ctl := w64 (fld v 9 0) })
  else if off = 0x98 then { f with outb := setFld v 11 0 0 }
  else if 0x108 ≤ off ∧ off < 0x180 ∧ off % 8 = 0 then hfExport f ((off - 0x100) / 8) v
  else f
def hfRead (f : HostFn) (off : Nat) : W64 :=
  if off < 0x80 ∧ off % 16 = 0 then f.tgt.get 0 (off / 16)
  else if off < 0x80 ∧ off % 16 = 8 then f.host.get 0 (off / 16)
  else if off = 0x88 then hfStatus f
  else if off = 0x90 then f.ctl
  else if off = 0x98 then f.outb
  else if 0x108 ≤ off ∧ off < 0x180 ∧ off % 8 = 0 then f.exports.get 0 ((off - 0x100) / 8)
  else 0
def execHfCommit (ep : Fin 2) (cr : CreelId) (v : W64) (s : State) : Out :=
  .next (s.modHf ep.val (cr.val + 1) fun f => hfWrite f 0x80 v)
/-- HF_EXPORT_j, j = 1 to 15; there is no register for j = 0. -/
def execHfExport (ep : Fin 2) (cr : CreelId) (j : Fin 16) (v : W64) (s : State) : Out :=
  .next (s.modHf ep.val (cr.val + 1) fun f => hfWrite f (0x100 + 8 * j.val) v)

/-! ## The line-port block -/

def lrxKind : RingKind := { unit := 5, dsize := 16, esize := 32 }
def ltxKind : RingKind := { unit := 5, dsize := 32, esize := 32 }
def State.lq (s : State) (k : Nat) : LineQ := s.lqs.get lqReset k
def State.setLq (s : State) (k : Nat) (x : LineQ) : State := { s with lqs := s.lqs.set k x }
def LineQ.port (x : LineQ) : Nat := fld x.ctl 34 32
/-- Completion records of a queue's direction that wait for the partner. -/
def State.linePending (s : State) (k : Nat) (tx : Bool) : Nat :=
  (s.pair.commits.filter fun c => match c.who with | .line j t _ _ _ => j == k && t == tx | _ => false).length
/-- LQ_CTRL governs both directions (R494). -/
def State.lqCtrl (s : State) (cr slot : Nat) (v : W64) : State :=
  let k := 16 * cr + slot
  if !s.lqs.has k then s
  else
    let x := s.lq k
    let m := w64 (fld v 34 32 * 2 ^ 32 + fld v 28 16 * 2 ^ 16 + fld v 2 0)
    let (s, rx) := s.ringCtl cr lrxKind (fld v 34 32) x.rx m 0 (s.linePending k false)
    let (s, tx) := s.ringCtl cr ltxKind (fld v 34 32) x.tx m 0 (s.linePending k true)
    s.setLq k { rx := rx, tx := tx, ctl := setFld m 1 1 (b2n (tbit rx.ctl 1 || tbit tx.ctl 1)) }
def State.lqDb (s : State) (cr slot : Nat) (tx : Bool) (v : W64) : State :=
  let k := 16 * cr + slot
  if !s.lqs.has k ∨ (s.creel cr).st = .resetting then s
  else
    let x := s.lq k
    let (s, r) := s.ringDoorbell cr (if tx then ltxKind else lrxKind) x.port (if tx then x.tx else x.rx) v
    s.setLq k (if tx then { x with tx := r } else { x with rx := r })
def State.lqBase (s : State) (cr slot : Nat) (tx cq : Bool) (v : W64) : State :=
  let k := 16 * cr + slot
  if !s.lqs.has k then s
  else
    let x := s.lq k
    let (s, r) := s.ringBase cr (if tx then ltxKind else lrxKind) x.port (if tx then x.tx else x.rx) cq v
    s.setLq k (if tx then { x with tx := r } else { x with rx := r })
/-- LQ_STATE tells of both directions: the receive side's fault code first; stopped when both have stopped. -/
def LineQ.state (x : LineQ) : W64 :=
  let f := if x.rx.fault ≠ 0 then x.rx.fault else x.tx.fault
  w64 (f % 256 * 256 + b2n (f != 0) * 4 +
    b2n ((tbit x.ctl 1 || x.rx.fault != 0) && (tbit x.ctl 1 || x.tx.fault != 0)) * 2 + b2n (x.rx.running || x.tx.running))
def State.lqWrite (s : State) (cr slot off : Nat) (v : W64) : State :=
  match off with
  | 0x00 => s.lqBase cr slot false false v
  | 0x08 => s.lqBase cr slot false true v
  | 0x10 => s.lqBase cr slot true false v
  | 0x18 => s.lqBase cr slot true true v
  | 0x20 => s.lqCtrl cr slot v
  | 0x28 => s.lqDb cr slot false v
  | 0x30 => s.lqDb cr slot true v
  | 0x38 => let k := 16 * cr + slot; if s.lqs.has k then s.setLq k { s.lq k with rx := (s.lq k).rx.consume v } else s
  | 0x40 => let k := 16 * cr + slot; if s.lqs.has k then s.setLq k { s.lq k with tx := (s.lq k).tx.consume v } else s
  | _ => s
def State.lqRead (s : State) (cr slot off : Nat) : W64 :=
  let k := 16 * cr + slot
  if !s.lqs.has k then 0
  else
    let x := s.lq k
    match off with
    | 0x00 => x.rx.ring
    | 0x08 => x.rx.cq
    | 0x10 => x.tx.ring
    | 0x18 => x.tx.cq
    | 0x20 => x.ctl
    | 0x38 => w64 x.rx.cons
    | 0x40 => w64 x.tx.cons
    | 0x48 => x.rx.status
    | 0x50 => x.tx.status
    | 0x58 => x.state
    | _ => 0
/-- The receive rules of a creel, RULE_DEFAULT last (R493). -/
def State.rule (s : State) (cr k : Nat) : W64 := s.rules.get 0 (17 * cr + k)
def State.lineWrite (s : State) (off : Nat) (v : W64) : State :=
  let cr := off / 0x20000
  let page := off % 0x20000 / 4096
  let o := off % 4096
  if page < 16 then s.lqWrite cr page o v
  else if page = 16 ∧ o < 0x80 ∧ o % 8 = 0 then { s with rules := s.rules.set (17 * cr + o / 8) (setFld v 19 4 0) }
  else if page = 16 ∧ o = 0x80 then { s with rules := s.rules.set (17 * cr + 16) (setFld v 63 5 0) }
  else s
def State.lineRead (s : State) (off : Nat) : W64 :=
  let cr := off / 0x20000
  let page := off % 0x20000 / 4096
  let o := off % 4096
  if page < 16 then s.lqRead cr page o
  else if page = 16 ∧ o ≤ 0x80 ∧ o % 8 = 0 then s.rule cr (o / 8)
  else 0
def execLqRxdb (cr : CreelId) (slot : Fin 16) (v : W64) (s : State) : Out := .next (s.lqDb cr slot.val false v)
def execLqTxdb (cr : CreelId) (slot : Fin 16) (v : W64) (s : State) : Out := .next (s.lqDb cr slot.val true v)
def execLqCtrl (cr : CreelId) (slot : Fin 16) (v : W64) (s : State) : Out := .next (s.lqCtrl cr slot.val v)

end Sys2Proof.Machine
end

