-- ==== Sys2Proof/Machine/Qos.lean ====
section
/-!
DEFINITION. The QoS registers of a port: QOS_PORT_CFG and QOS_PORT_STAT (08/R246, R247).
-/
namespace Sys2Proof.Machine

/-- target_ns at reset (08/R247). -/
def targetReset (p : Nat) : Nat :=
  if p < 64 then 1000 else if p < 80 then 600 else if p < 83 then 400 else if p < 93 then 2000 else if p = 93 then 4000
  else if p = 94 then 800 else 0xFFFF
def State.qos (s : State) (p : Nat) : W64 := s.qosCfg.get (w64 (targetReset p * 2 ^ 32)) p
def targetOf (w : W64) : Nat := fld w 47 32
def shareOf (w : W64) : Nat := fld w 31 22
def qosStatReset (p : Nat) : QosStat := { est := targetReset p, misses := 0, hammer := 0 }
def Chan.qstat (c : Chan) (p : Nat) : QosStat := c.stat.get (qosStatReset p) p
def sat16 (n : Nat) : Nat := min n 0xFFFF
/-- QOS_PORT_STAT of a port in a channel (08/R247). -/
def Chan.statWord (c : Chan) (p : Nat) : W64 :=
  let q := c.qstat p
  w64 (q.est % 65536 * 2 ^ 48 + q.misses % 65536 * 2 ^ 32 + q.hammer % 65536 * 2 ^ 16 +
    b2n (c.banks.any fun b => b.2.throttled.contains p))
/-- UC_QOS of a creel: its port over the 16 channels (20/R566). -/
def State.ucQos (s : State) (p : Nat) : W64 :=
  let q := (List.range 16).map fun ch => (s.chan ch).qstat p
  let any := (List.range 16).any fun ch => (s.chan ch).banks.any fun b => b.2.throttled.contains p
  let sum := fun (f : QosStat → Nat) => sat16 (q.foldl (fun a x => a + f x) 0)
  w64 (q.foldl (fun a x => max a x.est) 0 % 65536 * 2 ^ 48 + sum (·.misses) * 2 ^ 32 + sum (·.hammer) * 2 ^ 16 + b2n any)

end Sys2Proof.Machine
end

