-- ==== Sys2Proof/Machine/Router.lean ====
section
/-!
DEFINITION. The interrupt router, the creels' error pages and uncore pages as their registers (17/R497-R512, 20/R566,
09/R272, 15/R453).
-/
namespace Sys2Proof.Machine

/-! ## The interrupt router -/

/-- The check of IR_SRC_WRITE (17/R500). -/
def State.srcWriteOk (s : State) (cr : Nat) (v : W64) : Bool :=
  let dest := fld v 49 48
  decide ((s.src (fld v 63 51)).holder = some cr) && dest != 3 &&
    (if dest = 2 then (s.endpointOf cr).isSome && decide (fld v 31 24 ≤ 63) else s.creelOf (fld v 47 40) == some cr)
/-- A discarded write is recorded with code 0x0034. -/
def State.routerDiscard (s : State) (cr : Nat) (v : W64) : State := s.creelError cr 2 8 0x34 0 cr (v.toNat % 2 ^ 48)
def State.irSrcWrite (s : State) (cr : Nat) (v : W64) : State :=
  if s.srcWriteOk cr v then
    let i := fld v 63 51
    let e := s.src i
    s.setSrc i { e with dest := fld v 49 48, core := fld v 47 40, vector := fld v 31 24, mask := tbit v 0,
                        pending := (e.pending && !tbit v 1) || tbit v 2 }
  else s.routerDiscard cr v
/-- An inter-processor interrupt (17/R504). -/
def State.irIpi (s : State) (cr : Nat) (v : W64) : State :=
  let n := fld v 47 40
  if s.creelOf n = some cr then s.setVector n (fld v 31 24) (tbit v 32) else s.routerDiscard cr v
def execIrSrcWrite (cr : CreelId) (v : W64) (s : State) : Out := .next (s.irSrcWrite cr v)
def execIrIpi (cr : CreelId) (v : W64) (s : State) : Out := .next (s.irIpi cr v)
/-- EVENT: an event of a unit that a creel owns. -/
def execEvent (src : BitVec 13) (cr : CreelId) (s : State) : Out := .next (s.unitEvent src.toNat cr 8 cr)
/-- The pending bit of an MSI-X vector of a creel's function (17/R501). -/
def State.msixPend (s : State) (cr vec : Nat) : State :=
  match s.endpointOf cr with
  | none => s
  | some e => s.modHf e (cr + 1) fun f => { f with msix := f.msix.set vec { f.msix.get msixReset vec with pend := true } }
/-- VECTOR_DELIVERY: a pending source that is unmasked is delivered; a core in a swap pause gets it after the pause (17/R506), one that
has left the creel gets nothing. -/
def execVectorDelivery (src : BitVec 13) (s : State) : Out :=
  let e := s.src src.toNat
  match e.holder with
  | none => .next s
  | some cr =>
    if !e.pending ∨ e.mask ∨ (e.dest ≠ 2 ∧ (s.core e.core).run = .paused) then .next s
    else
      let s := s.setSrc src.toNat { e with pending := false }
      if e.dest = 2 then .next (s.msixPend cr e.vector)
      else if s.creelOf e.core = some cr then .next (s.setVector e.core e.vector (e.dest == 1))
      else .next s

def irSrcRead (i : Nat) (e : EvSrc) (cr : Nat) : W64 :=
  if e.holder = some cr then
    w64 (i * 2 ^ 51 + e.dest * 2 ^ 48 + e.core * 2 ^ 40 + e.vector * 2 ^ 24 + b2n e.pending * 4 + 2 + b2n e.mask)
  else 0
def State.irRead (s : State) (core : Option Nat) (cr off : Nat) : W64 :=
  if off = 0x20 then (s.creel cr).notice
  else match core with
    | none => 0
    | some n =>
      let c := s.core n
      if off = 0x08 then c.irSel
      else if off = 0x10 then irSrcRead c.irSel.toNat (s.src c.irSel.toNat) cr
      else if 0x40 ≤ off ∧ off < 0x60 ∧ off % 8 = 0 then c.upend.get 0 ((off - 0x40) / 8)
      else 0
def State.irWrite (s : State) (core : Option Nat) (cr off : Nat) (v : W64) : State :=
  if off = 0 then s.irSrcWrite cr v
  else if off = 0x18 then s.irIpi cr v
  else if off = 0x20 then s.modCreel cr fun c => { c with notice := c.notice &&& ~~~ v }
  else match core with
    | none => s
    | some n =>
      if off = 0x08 then s.modCore n fun c => { c with irSel := w64 (fld v 12 0) }
      else if 0x40 ≤ off ∧ off < 0x60 ∧ off % 8 = 0 then
        s.modCore n fun c => { c with upend := c.upend.set ((off - 0x40) / 8) (c.upend.get 0 ((off - 0x40) / 8) &&& ~~~ v) }
      else s

/-! ## Error pages (17/R509, R510) -/

def recWord (r : Rec) : Nat → W64 | 0 => r.w0 | 1 => r.w1 | 2 => r.w2 | _ => r.w3
def recReset : Rec := { w0 := 0, w1 := 0, w2 := 0, w3 := 0 }
def State.ebRead (s : State) (cr off : Nat) : W64 :=
  let p := (s.creel cr).eb
  if off = 0 then w64 p.prod
  else if off = 8 then w64 p.cons
  else if off = 0x10 then p.status
  else if off = 0x18 then p.ctl
  else if 0x800 ≤ off ∧ off % 8 = 0 then recWord (p.slots.get recReset ((off - 0x800) / 32)) (off % 32 / 8)
  else 0
def State.ebWrite (s : State) (cr off : Nat) (v : W64) : State :=
  let put := fun (f : EbPage → EbPage) => s.modCreel cr fun c => { c with eb := f c.eb }
  if off = 8 then put fun p => { p with cons := fld v 31 0 }
  else if off = 0x10 then put fun p => { p with status := v }
  else if off = 0x18 then put fun p => { p with ctl := setFld v 63 32 0 }
  else s

/-! ## Uncore pages (20/R566) -/

def State.ucLive (s : State) (cr off : Nat) : W64 := if off = 0 then s.ucQos cr else (s.creel cr).uc.get 0 off
/-- UC_FREEZE: the live counts are copied in one instant. -/
def State.ucFreeze (s : State) (cr : Nat) (v : W64) : State :=
  if tbit v 0 then s.modCreel cr fun c => { c with ucFrozen := (List.range 17).map fun i => (8 * i, s.ucLive cr (8 * i)) } else s
def execUcFreeze (cr : CreelId) (v : W64) (s : State) : Out := .next (s.ucFreeze cr v)
def State.ucRead (s : State) (cr off : Nat) : W64 :=
  if off % 8 ≠ 0 then 0
  else if off ≤ 0x80 then s.ucLive cr off
  else if 0x200 ≤ off ∧ off ≤ 0x280 then (s.creel cr).ucFrozen.get 0 (off - 0x200)
  else if off = 0xFF0 then s.pairStat cr
  else if off = 0xFF8 then (s.creel cr).breach
  else 0
def State.ucWrite (s : State) (cr off : Nat) (v : W64) : State :=
  if off = 0x100 then s.ucFreeze cr v
  else if off = 0xFF0 then s.modPair fun p => { p with stat := p.stat.set cr (p.stat.get 0 cr &&& ~~~ (v &&& 0xF)) }
  else if off = 0xFF8 then s.modCreel cr fun c => { c with breach := c.breach &&& ~~~ (v &&& 0xF) }
  else s

end Sys2Proof.Machine
end

