-- ==== Sys2Proof/Machine/Run.lean ====
section
/-!
DEFINITION. What surrounds every MIS-3 instruction on a core and on a sequencer: the interrupt boundary, the fetch
check, the order of exceptions (03/R111), the guard (02/R40-R42), and completion (02/R35, 04/R133-R147, 20/R559).
-/
namespace Sys2Proof.Machine

/-! ## Branch prediction (04/R117 to R121) -/

/-- The lengths of the history with which the six tables of the direction predictor are tagged, geometric from 8 to 1,024
(04/R113; log entry 9). -/
def histLen (t : Nat) : Nat := [8, 21, 56, 147, 388, 1024].getD t 8
/-- The return stack: a push onto a full stack overwrites the oldest entry (04/R119). -/
def Pred.push (p : Pred) (v : W64) : Pred := { p with ras := ({ addr := v, epoch := p.epoch } :: p.ras).take 64 }
/-- The branch target buffer learns a retired branch: an entry is retrained in place; a new one enters level one, whose oldest
goes to level two (04/R113, R120, R121). -/
def Pred.learnTarget (p : Pred) (pc t : W64) : Pred :=
  let e : BtbEntry := { pc := pc, target := t, epoch := p.epoch }
  let here := fun (l : List BtbEntry) => l.any fun x => x.pc == pc
  let put := fun (l : List BtbEntry) => l.map fun x => if x.pc = pc then e else x
  if here p.btb1 then { p with btb1 := put p.btb1 }
  else if here p.btb2 then { p with btb2 := put p.btb2 }
  else { p with btb1 := (e :: p.btb1).take 1024, btb2 := (p.btb1.drop 1023 ++ p.btb2).take 15360 }
/-- The direction predictor learns a retired branch in one of its tables, and the history grows (04/R113, R120). -/
def Pred.learnDir (p : Pred) (table : Nat) (pc : W64) (taken : Bool) : Pred :=
  let h := p.hist.take (histLen table)
  let e : DirPred := { table := table, pc := pc, hist := h, taken := taken, epoch := p.epoch }
  { p with dir := e :: p.dir.filter (fun x => !(x.table == table && x.pc == pc && x.hist == h)), hist := (taken :: p.hist).take 1024 }
/-- A learnt entry of this epoch may steer the branch at an address (04/R120, R121). -/
def Pred.learnt (p : Pred) (pc : W64) : Bool :=
  (p.btb1 ++ p.btb2).any (fun e => e.pc == pc && e.epoch == p.epoch) || p.dir.any fun e => e.pc == pc && e.epoch == p.epoch
/-- The address that the return stack predicts: its top entry, if it was pushed in this epoch (04/R119, R121). -/
def Pred.rasTop (p : Pred) : Option W64 := match p.ras with | e :: _ => if e.epoch = p.epoch then some e.addr else none | [] => none
/-- A squash restores the top entry of the return stack; a deeper one that a wrong-path call has overwritten stays so
(04/R119; log entry 9). -/
def Pred.squash (p : Pred) (k : Nat) : Pred :=
  { p with ras := p.ras.mapIdx fun i e =>
      if i = 0 ∨ Config.free .wrongPath (128 * k + i) % 2 = 0 then e else { e with addr := w64 (Config.free .wrongPath (128 * k + 64 + i)) } }

/-- The kinds of branch that prediction tells apart (04/R119, R120). -/
inductive BrKind where
  | direct (back : Bool) | indirect | ret
  deriving DecidableEq, Repr
/-- Does a branch resolve against its prediction? A learnt entry of this epoch predicts in a way the manual does not state
(log entry 9); without one the return stack predicts a RET, and the static rule a direct branch. -/
def State.mispredicted (s : State) (n : Nat) (k : BrKind) (pc t : W64) (taken : Bool) : Bool :=
  let p := (s.core n).pred
  match (if k = .ret then p.rasTop else none) with
  | some a => if taken then a != t else !p.learnt pc || Config.free .predict s.free % 2 == 1
  | none =>
    if p.learnt pc then Config.free .predict s.free % 2 == 1
    else match k with | .direct back => back != taken | _ => false
/-- The branch is predicted by the static rule of R120. -/
def State.staticPred (s : State) (n : Nat) (k : BrKind) (pc : W64) : Bool :=
  !(s.core n).pred.learnt pc && (match k with | .direct _ => true | _ => false)
/-- What prediction and retirement do for one branch of a core, and the events (04/R117 to R121, 20/R560). -/
def State.branchPredict (s : State) (n : Nat) (k : BrKind) (pc t : W64) (taken : Bool) (push : Option W64) :
    State × List (Nat × Nat) :=
  let miss := s.mispredicted n k pc t taken
  let static := s.staticPred n k pc
  let f := s.free
  let s := (s.spend).modCore n fun c =>
    let p := if k = .ret then { c.pred with ras := c.pred.ras.drop 1 } else c.pred
    let p := match push with | some v => p.push v | none => p
    let p := if miss then p.squash f else p
    { c with pred := (p.learnTarget pc t).learnDir (Config.free .predictTable f % 6) pc taken }
  (s, [(2, 1), (3, b2n taken), (4, b2n miss), (5, b2n (miss && k == .ret)), (0x33, b2n miss), (0x3A, b2n static)])
/-- A branch whose guard is false retires not taken: it is predicted and learnt, counts in no class-A event, and leaves the
return stack as it was but for what a wrong path overwrote (04/R119, R120, 20/R559). -/
def State.skipBranch (s : State) (n : Nat) (k : BrKind) (pc : W64) (t : Option W64) : State × List (Nat × Nat) :=
  let miss := s.mispredicted n k pc 0 false
  let static := s.staticPred n k pc
  let f := s.free
  let s := (s.spend).modCore n fun c =>
    let p := if miss then c.pred.squash f else c.pred
    let p := match t with | some t => p.learnTarget pc t | none => p
    { c with pred := p.learnDir (Config.free .predictTable f % 6) pc false }
  (s, [(0x33, b2n miss), (0x3A, b2n static)])

/-! ## The frame -/

/-- What the frame of an instruction needs to know: who runs it under which guard, whether only cores have it, whether
its operands are an encoding, the general registers it reads and writes (04/R138), its class-A events (20/R560) and
its beats on a sequencer (04/R134) with the
extra beat of a shared access, the body length if it is a LOOP (04/R143), and what prediction knows of a branch: its kind
and the target that stands in its word (04/R120). -/
structure Op where
  agent : Agent
  guard : PReg
  coreOnly : Bool := false
  legal : Bool := true
  reads : List Nat := []
  writes : List Nat := []
  events : List (Nat × Nat) := []
  beats : Nat := 3
  sharedExtra : Nat := 0
  loopLen : Option Nat := none
  branch : Option (BrKind × Option W64) := none

/-- How the body of an instruction ends. -/
inductive Res where
  /-- complete; pc advances by 4 -/
  | done (s : State) (evs : List (Nat × Nat))
  /-- complete, its events already counted -/
  | counted (s : State)
  /-- complete at another address -/
  | jump (s : State) (target : W64) (evs : List (Nat × Nat))
  /-- an exception of 03/R109 -/
  | exc (s : State) (code : Nat) (eaddr : Option W64) (einfo : W64)
  /-- a machine check of 17/R514 -/
  | mc (s : State) (kind code addr : Nat)
  /-- not complete: the instruction waits -/
  | wait (s : State)
  /-- the program of a sequencer ends with a fault of 13/R417 or a normal end -/
  | ends (s : State) (code : Nat) (addr : W64)

def State.ctx (s : State) : Agent → Ctx
  | .core n => (s.core n).x
  | .seq q => (s.seq (seqIx q)).x
def State.setCtx (s : State) (a : Agent) (x : Ctx) : State :=
  match a with
  | .core n => s.modCore n fun c => { c with x := x }
  | .seq q => s.modSeq (seqIx q) fun z => { z with x := x }
def State.modCtx (s : State) (a : Agent) (f : Ctx → Ctx) : State := s.setCtx a (f (s.ctx a))
def State.wrG (s : State) (a : Agent) (r : Nat) (v : W64) : State := s.modCtx a fun x => x.wr r v

/-! ## Cores -/

/-- A pending write comes into force: SYS_STATUS keeps priv (03/R98), the root its RSVD bits zero, ASID and TCTL their
fields; TCTL.width 0b11 leaves the field (06/R176). -/
def Core.applyPend (c : Core) (p : PendWrite) : Core :=
  match p.reg with
  | 0 =>
    let old := c.sysr 0
    c.setSys 0 (setFld (((old &&& ~~~ p.mask) ||| (p.val &&& p.mask)) &&& 0x1F) 0 0 (fld old 0 0))
  | 0x20 => c.setSys 0x20 (setFld (setFld p.val 63 52 0) 11 0 0)
  | 0x21 => c.setSys 0x21 (w64 (fld p.val 15 0))
  | 0x22 =>
    let w := if fld p.val 1 0 = 3 then fld (c.sysr 0x22) 1 0 else fld p.val 1 0
    c.setSys 0x22 (setFld (w64 w) 2 2 (fld p.val 2 2))
  | r => c.setSys r p.val
/-- Before an instruction, each pending write has taken effect or not; a write after it to the same register has not
if it has not (03/R97; log entry 8). -/
def settleList (c : Core) : List PendWrite → List Nat → Nat → Core × List PendWrite
  | [], _, _ => (c, [])
  | p :: r, held, k =>
    if held.contains p.reg ∨ Config.free .afterIsync k % 2 = 0 then
      let (c, r') := settleList c r (p.reg :: held) (k + 1)
      (c, p :: r')
    else settleList (c.applyPend p) r held (k + 1)
def State.settle (s : State) (n : Nat) : State :=
  let c := s.core n
  if c.pend = [] then s else
  let (c', r) := settleList c c.pend [] s.free
  { s with free := s.free + c.pend.length }.setCore n { c' with pend := r }
/-- Every pending write is in force after ISYNC (03/R97). -/
def Core.isync (c : Core) : Core := { c.pend.foldl Core.applyPend c with pend := [] }

/-- A machine check of core n (17/R513); one that arises while active is set stops the core and resets its creel
(17/R515). -/
def State.takeMc (s : State) (n kind code addr : Nat) : State :=
  match s.creelOf n with
  | none => s
  | some cr =>
    let c := s.core n
    if tbit (c.sysr 0x41) 7 then
      (((s.modCore n fun c => { c with run := .stopped }).creelError cr 3 1 0x51 0 n 0)).creelResetNow cr
    else
      let seq := ((s.creel cr).eb.prod + 1) % 2 ^ 32
      let s := s.creelError cr 3 1 code addr n 0
      s.modCore n fun c =>
        let c := c.leaveFence.overtake 0x1C
        let st := c.sysr 0
        let c := ((c.setSys 0x40 c.x.pc).setSys 0x41 (mcStatus st kind seq)).setSys 0 (setFld (setFld st 0 0 1) 1 1 0)
        { c with x := { c.x with pc := vecTarget (c.sysr 5) + 0x400 } }.count c.priv [(0x22, 1)]

/-- The instruction fetch at pc: what stops it, or the fetch events (02/R42, 03/R111, 17/R514). -/
inductive FetchRes where
  | ok (evs : List (Nat × Nat))
  | fault (code : Nat)
  | mc (kind code addr : Nat)
def State.fetch (s : State) (n : Nat) : State × FetchRes :=
  let pc := (s.core n).x.pc
  let (s, r, w) := s.translate n pc .fetch false
  let evs := match w with | some k => [(0x1B, 1), (0x1C, k), (0x39, 1)] | none => []
  match r with
  | .fault c => (s, .fault c)
  | .poison a => (s, .mc 2 0x2 a)
  | .ok _ _ (some c) _ => (s, .fault c)
  | .ok pa _ none _ =>
    let (s, src) := s.cohRead (s.tileOf n) (lineOf pa) true (s.creelOf n)
    if src = .memory ∧ s.fencedLine (lineOf pa) then (s.markPoison (lineOf pa), .mc 4 0x22 pa)
    else if s.poisoned (lineOf pa) then (s, .mc 4 0x3 pa)
    else (s, .ok (evs ++ if src = .l1 then [] else [(0x10, 1)]))

def log2Size : Nat → Nat | 1 => 0 | 2 => 1 | 4 => 2 | 8 => 3 | 16 => 4 | _ => 5
/-- An exception of a core that is due before the body: its SYS_EINFO for a fetch (03/R100: 4 bytes, a read). -/
def einfoOf (write : Bool) (log2 half detail : Nat) : W64 :=
  w64 (detail % 256 + 256 * (half % 2) + 512 * (log2 % 8) + 4096 * b2n write)

def State.setPc (s : State) (n : Nat) (pc : W64) : State := s.modCore n fun c => { c with x := { c.x with pc := pc } }
/-- A vector, S or U, is pending: what WAIT waits for, whatever ie says (03/R106, 17/R502). -/
def Core.vecPending (c : Core) : Bool := bankAny c.svec || bankAny c.upend
/-- The S vector that a core takes at an instruction boundary (17/R502, R503). -/
def Core.due (c : Core) : Option Nat := if c.ie then bankTop c.svec 256 else none
/-- The interrupt that is due is taken, after each pending system-register write has taken effect or not (03/R97). -/
def State.boundary (s : State) (n : Nat) : State :=
  match ((s.settle n).core n).due with | some v => (s.settle n).takeIntr n v | none => s
/-- A WAIT that has begun completes once a vector is pending; then the core takes the interrupt if it is enabled, so SYS_EPC
holds the address after the WAIT (03/R106, R110). -/
def State.endWait (s : State) (n : Nat) : State :=
  if !(s.core n).vecPending then s else
  let (s, sp) := s.specEvents []
  ((s.setPc n ((s.core n).x.pc + 4)).modCore n fun c =>
    { c with waiting := false }.count c.priv ((1, 1) :: (0x0F, 1) :: sp)).boundary n

/-- A core runs one instruction. -/
def State.runCore (s : State) (n : Nat) (o : Op) (body : State → Ctx → Res) : State :=
  let c := s.core n
  if c.run ≠ .running ∨ c.parked.isSome ∨ c.dev.isSome then s
  else if c.waiting then s.endWait n
  else
  let s := s.settle n
  match (s.core n).due with
  | some vec => s.takeIntr n vec
  | none =>
  if c.ioFence ∧ c.strict ≠ [] then s else
  let s := s.modCore n fun c => { c with ioFence := false }
  let priv := (s.core n).priv
  let pc := (s.core n).x.pc
  match s.fetch n with
  | (s, .fault code) => s.takeExc n 5 (some pc) (einfoOf false 2 0 code)
  | (s, .mc k code a) => s.takeMc n k code a
  | (s, .ok fev) =>
    if !o.legal then s.takeExc n 1 none 0
    else if !(s.core n).x.rdp o.guard.toNat then
      let (s, bev) := match o.branch with | some (k, t) => s.skipBranch n k pc t | none => (s, [])
      let (s, sp) := s.specEvents ((0x31, 1) :: bev)
      (s.setPc n (pc + 4)).modCore n fun c => c.count priv sp
    else match body s (s.core n).x with
      | .done s evs =>
        let (s, sp) := s.specEvents []
        (s.setPc n (pc + 4)).modCore n fun c => c.count priv ((1, 1) :: fev ++ o.events ++ evs ++ sp)
      | .counted s => s.setPc n (pc + 4)
      | .jump s t evs =>
        let (s, sp) := s.specEvents []
        (s.setPc n t).modCore n fun c => c.count priv ((1, 1) :: fev ++ o.events ++ evs ++ sp)
      | .exc s code ea ei => s.takeExc n code ea ei
      | .mc s k code a => s.takeMc n k code a
      | .wait s => s
      | .ends s _ _ => s

/-! ## Sequencers -/

/-- The program of a sequencer ends; the unit that holds it reports (02/R72). -/
def State.endProgram (s : State) (i code : Nat) (addr : W64) : State :=
  (s.modSeq i fun z => { z with run := false, ended := some code, loop := .empty, leftLoop := false }).programEnded i code addr

/-- A strict store, or a device load, of the sequencer is outstanding. -/
def Seq.openIo (z : Seq) : Bool := !z.strict.isEmpty || z.ops.any fun o => o.dev.isSome && !o.done
/-- The next instruction waits for a device access before it, as FENCE.IO does (05/R160, R162, R170). -/
def Seq.fenced (z : Seq) : Bool := z.ioFence && z.openIo
/-- Writes to SEQ_MODE whose two instructions have completed come into force (03/R105, 04/R145, R146). -/
def Seq.modeDue (z : Seq) : Seq :=
  z.modeQ.foldl (fun z p => if p.1 = 0 then { z with mode := p.2 } else z)
    { z with modeQ := z.modeQ } |> fun y => { y with modeQ := z.modeQ.filter fun p => p.1 ≠ 0 }
/-- A sequencer at an instruction that it begins. -/
def Seq.settle (z : Seq) : Seq := { z.modeDue with ioFence := false }
def Seq.modeTick (z : Seq) : Seq := { z with modeQ := z.modeQ.map fun p => (p.1 - 1, p.2) }

/-- The loop buffer after an instruction that went to another address or fell through (04/R143, R144). `len`: the
instruction is a LOOP with that body; the flag says that the buffer was left. -/
def loopNext (b : LoopBuf) (pc : W64) (len : Option Nat) (taken : Bool) : LoopBuf × Bool :=
  let wasRunning := match b with | .running _ => true | _ => false
  match len with
  | some n =>
    if taken then
      if b = .running pc then (b, false)
      else if b = .capturing pc then (.running pc, false)
      else (if n = 32 then .empty else .capturing pc, wasRunning)
    else if b = .running pc ∨ b = .capturing pc then (.empty, wasRunning) else (b, false)
  | none => if taken then (.empty, wasRunning) else (b, false)

/-- An instruction of a sequencer completes: beats of the table, one more when tracing, two after the loop buffer is
left; the mode shadow counts it, but a taken LOOP of an iteration that ran from the buffer (04/R133-R135, R144, R145;
23/R607). -/
def State.seqComplete (s : State) (i : Nat) (pc : W64) (beats : Nat) (len : Option Nat) (taken : Bool) (dest : Option Nat) :
    State :=
  let z := s.seq i
  let tr := tbit z.mode 2
  let at_ := z.x.pc
  let (lb, left) := loopNext z.loop z.x.pc len taken
  let beats := if len.isSome ∧ (!taken ∨ z.loop = .running z.x.pc) then 3 else beats
  let b := beats + b2n tr + (if z.leftLoop then 2 else 0)
  let buffered := len.isSome && taken && z.loop == .running z.x.pc
  let z := { z with x := { z.x with pc := pc }, beats := z.beats + w64 b, loop := lb, leftLoop := left }
  let z := if buffered then z else z.modeTick
  let s := s.setSeq i z
  let s := s.countInstr i
  if tr then s.traceInstr i at_ b dest else s

/-- A sequencer runs one instruction. An exception other than ILLEGAL_INSTRUCTION adds no beat (log entry 139). The two of a
lockstep pair compare their results: a difference stops the device (10/R273). -/
def State.runSeq (s : State) (q : SeqId) (o : Op) (body : State → Ctx → Res) : State :=
  let i := seqIx q
  let stall := fun (s : State) => (s.spend).modSeq i fun z => { z with beats := z.beats + w64 (Config.free .stallBeats s.free) }
  if !(s.seq i).run then s else
  if (s.seq i).skew ≠ [] then s.fatal 0xA 0 else
  if (s.seq i).fenced then stall s else
  let s := s.modSeq i Seq.settle
  let z := s.seq i
  let pc := z.x.pc
  if seqImemSize i ≤ pc.toNat then s.endProgram i 5 pc
  else if o.coreOnly ∨ !o.legal then
    (s.modSeq i fun z => { z with beats := z.beats + (if z.leftLoop then 5 else 3) }).endProgram i 1 0
  else if !z.x.rdp o.guard.toNat then s.seqComplete i (pc + 4) 3 o.loopLen false none
  else if (o.reads ++ o.writes).any fun r => z.busy.contains r then stall s
  else if o.reads.any fun r => z.poisoned.contains r then s.endProgram i 0x24 0
  else match body (s.modSeq i fun z => { z with poisoned := z.poisoned.filter fun r => !o.writes.contains r }) z.x with
    | .done s _ => s.seqComplete i (pc + 4) (o.beats + if tbit z.mode 1 then o.sharedExtra else 0) o.loopLen false o.writes.head?
    | .counted s => s.seqComplete i (pc + 4) (o.beats + if tbit z.mode 1 then o.sharedExtra else 0) o.loopLen false o.writes.head?
    | .jump s t _ => s.seqComplete i t (o.beats + if tbit z.mode 1 then o.sharedExtra else 0) o.loopLen true o.writes.head?
    | .exc s code ea _ => s.endProgram i code (ea.getD 0)
    | .mc s _ _ a => s.endProgram i 0x24 (w64 a)
    | .wait s => stall s
    | .ends s code a =>
      (if code = 0 then s.seqComplete i (pc + 4) (o.beats + if tbit z.mode 1 then o.sharedExtra else 0) none false none else s).endProgram i code a

/-- One MIS-3 instruction on the agent that executes it. -/
def runInstr (o : Op) (body : State → Ctx → Res) (s : State) : Out :=
  match o.agent with
  | .core n => .next (s.runCore n o body)
  | .seq q => .next (s.runSeq q o body)

end Sys2Proof.Machine
end

