-- ==== Sys2Proof/Machine/Float.lean ====
section
/-!
DEFINITION. IEEE 754-2019 arithmetic as 03/R83-R91 uses it: binary64 and binary32, decimal64 and decimal128 in the BID
encoding. Every operation is computed exactly and rounded once.
-/
namespace Sys2Proof.Machine

/-! ## Values, modes, flags -/

/-- A floating-point datum: a NaN with its bits, an infinity, or sign, coefficient and exponent of the radix. -/
inductive FVal where
  | nan (sig : Bool) (bits : Nat)
  | inf (neg : Bool)
  | fin (neg : Bool) (c : Nat) (e : Int)
  deriving DecidableEq, Repr

/-- Exceptions as bits: inexact, underflow, overflow, division by zero, invalid (03/R100, R101). -/
def fInx : Nat := 1
def fUnf : Nat := 2
def fOvf : Nat := 4
def fDz : Nat := 8
def fInv : Nat := 16

/-- Does a discarded fraction r/d round the magnitude up (03/R87, R88)? -/
def roundsUp (rm : Nat) (neg : Bool) (odd : Bool) (r d : Nat) : Bool :=
  if r = 0 then false else
  match rm with
  | 0 => decide (d < 2 * r) || (decide (2 * r = d) && odd)
  | 1 => decide (d ≤ 2 * r)
  | 2 => false
  | 3 => !neg
  | 4 => neg
  | 5 => decide (d < 2 * r)
  | _ => true
/-- On overflow: does the mode give infinity (else the largest finite number)? -/
def ovfInf (rm : Nat) (neg : Bool) : Bool :=
  match rm with | 2 => false | 3 => !neg | 4 => neg | _ => true

/-! ## Binary formats -/

/-- A binary format: precision and exponent width. -/
structure BinFmt where
  p : Nat
  w : Nat
def b64 : BinFmt := { p := 53, w := 11 }
def b32 : BinFmt := { p := 24, w := 8 }
def BinFmt.bias (f : BinFmt) : Nat := 2 ^ (f.w - 1) - 1
/-- The exponent of the least significant bit of the smallest and of the largest numbers. -/
def BinFmt.qmin (f : BinFmt) : Int := 2 - (f.bias : Int) - f.p
def BinFmt.qmax (f : BinFmt) : Int := (f.bias : Int) + 1 - f.p
def BinFmt.width (f : BinFmt) : Nat := f.p + f.w
def BinFmt.defNan (f : BinFmt) : Nat := (2 ^ (f.w + 1) - 1) * 2 ^ (f.p - 2)

def BinFmt.decode (f : BinFmt) (v : Nat) : FVal :=
  let m := v % 2 ^ (f.p - 1)
  let e := v / 2 ^ (f.p - 1) % 2 ^ f.w
  let neg := v / 2 ^ (f.width - 1) % 2 = 1
  if e = 2 ^ f.w - 1 then (if m = 0 then .inf neg else .nan (m / 2 ^ (f.p - 2) % 2 = 0) v)
  else if e = 0 then .fin neg m f.qmin
  else .fin neg (m + 2 ^ (f.p - 1)) (f.qmin + e - 1)
def BinFmt.encode (f : BinFmt) : FVal → Nat
  | .nan _ b => b
  | .inf neg => (b2n neg * 2 ^ f.w + (2 ^ f.w - 1)) * 2 ^ (f.p - 1)
  | .fin neg c e =>
    let s := b2n neg * 2 ^ (f.width - 1)
    if c < 2 ^ (f.p - 1) then s + c
    else s + (e - f.qmin + 1).toNat * 2 ^ (f.p - 1) + c % 2 ^ (f.p - 1)

/-- The value n/d × 2^e rounded to a format; the flags it raises. -/
def BinFmt.round (f : BinFmt) (rm : Nat) (neg : Bool) (n d : Nat) (e : Int) : FVal × Nat :=
  if n = 0 then (.fin neg 0 f.qmin, 0) else
  -- bring the exponent into the fraction so that the fraction alone is the value
  let (n, d) := if 0 ≤ e then (n * 2 ^ e.toNat, d) else (n, d * 2 ^ (-e).toNat)
  let at_ := fun (q : Int) => if 0 ≤ q then (n, d * 2 ^ q.toNat) else (n * 2 ^ (-q).toNat, d)
  let q0 : Int := (Nat.log2 n : Int) - Nat.log2 d - (f.p - 1)
  let q1 := if (at_ q0).1 / (at_ q0).2 < 2 ^ (f.p - 1) then q0 - 1 else q0
  let rnd := fun (q : Int) =>
    let (a, b) := at_ q
    let t := a / b
    (t + b2n (roundsUp rm neg (t % 2 = 1) (a % b) b), decide (a % b ≠ 0))
  let q := max q1 f.qmin
  let (m, inx) := rnd q
  -- tiny: below the smallest normal number, before rounding or after rounding with unbounded exponent
  let before := decide (q1 < f.qmin)
  let after := before && !(decide (q1 + 1 = f.qmin) && decide ((rnd q1).1 = 2 ^ f.p))
  let tiny := before && (if before = after then true else if Config.tinyAfterRounding then after else before)
  let (m, q) := if m = 2 ^ f.p then (2 ^ (f.p - 1), q + 1) else (m, q)
  if f.qmax < q then
    (if ovfInf rm neg then .inf neg else .fin neg (2 ^ f.p - 1) f.qmax, fOvf + fInx)
  else (.fin neg m q, (if inx then fInx else 0) + (if inx && tiny then fUnf else 0))

/-! ## What NaN operands give (03/R84, R89) -/

/-- The NaN that propagates from two operands, quieted by `q`, and the invalid flag of a signalling one. -/
def nanOf2 (quiet : Nat → Nat) (a b : FVal) : Option (Nat × Nat) :=
  let fl := fun (x : Bool) => if x then fInv else 0
  match a, b with
  | .nan s x, .nan t y => some (quiet (if Config.nanFirst x y then x else y), fl (s || t))
  | .nan s x, _ => some (quiet x, fl s)
  | _, .nan t y => some (quiet y, fl t)
  | _, _ => none
def BinFmt.quiet (f : BinFmt) (b : Nat) : Nat := if b / 2 ^ (f.p - 2) % 2 = 1 then b else b + 2 ^ (f.p - 2)

def FVal.neg? : FVal → Bool | .fin n _ _ => n | .inf n => n | .nan _ _ => false
def FVal.flip : FVal → FVal
  | .fin n c e => .fin (!n) c e
  | .inf n => .inf (!n)
  | x => x

/-- The exact sum of two finite values of a radix: sign, coefficient, exponent; the sign of a zero sum by the mode. -/
def addExact (radix : Nat) (rm : Nat) (n1 : Bool) (c1 : Nat) (e1 : Int) (n2 : Bool) (c2 : Nat) (e2 : Int) : Bool × Nat × Int :=
  let e := min e1 e2
  let a := c1 * radix ^ (e1 - e).toNat
  let b := c2 * radix ^ (e2 - e).toNat
  if n1 = n2 then (n1, a + b, e)
  else if a = b then (rm == 4, 0, e)
  else if b < a then (n1, a - b, e) else (n2, b - a, e)

/-! ## Binary operations (03/R84) -/

def binAdd (f : BinFmt) (rm a b : Nat) : Nat × Nat :=
  match nanOf2 f.quiet (f.decode a) (f.decode b) with
  | some r => r
  | none =>
    match f.decode a, f.decode b with
    | .inf x, .inf y => if x = y then (f.encode (.inf x), 0) else (f.defNan, fInv)
    | .inf x, _ => (f.encode (.inf x), 0)
    | _, .inf y => (f.encode (.inf y), 0)
    | .fin n1 c1 e1, .fin n2 c2 e2 =>
      let (n, c, e) := addExact 2 rm n1 c1 e1 n2 c2 e2
      let (v, fl) := f.round rm n c 1 e
      (f.encode v, fl)
    | _, _ => (f.defNan, 0)
def BinFmt.flipSign (f : BinFmt) (b : Nat) : Nat :=
  match f.decode b with
  | .nan _ _ => b
  | _ => (b + 2 ^ (f.width - 1)) % 2 ^ f.width
def binSub (f : BinFmt) (rm a b : Nat) : Nat × Nat := binAdd f rm a (f.flipSign b)
def binMul (f : BinFmt) (rm a b : Nat) : Nat × Nat :=
  match nanOf2 f.quiet (f.decode a) (f.decode b) with
  | some r => r
  | none =>
    match f.decode a, f.decode b with
    | .inf x, .inf y => (f.encode (.inf (x ^^ y)), 0)
    | .inf x, .fin y c _ => if c = 0 then (f.defNan, fInv) else (f.encode (.inf (x ^^ y)), 0)
    | .fin x c _, .inf y => if c = 0 then (f.defNan, fInv) else (f.encode (.inf (x ^^ y)), 0)
    | .fin n1 c1 e1, .fin n2 c2 e2 =>
      let (v, fl) := f.round rm (n1 ^^ n2) (c1 * c2) 1 (e1 + e2)
      (f.encode v, fl)
    | _, _ => (f.defNan, 0)
def binDiv (f : BinFmt) (rm a b : Nat) : Nat × Nat :=
  match nanOf2 f.quiet (f.decode a) (f.decode b) with
  | some r => r
  | none =>
    match f.decode a, f.decode b with
    | .inf _, .inf _ => (f.defNan, fInv)
    | .inf x, .fin y _ _ => (f.encode (.inf (x ^^ y)), 0)
    | .fin x _ _, .inf y => (f.encode (.fin (x ^^ y) 0 f.qmin), 0)
    | .fin n1 c1 e1, .fin n2 c2 e2 =>
      if c2 = 0 then (if c1 = 0 then (f.defNan, fInv) else (f.encode (.inf (n1 ^^ n2)), fDz))
      else
        let (v, fl) := f.round rm (n1 ^^ n2) c1 c2 (e1 - e2)
        (f.encode v, fl)
    | _, _ => (f.defNan, 0)
/-- a × b + c with a single rounding. -/
def binFma (f : BinFmt) (rm a b c : Nat) : Nat × Nat :=
  let anyNan := match nanOf2 f.quiet (f.decode a) (f.decode b) with
    | some (x, fl) => match f.decode c with
      | .nan s y => some (if Config.nanFirst x y then x else f.quiet y, if s || fl != 0 then fInv else 0)
      | _ => some (x, fl)
    | none => match f.decode c with
      | .nan s y => some (f.quiet y, if s then fInv else 0)
      | _ => none
  match anyNan with
  | some r => r
  | none =>
    match f.decode a, f.decode b with
    | .fin n1 c1 e1, .fin n2 c2 e2 =>
      match f.decode c with
      | .fin n3 c3 e3 =>
        let (n, m, e) := addExact 2 rm (n1 ^^ n2) (c1 * c2) (e1 + e2) n3 c3 e3
        let (v, fl) := f.round rm n m 1 e
        (f.encode v, fl)
      | v => (f.encode v, 0)
    | x, y =>
      let zero := fun (v : FVal) => match v with | .fin _ 0 _ => true | _ => false
      if zero x || zero y then (f.defNan, fInv)
      else
        let n := x.neg? ^^ y.neg?
        match f.decode c with
        | .inf m => if m = n then (f.encode (.inf n), 0) else (f.defNan, fInv)
        | _ => (f.encode (.inf n), 0)
/-- The order of two numbers: less, equal, greater (0 is equal to −0). -/
def cmpVal (radix : Nat) (a b : FVal) : Ordering :=
  match a, b with
  | .inf x, .inf y => if x = y then .eq else if x then .lt else .gt
  | .inf x, _ => if x then .lt else .gt
  | _, .inf y => if y then .gt else .lt
  | .fin n1 c1 e1, .fin n2 c2 e2 =>
    let e := min e1 e2
    let x : Int := (if n1 then -1 else 1) * (c1 * radix ^ (e1 - e).toNat : Nat)
    let y : Int := (if n2 then -1 else 1) * (c2 * radix ^ (e2 - e).toNat : Nat)
    if x < y then .lt else if y < x then .gt else .eq
  | _, _ => .eq
/-- Minimum and maximum propagate NaN and take −0 below +0 (03/R84). -/
def binMinMax (f : BinFmt) (mx : Bool) (a b : Nat) : Nat × Nat :=
  match nanOf2 f.quiet (f.decode a) (f.decode b) with
  | some r => r
  | none =>
    match cmpVal 2 (f.decode a) (f.decode b) with
    | .lt => (if mx then b else a, 0)
    | .gt => (if mx then a else b, 0)
    | .eq => (if (f.decode a).neg? = mx then b else a, 0)
/-- Quiet comparison: 0 equal, 1 less, 2 greater, 3 unordered; a signalling NaN raises invalid. -/
def quietCmp (radix : Nat) (a b : FVal) : Nat × Nat :=
  let sg := fun (v : FVal) => match v with | .nan s _ => s | _ => false
  let nn := fun (v : FVal) => match v with | .nan _ _ => true | _ => false
  if nn a || nn b then (3, if sg a || sg b then fInv else 0)
  else match cmpVal radix a b with | .eq => (0, 0) | .lt => (1, 0) | .gt => (2, 0)
/-- The integer square root, by bits from the top. -/
def isqrtBits (n : Nat) : Nat → Nat → Nat
  | 0, r => r
  | k + 1, r => let r' := r + 2 ^ k; if r' * r' ≤ n then isqrtBits n k r' else isqrtBits n k r
def isqrt (n : Nat) : Nat := isqrtBits n (Nat.log2 n / 2 + 1) 0
def binSqrt (f : BinFmt) (rm a : Nat) : Nat × Nat :=
  match f.decode a with
  | .nan s x => (f.quiet x, if s then fInv else 0)
  | .inf n => if n then (f.defNan, fInv) else (a, 0)
  | .fin n c e =>
    if c = 0 then (a, 0)
    else if n then (f.defNan, fInv)
    else
      -- c·2^e as m·2^(2k) with m of at least 2p + 4 bits; a sticky bit keeps the rounding exact
      let sh := 2 * f.p + 4 + (if (e - (2 * f.p + 4 : Nat)) % 2 = 0 then 0 else 1)
      let m := c * 2 ^ sh
      let r := isqrt m
      let r' := 2 * r + b2n (r * r != m)
      let (v, fl) := f.round rm false r' 1 ((e - sh) / 2 - 1)
      (f.encode v, fl)
/-- From a signed integer. -/
def binFromInt (f : BinFmt) (rm : Nat) (v : Int) : Nat × Nat :=
  let (x, fl) := f.round rm (v < 0) v.natAbs 1 0
  (f.encode x, fl)
/-- A finite value rounded to an integer, and whether it changed. -/
def roundInt (radix rm : Nat) (neg : Bool) (c : Nat) (e : Int) : Nat × Bool :=
  if 0 ≤ e then (c * radix ^ e.toNat, false)
  else
    let d := radix ^ (-e).toNat
    (c / d + b2n (roundsUp rm neg (c / d % 2 = 1) (c % d) d), decide (c % d ≠ 0))
/-- To a signed integer of w bits; the value of an invalid conversion is not stated for binary (03/R84). -/
def binToInt (f : BinFmt) (rm w a : Nat) : Nat × Nat :=
  let bad : Nat × Nat := (Config.cvtInvalid w a % 2 ^ w, fInv)
  match f.decode a with
  | .nan _ _ => bad
  | .inf _ => bad
  | .fin n c e =>
    let (m, inx) := roundInt 2 rm n c e
    if (n && decide (m ≤ 2 ^ (w - 1))) || (!n && decide (m < 2 ^ (w - 1))) then
      ((if n then (2 ^ w - m) % 2 ^ w else m), if inx then fInx else 0)
    else bad
/-- Between the two binary formats. -/
def binCvt (src dst : BinFmt) (rm a : Nat) : Nat × Nat :=
  match src.decode a with
  | .nan s x =>
    let pay := x % 2 ^ (src.p - 2)
    let pay' := if src.p ≤ dst.p then pay * 2 ^ (dst.p - src.p) else pay / 2 ^ (src.p - dst.p)
    let sign := x / 2 ^ (src.width - 1) % 2
    (sign * 2 ^ (dst.width - 1) + dst.defNan + pay', if s then fInv else 0)
  | .inf n => (dst.encode (.inf n), 0)
  | .fin n c e => let (v, fl) := dst.round rm n c 1 e; (dst.encode v, fl)
/-- The one-hot class code (03/R84). -/
def binClass (f : BinFmt) (a : Nat) : Nat :=
  match f.decode a with
  | .nan s _ => if s then 2 ^ 8 else 2 ^ 9
  | .inf n => if n then 1 else 2 ^ 7
  | .fin n c _ =>
    let k := if c = 0 then 3 else if c < 2 ^ (f.p - 1) then 2 else 1
    2 ^ (if n then k else 7 - k)

/-! ## Decimal formats (03/R85) -/

/-- A decimal format: digits, quantum exponent range, exponent field width and coefficient width of the encoding. -/
structure DecFormat where
  p : Nat
  qmin : Int
  qmax : Int
  wbits : Nat
  ebits : Nat
def dec64 : DecFormat := { p := 16, qmin := -398, qmax := 369, wbits := 64, ebits := 10 }
def dec128 : DecFormat := { p := 34, qmin := -6176, qmax := 6111, wbits := 128, ebits := 14 }
/-- The coefficient bits of the short form. -/
def DecFormat.cbits (f : DecFormat) : Nat := f.wbits - 1 - f.ebits
def DecFormat.defNan (f : DecFormat) : Nat := 0x1F * 2 ^ (f.wbits - 6)
def DecFormat.quiet (f : DecFormat) (b : Nat) : Nat := if b / 2 ^ (f.wbits - 7) % 2 = 1 then b - 2 ^ (f.wbits - 7) else b
/-- BID decoding; a coefficient above the format's digits is zero. -/
def DecFormat.decode (f : DecFormat) (v : Nat) : FVal :=
  let neg := v / 2 ^ (f.wbits - 1) % 2 = 1
  let top := v / 2 ^ (f.wbits - 6) % 32
  if top = 0x1F then .nan (v / 2 ^ (f.wbits - 7) % 2 = 1) v
  else if top = 0x1E then .inf neg
  else
    let (e, c) := if top / 8 = 3 then (v / 2 ^ (f.cbits - 2) % 2 ^ f.ebits, 2 ^ f.cbits + v % 2 ^ (f.cbits - 2))
      else (v / 2 ^ f.cbits % 2 ^ f.ebits, v % 2 ^ f.cbits)
    .fin neg (if c < 10 ^ f.p then c else 0) (e + f.qmin)
def DecFormat.encode (f : DecFormat) : FVal → Nat
  | .nan _ b => b
  | .inf neg => b2n neg * 2 ^ (f.wbits - 1) + 0x1E * 2 ^ (f.wbits - 6)
  | .fin neg c e =>
    let s := b2n neg * 2 ^ (f.wbits - 1)
    let be := (e - f.qmin).toNat
    if c < 2 ^ f.cbits then s + be * 2 ^ f.cbits + c
    else s + 3 * 2 ^ (f.wbits - 3) + be * 2 ^ (f.cbits - 2) + c % 2 ^ (f.cbits - 2)

/-- How many decimal digits a number has. -/
def digits10 (c : Nat) : Nat :=
  if c = 0 then 0 else
  let d := Nat.log2 c * 1233 / 4096
  if 10 ^ (d + 1) ≤ c then d + 2 else if 10 ^ d ≤ c then d + 1 else d
/-- Trailing zeros are dropped while the exponent is below the preferred one. -/
def stripZeros (pref : Int) : Nat → Nat → Int → Nat × Int
  | 0, c, q => (c, q)
  | k + 1, c, q => if q < pref ∧ c % 10 = 0 then stripZeros pref k (c / 10) (q + 1) else (c, q)

/-- c × 10^e rounded to a format with a preferred exponent (03/R86). -/
def DecFormat.round (f : DecFormat) (rm : Nat) (neg : Bool) (c : Nat) (e pref : Int) : FVal × Nat :=
  if c = 0 then (.fin neg 0 (max f.qmin (min f.qmax pref)), 0) else
  let tiny := (digits10 c : Int) + e < f.qmin + f.p
  let k := max (digits10 c - f.p) (f.qmin - e).toNat
  let m := c / 10 ^ k
  let inx := c % 10 ^ k ≠ 0
  let m := m + b2n (roundsUp rm neg (m % 2 = 1) (c % 10 ^ k) (10 ^ k))
  let q := e + k
  let (m, q) := if m = 10 ^ f.p then (m / 10, q + 1) else (m, q)
  -- a large exponent with room in the coefficient is clamped
  let pad := (q - f.qmax).toNat
  let (m, q) := if f.qmax < q ∧ digits10 m + pad ≤ f.p then (m * 10 ^ pad, f.qmax) else (m, q)
  if f.qmax < q ∧ m ≠ 0 then
    (if ovfInf rm neg then .inf neg else .fin neg (10 ^ f.p - 1) f.qmax, fOvf + fInx)
  else if inx then (.fin neg m q, fInx + (if tiny then fUnf else 0))
  else if pref < q then
    let z := min (q - max pref f.qmin).toNat (f.p - digits10 m)
    (.fin neg (m * 10 ^ z) (q - z), 0)
  else
    let (m, q) := stripZeros (min pref f.qmax) f.p m q
    (.fin neg m q, 0)

/-! ## Decimal operations (03/R86, R89) -/

def decAdd (f : DecFormat) (rm a b : Nat) : Nat × Nat :=
  match nanOf2 f.quiet (f.decode a) (f.decode b) with
  | some r => r
  | none =>
    match f.decode a, f.decode b with
    | .inf x, .inf y => if x = y then (f.encode (.inf x), 0) else (f.defNan, fInv)
    | .inf x, _ => (f.encode (.inf x), 0)
    | _, .inf y => (f.encode (.inf y), 0)
    | .fin n1 c1 e1, .fin n2 c2 e2 =>
      let (n, c, e) := addExact 10 rm n1 c1 e1 n2 c2 e2
      let (v, fl) := f.round rm n c e (min e1 e2)
      (f.encode v, fl)
    | _, _ => (f.defNan, 0)
def DecFormat.flipSign (f : DecFormat) (b : Nat) : Nat :=
  match f.decode b with
  | .nan _ _ => b
  | _ => (b + 2 ^ (f.wbits - 1)) % 2 ^ f.wbits
def decSub (f : DecFormat) (rm a b : Nat) : Nat × Nat := decAdd f rm a (f.flipSign b)
def decMul (f : DecFormat) (rm a b : Nat) : Nat × Nat :=
  match nanOf2 f.quiet (f.decode a) (f.decode b) with
  | some r => r
  | none =>
    match f.decode a, f.decode b with
    | .inf x, .inf y => (f.encode (.inf (x ^^ y)), 0)
    | .inf x, .fin y c _ => if c = 0 then (f.defNan, fInv) else (f.encode (.inf (x ^^ y)), 0)
    | .fin x c _, .inf y => if c = 0 then (f.defNan, fInv) else (f.encode (.inf (x ^^ y)), 0)
    | .fin n1 c1 e1, .fin n2 c2 e2 =>
      let (v, fl) := f.round rm (n1 ^^ n2) (c1 * c2) (e1 + e2) (e1 + e2)
      (f.encode v, fl)
    | _, _ => (f.defNan, 0)
def decDiv (f : DecFormat) (rm a b : Nat) : Nat × Nat :=
  match nanOf2 f.quiet (f.decode a) (f.decode b) with
  | some r => r
  | none =>
    match f.decode a, f.decode b with
    | .inf _, .inf _ => (f.defNan, fInv)
    | .inf x, .fin y _ _ => (f.encode (.inf (x ^^ y)), 0)
    | .fin x _ _, .inf y => (f.encode (.fin (x ^^ y) 0 f.qmin), 0)
    | .fin n1 c1 e1, .fin n2 c2 e2 =>
      if c2 = 0 then (if c1 = 0 then (f.defNan, fInv) else (f.encode (.inf (n1 ^^ n2)), fDz))
      else
        -- enough digits for the rounding, and a sticky digit when the quotient goes on
        let k := digits10 c2 + f.p + 2
        let t := c1 * 10 ^ k / c2
        let (c, e) : Nat × Int := if c1 * 10 ^ k % c2 = 0 then (t, e1 - e2 - k) else (t * 10 + 1, e1 - e2 - k - 1)
        let (v, fl) := f.round rm (n1 ^^ n2) c e (e1 - e2)
        (f.encode v, fl)
    | _, _ => (f.defNan, 0)
/-- DQUA: the value of a with the quantum exponent of b. -/
def decQua (f : DecFormat) (rm a b : Nat) : Nat × Nat :=
  match nanOf2 f.quiet (f.decode a) (f.decode b) with
  | some r => r
  | none =>
    match f.decode a, f.decode b with
    | .inf x, .inf _ => (f.encode (.inf x), 0)
    | .fin n c e, .fin _ _ q =>
      let (m, inx) := roundInt 10 rm n c (e - q)
      if 10 ^ f.p ≤ m then (f.defNan, fInv) else (f.encode (.fin n m q), if inx then fInx else 0)
    | _, _ => (f.defNan, fInv)
/-- DRINT: rounded to an integral value; inexact when the value changes. -/
def decRint (f : DecFormat) (rm a : Nat) : Nat × Nat :=
  match f.decode a with
  | .nan s x => (f.quiet x, if s then fInv else 0)
  | .inf _ => (a, 0)
  | .fin n c e =>
    if 0 ≤ e then (f.encode (.fin n c e), 0)
    else let (m, inx) := roundInt 10 rm n c e; (f.encode (.fin n m 0), if inx then fInx else 0)
def decFromInt (f : DecFormat) (rm : Nat) (v : Int) : Nat × Nat :=
  let (x, fl) := f.round rm (v < 0) v.natAbs 0 0
  (f.encode x, fl)
/-- DTOI: NaN or out of range gives invalid and 0x8000_0000_0000_0000. -/
def decToInt (f : DecFormat) (rm a : Nat) : Nat × Nat :=
  match f.decode a with
  | .fin n c e =>
    let (m, inx) := roundInt 10 rm n c e
    if (n && decide (m ≤ 2 ^ 63)) || (!n && decide (m < 2 ^ 63)) then
      ((if n then (2 ^ 64 - m) % 2 ^ 64 else m), if inx then fInx else 0)
    else (2 ^ 63, fInv)
  | _ => (2 ^ 63, fInv)
def decGetExp (f : DecFormat) (a : Nat) : Nat × Nat :=
  match f.decode a with
  | .fin _ _ e => ((e % 2 ^ 64).toNat, 0)
  | _ => (2 ^ 63, fInv)
/-- Between the two decimal formats. -/
def decCvt (src dst : DecFormat) (rm a : Nat) : Nat × Nat :=
  match src.decode a with
  | .nan s x =>
    let pay := x % 2 ^ (src.wbits - 14)
    let scale := if src.p < dst.p then pay * 10 ^ 18 else pay / 10 ^ 18
    (x / 2 ^ (src.wbits - 1) % 2 * 2 ^ (dst.wbits - 1) + dst.defNan + scale % 2 ^ (dst.wbits - 14), if s then fInv else 0)
  | .inf n => (dst.encode (.inf n), 0)
  | .fin n c e => let (v, fl) := dst.round rm n c e e; (dst.encode v, fl)

end Sys2Proof.Machine
end

