-- ==== Sys2Proof/Machine/Text.lean ====
section
/-!
DEFINITION. Character sets and decimal text of the Plaiter (13/R409-R411). The two EBCDIC pages are those of IBM
(log entry 18: the manual names them and gives two of their points).
-/
namespace Sys2Proof.Machine

/-- EBCDIC code page 037: the point U+0000 to U+00FF of each byte. -/
def cp037 : List Nat :=
  [0, 1, 2, 3, 156, 9, 134, 127, 151, 141, 142, 11, 12, 13, 14, 15] ++
  [16, 17, 18, 19, 157, 133, 8, 135, 24, 25, 146, 143, 28, 29, 30, 31] ++
  [128, 129, 130, 131, 132, 10, 23, 27, 136, 137, 138, 139, 140, 5, 6, 7] ++
  [144, 145, 22, 147, 148, 149, 150, 4, 152, 153, 154, 155, 20, 21, 158, 26] ++
  [32, 160, 226, 228, 224, 225, 227, 229, 231, 241, 162, 46, 60, 40, 43, 124] ++
  [38, 233, 234, 235, 232, 237, 238, 239, 236, 223, 33, 36, 42, 41, 59, 172] ++
  [45, 47, 194, 196, 192, 193, 195, 197, 199, 209, 166, 44, 37, 95, 62, 63] ++
  [248, 201, 202, 203, 200, 205, 206, 207, 204, 96, 58, 35, 64, 39, 61, 34] ++
  [216, 97, 98, 99, 100, 101, 102, 103, 104, 105, 171, 187, 240, 253, 254, 177] ++
  [176, 106, 107, 108, 109, 110, 111, 112, 113, 114, 170, 186, 230, 184, 198, 164] ++
  [181, 126, 115, 116, 117, 118, 119, 120, 121, 122, 161, 191, 208, 221, 222, 174] ++
  [94, 163, 165, 183, 169, 167, 182, 188, 189, 190, 91, 93, 175, 168, 180, 215] ++
  [123, 65, 66, 67, 68, 69, 70, 71, 72, 73, 173, 244, 246, 242, 243, 245] ++
  [125, 74, 75, 76, 77, 78, 79, 80, 81, 82, 185, 251, 252, 249, 250, 255] ++
  [92, 247, 83, 84, 85, 86, 87, 88, 89, 90, 178, 212, 214, 210, 211, 213] ++
  [48, 49, 50, 51, 52, 53, 54, 55, 56, 57, 179, 219, 220, 217, 218, 159]
/-- Code page 1047 differs from 037 in six places. -/
def cp1047At (b : Nat) : Nat :=
  match b with
  | 0x5F => 0x5E | 0xAD => 0x5B | 0xB0 => 0xAC | 0xBA => 0xDD | 0xBB => 0xA8 | 0xBD => 0x5D | _ => cp037.getD b 0
def cp1047 : List Nat := (List.range 256).map cp1047At
/-- The charsets of R409: 1 ASCII, 2 EBCDIC 037, 3 EBCDIC 1047, 5 UTF-8. -/
def pageOf (cs : Nat) : List Nat := if cs = 2 then cp037 else cp1047

/-! ## UTF-8 -/

def cont (b : Byte) : Bool := 0x80 ≤ b.toNat && b.toNat < 0xC0
/-- The points of strictly formed UTF-8. -/
def utf8Go : Nat → Bytes → Option (List Nat)
  | _, [] => some []
  | 0, _ => none
  | f + 1, b :: r =>
    let n := b.toNat
    if n < 0x80 then (utf8Go f r).map (n :: ·)
    else
      let len := if 0xC2 ≤ n ∧ n < 0xE0 then 1 else if 0xE0 ≤ n ∧ n < 0xF0 then 2 else if 0xF0 ≤ n ∧ n < 0xF5 then 3 else 0
      let cs := r.take len
      let v := cs.foldl (fun a c => a * 64 + c.toNat % 64) (n % 2 ^ (6 - len))
      if len = 0 ∨ cs.length ≠ len ∨ !cs.all cont ∨ (len = 2 ∧ v < 0x800) ∨ (len = 3 ∧ v < 0x10000) ∨ 0x10FFFF < v ∨
          (0xD800 ≤ v ∧ v < 0xE000) then none
      else (utf8Go f (r.drop len)).map (v :: ·)
def utf8Points (b : Bytes) : Option (List Nat) := utf8Go b.length b
def utf8Enc (c : Nat) : Bytes :=
  let x := fun (k : Nat) => BitVec.ofNat 8 (0x80 + c / 64 ^ k % 64)
  if c < 0x80 then [BitVec.ofNat 8 c]
  else if c < 0x800 then [BitVec.ofNat 8 (0xC0 + c / 64), x 0]
  else if c < 0x10000 then [BitVec.ofNat 8 (0xE0 + c / 4096), x 1, x 0]
  else [BitVec.ofNat 8 (0xF0 + c / 262144), x 2, x 1, x 0]

/-! ## CONVERT (R409) -/

def charsetOk (cs : Nat) : Bool := cs == 1 || cs == 2 || cs == 3 || cs == 5
def charPoints (cs : Nat) (b : Bytes) : Option (List Nat) :=
  if cs = 1 then (if b.all fun x => x.toNat < 0x80 then some (b.map (·.toNat)) else none)
  else if cs = 5 then utf8Points b
  else some (b.map fun x => (pageOf cs).getD x.toNat 0)
/-- One point in a charset, if it can be held. -/
def pointIn (cs c : Nat) : Option Bytes :=
  if cs = 1 then (if c < 0x80 then some [BitVec.ofNat 8 c] else none)
  else if cs = 5 then some (utf8Enc c)
  else if c < 0x100 then some [BitVec.ofNat 8 ((pageOf cs).idxOf c)] else none
def substitute (cs : Nat) : Bytes := if cs = 1 then [0x1A] else if cs = 5 then utf8Enc 0xFFFD else [0x3F]
/-- The converted text, or the status of the failure. -/
def convertText (src dst : Nat) (sub : Bool) (b : Bytes) : Sum Nat Bytes :=
  match charPoints src b with
  | none => .inl 0x0207
  | some cs =>
    let parts := cs.map (pointIn dst)
    if !sub && parts.any Option.isNone then .inl 0x0206
    else .inr (parts.flatMap fun p => p.getD (substitute dst))

/-! ## Digits and hex -/

/-- The ASCII code of a character in a one-byte charset. -/
def asciiOf (cs : Nat) (b : Byte) : Nat := if cs = 2 ∨ cs = 3 then (pageOf cs).getD b.toNat 0 else b.toNat
def inCharset (cs ascii : Nat) : Byte :=
  if cs = 2 ∨ cs = 3 then BitVec.ofNat 8 ((pageOf cs).idxOf ascii) else BitVec.ofNat 8 ascii
def digitVal (c : Nat) : Option Nat := if 48 ≤ c ∧ c ≤ 57 then some (c - 48) else none
def hexNibble (c : Nat) : Option Nat :=
  if 48 ≤ c ∧ c ≤ 57 then some (c - 48) else if 65 ≤ c ∧ c ≤ 70 then some (c - 55)
  else if 97 ≤ c ∧ c ≤ 102 then some (c - 87) else none
def hexChar (n : Nat) : Nat := if n < 10 then 48 + n else 55 + n
/-- Nibbles, high one first. -/
def nibblesOf (b : Bytes) : List Nat := b.flatMap fun x => [x.toNat / 16, x.toNat % 16]
def packNibbles : List Nat → Bytes
  | a :: b :: r => BitVec.ofNat 8 (16 * a + b) :: packNibbles r
  | [a] => [BitVec.ofNat 8 (16 * a)]
  | [] => []
/-- Hex text as binary; none: a character is no hex digit or their number is odd. -/
def hexBytes (cs : Nat) (b : Bytes) : Option Bytes :=
  if b.length % 2 = 1 then none else (b.mapM fun x => hexNibble (asciiOf cs x)).map packNibbles
/-- A number in decimal digits of a charset; none: not digits. -/
def decNat (cs : Nat) (b : Bytes) : Option Nat :=
  (b.mapM fun x => digitVal (asciiOf cs x)).map fun ds => ds.foldl (fun a d => 10 * a + d) 0
def bcdNat (b : Bytes) : Option Nat :=
  let ns := nibblesOf b
  if ns.all (· < 10) then some (ns.foldl (fun a d => 10 * a + d) 0) else none

/-! ## DECIMAL (R410) -/

/-- The characters of the text of a DECIMAL operation as ASCII; BCD nibbles C and D are the letters. -/
def decimalChars (cs n : Nat) (b : Bytes) : List Nat :=
  if cs = 4 then ((nibblesOf b).drop (n % 2)).map hexChar else b.map (asciiOf cs)
def decimalLen (cs n : Nat) : Nat := if cs = 4 then (n + 1) / 2 else n
/-- Sign of the first character under a convention: 1 + and −, 2 C and D (D is negative; log entry 19). -/
def decSign (conv c : Nat) : Option Bool :=
  if conv = 1 then (if c = 43 then some false else if c = 45 then some true else none)
  else if c = 67 then some false else if c = 68 then some true else none
def stripSign (conv : Nat) (cs : List Nat) : Option (Bool × List Nat) :=
  if conv = 0 then some (false, cs)
  else match cs with
    | c :: r => (decSign conv c).map fun g => (g, r)
    | [] => none
/-- Significant digits: at least one (log entry 19). -/
def sigDigits (c : Nat) : Nat := max 1 (digits10 c)
/-- Sign, coefficient and exponent of a text; none: malformed. -/
def parseDecimal (conv : Nat) (implied : Int) (cs : List Nat) : Option (Bool × Nat × Int) :=
  match stripSign conv cs with
  | none => none
  | some (neg, ds) =>
    let whole := ds.takeWhile (· ≠ 46)
    let rest := ds.dropWhile (· ≠ 46)
    let frac := rest.drop 1
    let all := whole ++ frac
    if 64 < cs.length ∨ all = [] ∨ !all.all (fun c => (digitVal c).isSome) then none
    else
      let c := all.foldl (fun a d => 10 * a + (d - 48)) 0
      if 38 < digits10 c then none
      else some (neg && c != 0, c, if rest = [] then implied else -(frac.length : Int))
/-- The 48 bytes of a value block. -/
def valueBlock (neg : Bool) (c : Nat) (e : Int) : Bytes :=
  let coef := if neg then 2 ^ 128 - c else c
  let small := digits10 c ≤ 34
  let w2 := (e % 65536).toNat + sigDigits c * 2 ^ 16 + b2n small * 2 ^ 24
  toLe 16 coef ++ toLe 8 w2 ++ toLe 8 0 ++ toLe 16 (if small then dec128.encode (.fin neg c e) else 0)
def signed (bits v : Nat) : Int := if v / 2 ^ (bits - 1) % 2 = 1 then (v % 2 ^ bits : Nat) - (2 ^ bits : Nat) else (v % 2 ^ bits : Nat)
/-- n decimal digits, highest first, as ASCII. -/
def decDigits : Nat → Nat → List Nat
  | 0, _ => []
  | n + 1, v => decDigits n (v / 10) ++ [48 + v % 10]
/-- The coefficient of a value at another exponent; none: it would have to be rounded. -/
def atExponent (c : Nat) (e q : Int) : Option Nat :=
  if c = 0 then some 0
  else if q ≤ e then (if 100000 < e - q then none else some (c * 10 ^ (e - q).toNat))
  else if 200 < q - e then none
  else if c % 10 ^ (q - e).toNat = 0 then some (c / 10 ^ (q - e).toNat) else none
/-- The text of a value block at a width; none: it does not fit, needs rounding or cannot show its sign. -/
def formatDecimal (cs conv width : Nat) (q : Int) (b : Bytes) : Option Bytes :=
  let v := signed 128 (leNat (b.take 16))
  let e := signed 16 (leNat ((b.drop 16).take 2))
  let w := if conv = 0 then width else width - 1
  match atExponent v.natAbs e q with
  | none => none
  | some c =>
    if (conv = 0 ∧ v < 0) ∨ (conv ≠ 0 ∧ width = 0) ∨ w < digits10 c then none
    else
      let sign := if conv = 0 then [] else if conv = 1 then [if v < 0 then 45 else 43] else [if v < 0 then 68 else 67]
      let chars := sign ++ decDigits w c
      some (if cs = 4 then packNibbles ((if chars.length % 2 = 1 then [0] else []) ++ chars.map fun x => (hexNibble x).getD 0)
        else chars.map (inCharset cs))

/-! ## EMIT (R411) -/

/-- The content of a sealed field in the encoding asked for; none: encoding 3 or 4 of other than digits. -/
def emitText (enc : Nat) (b : Bytes) : Option Bytes :=
  let hex := (nibblesOf b).map hexChar
  match enc with
  | 0 => some b
  | 1 => some (hex.map (BitVec.ofNat 8))
  | 2 => some (hex.map (inCharset 2))
  | _ => (b.mapM fun x => digitVal x.toNat).map fun ds =>
    if enc = 3 then ds.map fun d => inCharset 2 (48 + d)
    else packNibbles (if ds.length % 2 = 1 then 0 :: ds else ds)

end Sys2Proof.Machine
end

