-- ==== Sys2Proof/Machine/Iso.lean ====
section
/-!
DEFINITION. Images and field maps of the Plaiter, and the extractor for ISO 8583 and BER-TLV (13/R386-R397).
-/
namespace Sys2Proof.Machine

/-! ## Images and field maps (R386-R391) -/

def leAt (b : Bytes) (o n : Nat) : Nat := leNat ((b.drop o).take n)
/-- A map entry (R390). -/
structure MapEnt where
  kind : Nat
  dataCs : Nat
  prefixCs : Nat
  unit : Nat
  sealed : Bool
  required : Bool
  tlv : Bool
  id : Nat
  max : Nat
  container : Nat
  name : Bytes
  deriving DecidableEq, Repr
/-- A field map (R389). -/
structure FMapHdr where
  format : Nat
  mtiCs : Nat
  bitmap : Nat
  tertiary : Bool
  ents : List MapEnt
  deriving DecidableEq, Repr
def mapEntAt (sec : Bytes) (strings o : Nat) : MapEnt :=
  let w0 := w64 (leAt sec o 8)
  let w1 := w64 (leAt sec (o + 8) 8)
  { kind := fld w0 63 56, dataCs := fld w0 55 52, prefixCs := fld w0 51 48, unit := fld w0 47 46, sealed := tbit w0 45,
    required := tbit w0 44, tlv := tbit w0 43, id := fld w0 23 0, max := fld w1 63 48, container := fld w1 47 32,
    name := (sec.drop (strings + fld w1 31 16)).take (fld w1 15 8) }
def mapAt (sec : Bytes) (o : Nat) : FMapHdr :=
  let w0 := w64 (leAt sec o 8)
  let strings := leAt sec (o + 10) 2
  { format := fld w0 63 56, mtiCs := fld w0 55 52, bitmap := fld w0 51 48, tertiary := tbit w0 0,
    ents := (List.range (fld w0 47 32)).map fun i => mapEntAt sec strings (o + 16 + 16 * i) }
/-- Does a map hold any seal or sealed-name entry (R405)? -/
def FMapHdr.seals (m : FMapHdr) : Bool := m.ents.any fun e => e.sealed || e.kind == 6

/-- The greatest length of a field in bytes once converted (R391). -/
def convertedMax (e : MapEnt) : Nat :=
  if e.dataCs = 6 ∨ e.dataCs = 7 then (e.max + 1) / 2
  else if e.dataCs = 4 ∧ e.unit = 0 then 2 * e.max
  else e.max
/-- Words of a map entry that R390 and R391 allow; charsets and prefixes as R390 lists them for every format. -/
def mapEntOk (format secLen strings : Nat) (w0 w1 : W64) : Bool :=
  let kind := fld w0 63 56
  let kindOk := if format = 1 then decide (1 ≤ kind) && decide (kind ≤ 5) else if format = 2 then kind == 5 else kind == 6
  kindOk && fld w0 42 24 = 0 && fld w1 7 0 = 0 && decide (fld w0 55 52 ≤ 7) &&
    (fld w0 51 48 ≤ 2 || fld w0 51 48 = 4) && fld w0 47 46 ≠ 3 &&
    (if kind ≤ 4 then decide (1 ≤ fld w0 23 0) && decide (fld w0 23 0 ≤ 192) else true) &&
    (if kind ≤ 3 then decide (1 ≤ fld w1 63 48) else true) &&
    (if kind = 6 then decide (1 ≤ fld w1 15 8) && decide (fld w1 15 8 ≤ 32) &&
      decide (strings + fld w1 31 16 + fld w1 15 8 ≤ secLen) else true)
/-- The first fault of a field map, as an offset in the map section. -/
def mapFault (sec : Bytes) (parse o : Nat) : Option Nat :=
  let n := leAt sec (o + 4) 2
  let h := w64 (leAt sec o 8)
  if sec.length < o + 16 then some o
  else if fld h 63 56 ≠ parse ∨ fld h 31 1 ≠ 0 ∨ 2047 < n ∨ 7 < fld h 55 52 ∨ 2 < fld h 51 48 then some o
  else if leAt sec (o + 12) 4 ≠ 0 ∨ leAt sec (o + 8) 2 ≠ 0 then some (o + 8)
  else if sec.length < o + 16 + 16 * n then some (o + 16)
  else
    let m := mapAt sec o
    let bad := fun (i : Nat) =>
      let at_ := o + 16 + 16 * i
      let e := m.ents.getD i { kind := 0, dataCs := 0, prefixCs := 0, unit := 0, sealed := false, required := false, tlv := false,
                               id := 0, max := 0, container := 0, name := [] }
      !mapEntOk parse sec.length (leAt sec (o + 10) 2) (w64 (leAt sec at_ 8)) (w64 (leAt sec (at_ + 8) 8)) ||
        ((e.sealed || e.kind == 6) && decide (256 < convertedMax e)) ||
        (m.ents.take i).any (fun d => d.kind == e.kind && d.id == e.id && d.container == e.container) ||
        (e.kind == 5 && (e.container != 0 || parse == 1) && !(m.ents.any fun d => d.id == e.container && d.tlv))
    ((List.range n).find? bad).map fun i => o + 16 + 16 * i

/-- The checks of an image in the order of R388; the offset of the first fault, or the image without its digest check. -/
def imageFault (b : Bytes) : Option Nat :=
  let cl := leAt b 0xC 4
  let ml := leAt b 0x10 4
  let dl := leAt b 0x14 4
  if leAt b 0 8 ≠ 0x3130474D49544C50 then some 0
  else if leAt b 8 4 ≠ b.length then some 8
  else if cl % 4 ≠ 0 ∨ cl < 4 ∨ 65536 < cl then some 0xC
  else if 32768 < ml then some 0x10
  else if 65536 < dl then some 0x14
  else if leAt b 0x18 8 ≠ 0 then some 0x18
  else if b.length ≠ 0xA0 + cl + ml + dl + 32 then some 8
  else
    let sec := (b.drop (0xA0 + cl)).take ml
    (List.range 16).findSome? fun i =>
      let e := w64 (leAt b (0x20 + 8 * i) 8)
      if !tbit e 63 then none
      else if fld e 62 56 ≠ 0 ∨ fld e 31 16 ≠ 0 ∨ 4 < fld e 55 48 ∨ fld e 1 0 ≠ 0 ∨ cl ≤ fld e 15 0 then some (0x20 + 8 * i)
      else if fld e 55 48 = 0 then none
      else (mapFault sec (fld e 55 48) (fld e 47 32)).map (0xA0 + cl + ·)
def imageOf (b : Bytes) : Img :=
  let cl := leAt b 0xC 4
  let ml := leAt b 0x10 4
  { code := (b.drop 0xA0).take cl, maps := (b.drop (0xA0 + cl)).take ml, data := (b.drop (0xA0 + cl + ml)).take (leAt b 0x14 4),
    entries := (List.range 16).map fun i => w64 (leAt b (0x20 + 8 * i) 8) }

/-! ## Parse results -/

/-- An entry found: its number, id, parent, length and offset, and the content to seal. -/
structure PEnt where
  ix : Nat
  id : Nat
  container : Bool
  parent : Nat
  len : Nat
  off : Nat
  secret : Option Bytes
  deriving DecidableEq, Repr
/-- What the extractor has found: entries, the next sub-entry, the ranges of the window that read as zero. -/
structure PAcc where
  ents : List PEnt
  next : Nat
  zero : List (Nat × Nat)
  deriving DecidableEq, Repr
/-- A parse error: reason, byte offset, element, tag or entry (R396). -/
abbrev PErr := Nat × Nat × Nat

/-! ## Sealed content (R397) -/

/-- The digits of packed BCD as ASCII, the pad nibble dropped: a last nibble F, else the first of an even number where the
field has an odd number of digits. -/
def bcdDigits (odd : Bool) (b : Bytes) : Bytes :=
  let ns := nibblesOf b
  let ns := if ns.getLast? = some 15 then ns.dropLast else if odd then ns.drop 1 else ns
  ns.map fun n => BitVec.ofNat 8 (hexChar n)
/-- Canonical form; none: hex text that is no hex. -/
def canonField (cs : Nat) (odd : Bool) (b : Bytes) : Option Bytes :=
  if cs = 2 ∨ cs = 3 then some (b.map fun x => BitVec.ofNat 8 (asciiOf cs x))
  else if cs = 4 then some (bcdDigits odd b)
  else if cs = 6 then hexBytes 1 b
  else if cs = 7 then hexBytes 2 b
  else some b
/-- Content of hex fields that hold no hex, which the manual does not state: the bytes as they are (log entry 19). -/
def sealContent (cs : Nat) (odd : Bool) (b : Bytes) : Bytes := (canonField cs odd b).getD b
def sealLenBad (b : Bytes) : Bool := b.isEmpty || decide (256 < b.length)

/-! ## BER-TLV (R394) -/

/-- A tag: its bytes, at most three. -/
def tlvTag (b : Bytes) : Option (Nat × Nat) :=
  match b with
  | [] => none
  | t :: r =>
    if t.toNat % 32 ≠ 31 then some (t.toNat, 1)
    else match r with
      | [] => none
      | u :: r2 =>
        if u.toNat < 128 then some (t.toNat * 256 + u.toNat, 2)
        else match r2 with
          | [] => none
          | v :: _ => if v.toNat < 128 then some ((t.toNat * 256 + u.toNat) * 256 + v.toNat, 3) else none
/-- A definite length and the bytes it takes. -/
def tlvLen (b : Bytes) : Option (Nat × Nat) :=
  match b with
  | [] => none
  | l :: r =>
    if l.toNat < 128 then some (l.toNat, 1)
    else
      let k := l.toNat - 128
      if k = 0 ∨ 4 < k ∨ r.length < k then none else some (beNat (r.take k), k + 1)
/-- Objects of a range, then those inside a constructed one or one whose entry says so, to a depth of 4. `outer`: the
objects that hold this range. -/
def tlvGo (ents : List MapEnt) : Nat → Bytes → Nat → Nat → Nat → Nat → List (Nat × Nat) → PAcc → Sum PErr PAcc
  | 0, _, off, _, _, cid, _, _ => .inl (5, off, cid)
  | f + 1, b, off, depth, parent, cid, outer, acc =>
    if b = [] then .inr acc
    else if 4 < depth then .inl (5, off, cid)
    else match tlvTag b with
      | none => .inl (5, off, cid)
      | some (tag, tn) =>
        match tlvLen (b.drop tn) with
        | none => .inl (5, off, tag)
        | some (len, ln) =>
          let h := tn + ln
          if b.length < h + len then .inl (5, off, tag)
          else if 2048 ≤ acc.next then .inl (7, off, tag)
          else
            let data := (b.drop h).take len
            let e := ents.find? fun e => e.kind = 5 ∧ e.id = tag ∧ e.container = cid
            let sealed : Bool := match e with | some m => m.sealed | none => false
            let constructed := (b.headD 0).toNat / 32 % 2 = 1 || (match e with | some m => m.tlv | none => false)
            let holders := (off, h + len) :: outer
            let content := match e with | some m => sealContent m.dataCs false data | none => data
            if sealed ∧ sealLenBad content then .inl (8, off + h, tag)
            else if (match e with | some m => decide (0 < m.max) && decide ((if m.dataCs = 4 ∧ m.unit ≠ 0 then 2 * len - 1 else len) > m.max) | none => false) then
              .inl (1, off + tn, tag)
            else
              let p : PEnt := { ix := acc.next, id := tag, container := constructed && !sealed && len != 0, parent := parent, len := len,
                                off := off + h, secret := if sealed then some content else none }
              let acc : PAcc := { ents := acc.ents ++ [p], next := acc.next + 1, zero := if sealed then holders ++ acc.zero else acc.zero }
              match (if constructed ∧ !sealed then tlvGo ents f data (off + h) (depth + 1) p.ix tag holders acc else .inr acc) with
              | .inl e => .inl e
              | .inr acc => tlvGo ents f (b.drop (h + len)) (off + h + len) depth parent cid outer acc
/-- The object stands in that container, 0 the top level of a BER-TLV message. -/
def PAcc.within (acc : PAcc) (p : PEnt) (container : Nat) : Bool :=
  if container = 0 then p.parent == 0xFFFF else acc.ents.any fun q => q.ix == p.parent && q.id == container
/-- The required kind 0x05 entries of a container that no object has. -/
def tlvMissing (ents : List MapEnt) (acc : PAcc) : Option Nat :=
  (ents.find? fun e => e.kind = 5 ∧ e.required ∧ !(acc.ents.any fun p => p.id = e.id && acc.within p e.container)).map (·.id)

/-! ## ISO 8583 (R393) -/

/-- A bitmap of 64 elements: bytes or hex text; none: malformed. The flag: it runs past the end. -/
def isoBitmap (cs : Nat) (b : Bytes) : Option (Option Nat) × Nat :=
  let n := if cs = 0 then 8 else 16
  if b.length < n then (none, n)
  else if cs = 0 then (some (some (beNat (b.take 8))), n)
  else (some ((hexBytes (if cs = 1 then 1 else 2) (b.take 16)).map beNat), n)
/-- Elements a bitmap names, bit 1 the most significant. -/
def bitmapElems (base v : Nat) : List Nat := (upto 1 64).filterMap fun i => if v.testBit (64 - i) then some (base + i) else none
/-- The number that a length prefix gives, and the bytes it takes: one digit pair for a binary LL, two bytes for a binary
LLL (log entry 19). -/
def isoPrefix (e : MapEnt) (b : Bytes) : Option (Option Nat × Nat) :=
  let digits := if e.kind = 2 then 2 else 3
  let n := if e.prefixCs = 0 then digits - 1 else if e.prefixCs = 4 then 1 + (digits - 2) else digits
  if b.length < n then none
  else
    let p := b.take n
    some (if e.prefixCs = 0 then some (beNat p) else if e.prefixCs = 4 then bcdNat p else decNat e.prefixCs p, n)
/-- The bytes that n characters of UTF-8 take. -/
def utf8Take : Nat → Nat → Bytes → Nat
  | 0, _, _ => 0
  | _, 0, _ => 0
  | f + 1, n + 1, b =>
    match b with
    | [] => 1
    | x :: _ =>
      let k := if x.toNat < 0x80 then 1 else if x.toNat < 0xE0 then 2 else if x.toNat < 0xF0 then 3 else 4
      k + utf8Take f n (b.drop k)
/-- Bytes of a field of n units. -/
def isoBytes (e : MapEnt) (n : Nat) (b : Bytes) : Nat :=
  if e.unit = 0 then n
  else if e.dataCs = 4 then (n + 1) / 2
  else if e.dataCs = 5 then utf8Take n n b
  else n
/-- One element at a position: the entry joins, or the error. -/
def isoElem (m : FMapHdr) (msg : Bytes) (n pos : Nat) (acc : PAcc) : Sum PErr (Nat × PAcc) :=
  match m.ents.find? fun e => e.kind ≤ 4 ∧ e.id = n with
  | none => .inl (3, pos, n)
  | some e =>
    let b := msg.drop pos
    let plain := fun (units skip : Nat) =>
      let len := if e.kind = 4 then (if m.bitmap = 0 then 8 else 16) else isoBytes e units (b.drop skip)
      if b.length < skip + len then Sum.inl ((2, pos + skip, n) : PErr)
      else
        let data := (b.drop skip).take len
        let content := sealContent e.dataCs (e.unit ≠ 0 && units % 2 = 1) data
        if e.sealed ∧ sealLenBad content then .inl (8, pos + skip, n)
        else
          let p : PEnt := { ix := n, id := n, container := e.tlv && !e.sealed && len != 0, parent := 0xFFFF, len := len,
                            off := pos + skip, secret := if e.sealed then some content else none }
          let acc : PAcc := { acc with ents := acc.ents ++ [p], zero := if e.sealed then (pos + skip, len) :: acc.zero else acc.zero }
          if e.tlv ∧ !e.sealed then
            match tlvGo m.ents (len + 1) data (pos + skip) 1 n n [] acc with
            | .inl x => .inl x
            | .inr acc => .inr (pos + skip + len, acc)
          else .inr (pos + skip + len, acc)
    if e.kind = 1 ∨ e.kind = 4 then plain e.max 0
    else match isoPrefix e b with
      | none => .inl (2, pos, n)
      | some (none, _) => .inl (1, pos, n)
      | some (some u, k) => if e.max < u then .inl (1, pos, n) else plain u k
/-- The bitmap element (1 or 65) at a position: its entry and the elements it names above `base`. -/
def isoMapElem (m : FMapHdr) (msg : Bytes) (n base pos : Nat) (acc : PAcc) : Sum PErr (Nat × PAcc × List Nat) :=
  match isoBitmap m.bitmap (msg.drop pos) with
  | (none, _) => .inl (2, pos, n)
  | (some none, _) => .inl (9, pos, n)
  | (some (some v), k) =>
    let p : PEnt := { ix := n, id := n, container := false, parent := 0xFFFF, len := k, off := pos, secret := none }
    .inr (pos + k, { acc with ents := acc.ents ++ [p] }, bitmapElems base v)
/-- Elements in ascending order. Element 65 is a bitmap in its place when the header says so. -/
def isoElems (m : FMapHdr) (msg : Bytes) : Nat → List Nat → Nat → PAcc → List Nat → Sum PErr (Nat × PAcc × List Nat)
  | 0, _, pos, acc, all => .inr (pos, acc, all)
  | _, [], pos, acc, all => .inr (pos, acc, all)
  | f + 1, n :: r, pos, acc, all =>
    if n = 65 ∧ m.tertiary then
      match isoMapElem m msg 65 128 pos acc with
      | .inl e => .inl e
      | .inr (pos, acc, more) => isoElems m msg f (r ++ more) pos acc (all ++ [65] ++ more)
    else match isoElem m msg n pos acc with
      | .inl e => .inl e
      | .inr (pos, acc) => isoElems m msg f r pos acc (all ++ [n])
/-- A whole ISO 8583 message: its entries, and the elements present. -/
def isoParse (m : FMapHdr) (msg : Bytes) : Sum PErr (PAcc × List Nat) :=
  let mti := if m.mtiCs = 4 ∨ m.mtiCs = 0 then 2 else 4
  if msg.length < mti then .inl (2, 0, 0) else
  let acc0 : PAcc := { ents := [{ ix := 0, id := 0, container := false, parent := 0xFFFF, len := mti, off := 0, secret := none }],
                       next := 256, zero := [] }
  match isoBitmap m.bitmap (msg.drop mti) with
  | (none, _) => .inl (2, mti, 0)
  | (some none, _) => .inl (9, mti, 0)
  | (some (some v), k) =>
    let first := bitmapElems 0 v
    let second := if first.contains 1 then isoMapElem m msg 1 64 (mti + k) acc0 else .inr (mti + k, acc0, [])
    match second with
    | .inl e => .inl e
    | .inr (pos, acc, more) =>
      match isoElems m msg 400 (first.filter (· ≠ 1) ++ more) pos acc (if first.contains 1 then [0, 1] else [0]) with
      | .inl e => .inl e
      | .inr (pos, acc, all) =>
        match m.ents.find? fun e => e.kind ≤ 4 ∧ e.required ∧ !all.contains e.id with
        | some e => .inl (4, pos, e.id)
        | none =>
          match tlvMissing m.ents acc with
          | some t => .inl (4, pos, t)
          | none => if pos < msg.length then .inl (10, pos, 0) else .inr (acc, all)
/-- A whole BER-TLV message. -/
def tlvParse (m : FMapHdr) (msg : Bytes) : Sum PErr PAcc :=
  match tlvGo m.ents (msg.length + 1) msg 0 1 0xFFFF 0 [] { ents := [], next := 0, zero := [] } with
  | .inl e => .inl e
  | .inr acc =>
    match tlvMissing m.ents acc with
    | some t => .inl (4, msg.length, t)
    | none => .inr acc

/-- The window: the message with the sealed ranges reading as zero. -/
def windowOf (zero : List (Nat × Nat)) (msg : Bytes) : Bytes :=
  if zero = [] then msg
  else (msg.zipIdx).map fun (p : Byte × Nat) => if zero.any fun z => z.1 ≤ p.2 && p.2 < z.1 + z.2 then 0 else p.1
/-- The presence mask (R393). -/
def presenceMask (all : List Nat) : List W64 :=
  (List.range 4).map fun w => w64 ((all.filter fun n => n / 64 = w).foldl (fun a n => a ||| 2 ^ (n % 64)) 0)

end Sys2Proof.Machine
end

