-- ==== Sys2Proof/Machine/Xml.lean ====
section
/-!
DEFINITION. The tokenizer of the Plaiter for XML and JSON, segments, and Exclusive XML Canonicalization (13/R395, R396,
R412, R413).
-/
namespace Sys2Proof.Machine

/-- What a tokenizer has read: tokens, open elements or containers, the first error (R396). -/
structure TokAcc where
  toks : List Tok
  n : Nat
  err : Option PErr
  deriving DecidableEq, Repr
def TokAcc.push (a : TokAcc) (ty depth : Nat) (data : Bytes) (off : Nat) (own : Option (Nat × Nat)) : TokAcc :=
  let a := { a with toks := { ty := ty, depth := depth, data := data, off := off, own := own } :: a.toks, n := a.n + 1 }
  if 65536 < data.length then { a with err := some (7, off, a.n - 1) } else a
def TokAcc.fail (a : TokAcc) (off : Nat) : TokAcc :=
  { a with err := match a.err with | some e => some e | none => some (6, off, a.n) }

def isWs (b : Byte) : Bool := b == 32 || b == 9 || b == 10 || b == 13
def bytesOf (s : List Nat) : Bytes := s.map (BitVec.ofNat 8)
/-- The map entry, by number, of a sealed name. -/
def sealedName (ents : List MapEnt) (name : Bytes) : Option Nat := ents.findIdx? fun e => e.kind = 6 ∧ e.name = name
/-- The part of a qualified name after the colon, and before it. -/
def localName (q : Bytes) : Bytes := if q.contains 58 then (q.dropWhile (· ≠ 58)).drop 1 else q
def prefixName (q : Bytes) : Bytes := if q.contains 58 then q.takeWhile (· ≠ 58) else []
/-- The text up to a delimiter and what follows it; none: the delimiter is absent. -/
def cutAt (d : Bytes) : Nat → Bytes → Bytes → Option (Bytes × Bytes)
  | 0, _, _ => none
  | f + 1, acc, b =>
    if d.isPrefixOf b then some (acc.reverse, b.drop d.length)
    else match b with
      | [] => none
      | x :: r => cutAt d f (x :: acc) r

/-! ## XML -/

def nameStart (b : Byte) : Bool :=
  let n := b.toNat
  (65 ≤ n && n ≤ 90) || (97 ≤ n && n ≤ 122) || n == 95 || n == 58 || 128 ≤ n
def nameChar (b : Byte) : Bool :=
  let n := b.toNat
  nameStart b || (48 ≤ n && n ≤ 57) || n == 45 || n == 46
/-- A character XML allows, for bytes of valid UTF-8. -/
def xmlByte (b : Byte) : Bool := 32 ≤ b.toNat || isWs b
def xmlPoint (c : Nat) : Bool :=
  c == 9 || c == 10 || c == 13 || (32 ≤ c && c < 0xD800) || (0xE000 ≤ c && c ≤ 0xFFFD) || (0x10000 ≤ c && c ≤ 0x10FFFF)
def refNum (base : Nat) (b : Bytes) : Option Nat :=
  if b = [] ∨ 8 < b.length then none
  else (b.mapM fun x => (hexNibble x.toNat).bind fun v => if v < base then some v else none).map fun ds => ds.foldl (fun a d => base * a + d) 0
/-- A character or entity reference, without & and ;. -/
def refText (b : Bytes) : Option Bytes :=
  if b = bytesOf [97, 109, 112] then some [38]
  else if b = bytesOf [108, 116] then some [60]
  else if b = bytesOf [103, 116] then some [62]
  else if b = bytesOf [113, 117, 111, 116] then some [34]
  else if b = bytesOf [97, 112, 111, 115] then some [39]
  else
    let v := match b with
      | 35 :: 120 :: r => refNum 16 r
      | 35 :: r => refNum 10 r
      | _ => none
    v.bind fun c => if xmlPoint c then some (utf8Enc c) else none
/-- Text or an attribute value decoded: references resolved, line ends and, in a value, white space normalised. -/
def decodeXml (attr : Bool) : Nat → Bytes → Option Bytes
  | _, [] => some []
  | 0, _ => none
  | f + 1, b :: r =>
    let ws : Byte → Byte := fun c => if attr then 32 else c
    if b = 38 then
      match cutAt [59] (r.length + 1) [] r with
      | none => none
      | some (name, rest) => match refText name with
        | none => none
        | some t => (decodeXml attr f rest).map (t ++ ·)
    else if b = 13 then
      match r with
      | 10 :: r' => (decodeXml attr f r').map (ws 10 :: ·)
      | _ => (decodeXml attr f r).map (ws 10 :: ·)
    else if b = 60 ∨ !xmlByte b ∨ (!attr && [93, 93, 62].isPrefixOf (b :: r)) then none
    else (decodeXml attr f r).map ((if isWs b then ws b else b) :: ·)
def cdataText : Bytes → Bytes
  | [] => []
  | 13 :: 10 :: r => 10 :: cdataText r
  | b :: r => (if b = 13 then 10 else b) :: cdataText r

/-- The attributes of a start tag: name, value and their offsets; what follows them. -/
def xmlAttrs : Nat → Bytes → Nat → List (Bytes × Bytes × Nat × Nat) → Option (List (Bytes × Bytes × Nat × Nat) × Bytes × Nat)
  | 0, _, _, _ => none
  | f + 1, b, o, acc =>
    let (w, r) := b.span isWs
    let o1 := o + w.length
    match r with
    | [] => none
    | c :: _ =>
      if !nameStart c then some (acc, r, o1)
      else if w = [] then none
      else
        let (name, r2) := r.span nameChar
        let r3 := r2.dropWhile isWs
        match r3 with
        | 61 :: r4 =>
          let r5 := r4.dropWhile isWs
          match r5 with
          | q :: r6 =>
            if q ≠ 34 ∧ q ≠ 39 then none
            else match cutAt [q] (r6.length + 1) [] r6 with
              | none => none
              | some (raw, rest) =>
                let vo := o + (b.length - r6.length)
                match decodeXml true (raw.length + 1) raw with
                | none => none
                | some v =>
                  if acc.any fun a => a.1 = name then none
                  else xmlAttrs f rest (vo + raw.length + 1) (acc ++ [(name, v, o1, vo)])
          | [] => none
        | _ => none

/-- An open element: its name, the number of its start token, the map entry that seals its text, that text so far. -/
structure XOpen where
  name : Bytes
  start : Nat
  sealed : Option Nat
  text : Bytes
  deriving DecidableEq, Repr
/-- The end of a sealed element: its text as one sealed field (R395, R396 reason 8). -/
def endSealed (ents : List MapEnt) (ix : Option Nat) (text : Bytes) (off : Nat) (a : TokAcc) : TokAcc :=
  match ix with
  | none => a
  | some i =>
    let cs := (ents[i]?.map (·.dataCs)).getD 0
    if sealLenBad (sealContent cs false text) then { a with err := some (8, off, a.n - 1) } else a

def xmlText (ents : List MapEnt) (st : List XOpen) (data : Bytes) (o : Nat) (a : TokAcc) : List XOpen × TokAcc :=
  match st with
  | [] => (st, a.fail o)
  | x :: r =>
    (({ x with text := if x.sealed.isSome then x.text ++ data else [] } : XOpen) :: r,
      a.push 4 st.length data o (if ents = [] then none else x.sealed.map fun i => (x.start, i)))

def xmlGo (ents : List MapEnt) : Nat → Bytes → Nat → List XOpen → Bool → TokAcc → TokAcc
  | 0, _, o, _, _, a => a.fail o
  | f + 1, b, o, st, seen, a =>
    if a.err.isSome then a
    else if b = [] then (if st ≠ [] ∨ !seen then a.fail o else a)
    else if b.headD 0 ≠ 60 then
      let (raw, rest) := b.span (· ≠ 60)
      if st = [] then (if raw.all isWs then xmlGo ents f rest (o + raw.length) st seen a else a.fail o)
      else match decodeXml false (raw.length + 1) raw with
        | none => a.fail o
        | some t => let (st, a) := xmlText ents st t o a; xmlGo ents f rest (o + raw.length) st seen a
    else if (bytesOf [60, 33, 45, 45]).isPrefixOf b then
      match cutAt [45, 45] (b.length + 1) [] (b.drop 4) with
      | some (t, rest) => if rest.headD 0 = 62 then xmlGo ents f (rest.drop 1) (o + t.length + 7) st seen a else a.fail o
      | none => a.fail o
    else if (bytesOf [60, 63]).isPrefixOf b then
      match cutAt [63, 62] (b.length + 1) [] (b.drop 2) with
      | some (t, rest) =>
        let name := t.takeWhile nameChar
        if !nameStart (name.headD 0) ∨ ((name.map fun c => if c.toNat < 97 then c + 32 else c) = bytesOf [120, 109, 108] ∧ o ≠ 0) then a.fail o
        else xmlGo ents f rest (o + t.length + 4) st seen a
      | none => a.fail o
    else if (bytesOf [60, 33, 91, 67, 68, 65, 84, 65, 91]).isPrefixOf b then
      match cutAt [93, 93, 62] (b.length + 1) [] (b.drop 9) with
      | some (t, rest) =>
        if !t.all xmlByte then a.fail o
        else let (st, a) := xmlText ents st (cdataText t) (o + 9) a; xmlGo ents f rest (o + t.length + 12) st seen a
      | none => a.fail o
    else if (bytesOf [60, 33]).isPrefixOf b then a.fail o
    else if (bytesOf [60, 47]).isPrefixOf b then
      let (name, r) := (b.drop 2).span nameChar
      let (w, r) := r.span isWs
      match st, r with
      | x :: st', 62 :: rest =>
        if x.name ≠ name then a.fail o
        else
          let a := endSealed ents x.sealed x.text o (a.push 5 st.length [] o none)
          xmlGo ents f rest (o + 3 + name.length + w.length) st' true a
      | _, _ => a.fail o
    else
      let (name, r) := (b.drop 1).span nameChar
      if !nameStart (name.headD 0) ∨ (st = [] ∧ seen) then a.fail o
      else match xmlAttrs (r.length + 1) r (o + 1 + name.length) [] with
        | none => a.fail o
        | some (attrs, rest, o2) =>
          let d := st.length + 1
          let x : XOpen := { name := name, start := a.n, sealed := sealedName ents (localName name), text := [] }
          let a := a.push 1 d name (o + 1) none
          let a := attrs.foldl (fun a t => (a.push 2 d t.1 t.2.2.1 none).push 3 d t.2.1 t.2.2.2 none) a
          match rest with
          | 62 :: rest => xmlGo ents f rest (o2 + 1) (x :: st) true a
          | 47 :: 62 :: rest => xmlGo ents f rest (o2 + 2) st true (endSealed ents x.sealed [] o (a.push 5 d [] o2 none))
          | _ => a.fail o2
/-- The tokens of a document and the error that ends them. -/
def xmlTokens (ents : List MapEnt) (msg : Bytes) : TokAcc :=
  let a0 : TokAcc := { toks := [], n := 0, err := none }
  let bom := (bytesOf [0xEF, 0xBB, 0xBF]).isPrefixOf msg
  let a := if (utf8Points msg).isNone then a0.fail 0
    else if bom then xmlGo ents (msg.length + 1) (msg.drop 3) 3 [] false a0
    else xmlGo ents (msg.length + 1) msg 0 [] false a0
  { a with toks := a.toks.reverse }

/-! ## JSON -/

/-- A JSON string after its opening quote: decoded, and what follows the closing quote. -/
def jsonString : Nat → Bytes → Bytes → Option (Bytes × Bytes)
  | 0, _, _ => none
  | _, _, [] => none
  | f + 1, acc, b :: r =>
    if b = 34 then some (acc, r)
    else if b.toNat < 32 then none
    else if b ≠ 92 then jsonString f (acc ++ [b]) r
    else match r with
      | [] => none
      | e :: r2 =>
        let one := fun (n : Nat) => jsonString f (acc ++ [BitVec.ofNat 8 n]) r2
        match e.toNat with
        | 34 => one 34 | 92 => one 92 | 47 => one 47 | 98 => one 8 | 102 => one 12 | 110 => one 10 | 114 => one 13 | 116 => one 9
        | 117 =>
          match (if 4 ≤ r2.length then refNum 16 (r2.take 4) else none) with
          | none => none
          | some h =>
            if 0xD800 ≤ h ∧ h < 0xDC00 then
              match r2.drop 4 with
              | 92 :: 117 :: r3 =>
                match (if 4 ≤ r3.length then refNum 16 (r3.take 4) else none) with
                | some l =>
                  if 0xDC00 ≤ l ∧ l < 0xE000 then
                    jsonString f (acc ++ utf8Enc (0x10000 + (h - 0xD800) * 1024 + (l - 0xDC00))) (r3.drop 4)
                  else none
                | none => none
              | _ => none
            else if 0xDC00 ≤ h ∧ h < 0xE000 then none
            else jsonString f (acc ++ utf8Enc h) (r2.drop 4)
        | _ => none
def isDecDigit (b : Byte) : Bool := 48 ≤ b.toNat && b.toNat ≤ 57
/-- The form of a number. -/
def jsonNumber (t : Bytes) : Bool :=
  let t := if t.headD 0 = 45 then t.drop 1 else t
  let (whole, r) := t.span isDecDigit
  let r2 := if r.headD 0 = 46 then (r.drop 1).dropWhile isDecDigit else r
  let fracOk := r.headD 0 ≠ 46 || isDecDigit ((r.drop 1).headD 0)
  let expOk := match r2 with
    | [] => true
    | e :: r3 =>
      let r3 := if r3.headD 0 = 43 ∨ r3.headD 0 = 45 then r3.drop 1 else r3
      (e == 101 || e == 69) && !r3.isEmpty && r3.all isDecDigit
  !whole.isEmpty && (whole.length == 1 || whole.headD 0 != 48) && fracOk && expOk
/-- What may come next: a value, a value or the end of an array, a member or the end of an object, a member, a comma or
the end of the container. -/
inductive JExp where
  | value | valueOrEnd | memberOrEnd | member | after
  deriving DecidableEq, Repr
/-- `st`: the open containers, true an object; `own`: the sealed member that the next value belongs to. -/
def jsonGo (ents : List MapEnt) : Nat → Bytes → Nat → List Bool → JExp → Option (Nat × Nat) → TokAcc → TokAcc
  | 0, _, o, _, _, _, a => a.fail o
  | f + 1, b, o, st, ex, own, a =>
    if a.err.isSome then a else
    match b with
    | [] => if st = [] ∧ ex = .after then a else a.fail o
    | c :: r =>
      if isWs c then jsonGo ents f r (o + 1) st ex own a
      else
        let d := st.length
        let isVal := ex == .value || ex == .valueOrEnd
        match c.toNat with
        | 123 => if isVal then jsonGo ents f r (o + 1) (true :: st) .memberOrEnd none (a.push 0x11 (d + 1) [] o none) else a.fail o
        | 91 => if isVal then jsonGo ents f r (o + 1) (false :: st) .valueOrEnd none (a.push 0x13 (d + 1) [] o none) else a.fail o
        | 125 =>
          if (ex = .after ∨ ex = .memberOrEnd) ∧ st.head? = some true then
            jsonGo ents f r (o + 1) (st.drop 1) .after none (a.push 0x12 d [] o none)
          else a.fail o
        | 93 =>
          if (ex = .after ∨ ex = .valueOrEnd) ∧ st.head? = some false then
            jsonGo ents f r (o + 1) (st.drop 1) .after none (a.push 0x14 d [] o none)
          else a.fail o
        | 44 =>
          if ex = .after ∧ st ≠ [] then jsonGo ents f r (o + 1) st (if st.headD false then .member else .value) none a else a.fail o
        | 34 =>
          match jsonString (r.length + 1) [] r with
          | none => a.fail o
          | some (t, rest) =>
            let o2 := o + (b.length - rest.length)
            if ex = .member ∨ ex = .memberOrEnd then
              let (w, r2) := rest.span isWs
              let own := (sealedName ents t).map fun i => (a.n, i)
              match r2 with
              | 58 :: r3 => jsonGo ents f r3 (o2 + w.length + 1) st .value own (a.push 0x15 d t (o + 1) none)
              | _ => a.fail o2
            else if isVal then
              jsonGo ents f rest o2 st .after none (endSealed ents (own.map (·.2)) t o (a.push 0x16 d t (o + 1) own))
            else a.fail o
        | _ =>
          if !isVal then a.fail o
          else if isDecDigit c ∨ c = 45 then
            let (t, rest) := b.span fun x => isDecDigit x || x == 45 || x == 43 || x == 46 || x == 101 || x == 69
            if jsonNumber t then
              jsonGo ents f rest (o + t.length) st .after none (endSealed ents (own.map (·.2)) t o (a.push 0x17 d t o own))
            else a.fail o
          else if (bytesOf [116, 114, 117, 101]).isPrefixOf b then jsonGo ents f (b.drop 4) (o + 4) st .after none (a.push 0x18 d [] o none)
          else if (bytesOf [102, 97, 108, 115, 101]).isPrefixOf b then jsonGo ents f (b.drop 5) (o + 5) st .after none (a.push 0x19 d [] o none)
          else if (bytesOf [110, 117, 108, 108]).isPrefixOf b then jsonGo ents f (b.drop 4) (o + 4) st .after none (a.push 0x1A d [] o none)
          else a.fail o
def jsonTokens (ents : List MapEnt) (msg : Bytes) : TokAcc :=
  let a0 : TokAcc := { toks := [], n := 0, err := none }
  let a := if (utf8Points msg).isNone then a0.fail 0 else jsonGo ents (msg.length + 1) msg 0 [] .value none a0
  { a with toks := a.toks.reverse }

/-- The tokens of a message; a required name that no element or member has is an error after the last (R390, R396). -/
def tokensOf (m : FMapHdr) (msg : Bytes) : TokAcc :=
  let a := if m.format = 3 then xmlTokens m.ents msg else jsonTokens m.ents msg
  let has := fun (e : MapEnt) => a.toks.any fun t => (t.ty == 1 && localName t.data == e.name) || (t.ty == 0x15 && t.data == e.name)
  if a.err.isSome then a
  else match m.ents.findIdx? fun e => e.required && !has e with
    | some i => { a with err := some (4, msg.length, i) }
    | none => a
/-- How many tokens the segment that begins here holds (R395). -/
def segLen : Nat → Nat → List Tok → Nat
  | _, _, [] => 0
  | n, bytes, t :: r => if n = 0 ∨ 65536 < bytes + t.data.length then 0 else 1 + segLen (n - 1) (bytes + t.data.length) r

/-! ## Exclusive canonicalization without comments (R413) -/

/-- An open element: its name, the namespaces in scope and those already written, whether its start tag was written. -/
structure CFrame where
  name : Bytes
  scope : List (Bytes × Bytes)
  written : List (Bytes × Bytes)
  out : Bool
  deriving DecidableEq, Repr
def nsGet (l : List (Bytes × Bytes)) (p : Bytes) : Option Bytes := (l.find? fun x => x.1 = p).map (·.2)
def nsPut (l : List (Bytes × Bytes)) (p u : Bytes) : List (Bytes × Bytes) := (p, u) :: l.filter fun x => x.1 ≠ p
def escXml (attr : Bool) (b : Bytes) : Bytes :=
  b.flatMap fun c => match c.toNat with
    | 38 => bytesOf [38, 97, 109, 112, 59]
    | 60 => bytesOf [38, 108, 116, 59]
    | 62 => if attr then [c] else bytesOf [38, 103, 116, 59]
    | 34 => if attr then bytesOf [38, 113, 117, 111, 116, 59] else [c]
    | 9 => if attr then bytesOf [38, 35, 120, 57, 59] else [c]
    | 10 => if attr then bytesOf [38, 35, 120, 65, 59] else [c]
    | 13 => bytesOf [38, 35, 120, 68, 59]
    | _ => [c]
def bytesLt : Bytes → Bytes → Bool
  | [], [] => false
  | [], _ => true
  | _, [] => false
  | a :: r, b :: t => a.toNat < b.toNat || (a == b && bytesLt r t)
def insertBy {α : Type} (lt : α → α → Bool) (x : α) : List α → List α
  | [] => [x]
  | y :: r => if lt x y then x :: y :: r else y :: insertBy lt x r
def sortBy {α : Type} (lt : α → α → Bool) (l : List α) : List α := l.foldl (fun acc x => insertBy lt x acc) []
def xmlnsName : Bytes := bytesOf [120, 109, 108, 110, 115]
/-- The namespace prefix that an attribute declares. -/
def nsDecl (name : Bytes) : Option Bytes :=
  if name = xmlnsName then some [] else if prefixName name = xmlnsName then some (localName name) else none
def xmlUri : Bytes := bytesOf [104, 116, 116, 112, 58, 47, 47, 119, 119, 119, 46, 119, 51, 46, 111, 114, 103, 47, 88, 77, 76, 47, 49, 57, 57, 56, 47, 110, 97, 109, 101, 115, 112, 97, 99, 101]
def attrText (name value : Bytes) : Bytes := 32 :: name ++ [61, 34] ++ escXml true value ++ [34]
/-- A start tag: its canonical text and its frame. -/
def startTag (up : List CFrame) (name : Bytes) (attrs : List (Bytes × Bytes)) (out : Bool) : Bytes × CFrame :=
  let parent : CFrame := up.headD { name := [], scope := [(bytesOf [120, 109, 108], xmlUri)], written := [], out := false }
  let scope := attrs.foldl (fun sc a => match nsDecl a.1 with | some p => nsPut sc p a.2 | none => sc) parent.scope
  let plain := attrs.filter fun a => (nsDecl a.1).isNone
  let used := (prefixName name :: (plain.map fun a => prefixName a.1).filter (· ≠ [])).eraseDups.filter (· ≠ bytesOf [120, 109, 108])
  let need := used.filter fun p =>
    let u := (nsGet scope p).getD []
    match nsGet parent.written p with
    | some w => w ≠ u
    | none => u ≠ []
  let need := sortBy bytesLt need
  let written := need.foldl (fun w p => nsPut w p ((nsGet scope p).getD [])) parent.written
  let key := fun (a : Bytes × Bytes) => if prefixName a.1 = [] then [] else (nsGet scope (prefixName a.1)).getD []
  let lt := fun (a b : Bytes × Bytes) => bytesLt (key a) (key b) || (key a == key b && bytesLt (localName a.1) (localName b.1))
  let text := 60 :: name ++ (need.flatMap fun p =>
      attrText (if p = [] then xmlnsName else xmlnsName ++ [58] ++ p) ((nsGet scope p).getD [])) ++
    ((sortBy lt plain).flatMap fun a => attrText a.1 a.2) ++ [62]
  (if out then text else [], { name := name, scope := scope, written := if out then written else parent.written, out := out })
/-- The walk: open elements, a start tag whose attributes may go on, an attribute name whose value follows. -/
structure CState where
  up : List CFrame
  tag : Option (Bytes × Bool)
  attrs : List (Bytes × Bytes)
  attr : Bytes
  text : Bytes
  deriving DecidableEq, Repr
def CState.flush (c : CState) : CState :=
  match c.tag with
  | none => c
  | some (name, out) =>
    let (t, fr) := startTag c.up name c.attrs out
    { c with up := fr :: c.up, tag := none, attrs := [], text := c.text ++ t }
/-- One token; `out`: it lies in the range. -/
def CState.token (c : CState) (t : Tok) (out : Bool) : CState :=
  match t.ty with
  | 1 => { c.flush with tag := some (t.data, out) }
  | 2 => { c with attr := t.data }
  | 3 => { c with attrs := c.attrs ++ [(c.attr, t.data)] }
  | 4 => let c := c.flush; { c with text := if out then c.text ++ escXml false t.data else c.text }
  | 5 =>
    let c := c.flush
    match c.up with
    | fr :: up => { c with up := up, text := if out && fr.out then c.text ++ bytesOf [60, 47] ++ fr.name ++ [62] else c.text }
    | [] => c
  | _ => c
/-- The canonical text of the tokens from `a` up to, but not including, `b`. -/
def canonText (toks : List Tok) (a b : Nat) : Bytes :=
  let c0 : CState := { up := [], tag := none, attrs := [], attr := [], text := [] }
  let c := ((toks.take b).zipIdx).foldl (fun c (p : Tok × Nat) => c.token p.1 (decide (a ≤ p.2))) c0
  let more := match toks[b]? with | some t => t.ty == 2 || t.ty == 3 | none => false
  (if more then c else c.flush).text

end Sys2Proof.Machine
end

