-- ==== Sys2Proof/Machine/SeqLocal.lean ====
section
/-!
DEFINITION. The local space of a Plaiter sequencer (13/R403, R404) as its loads and stores see it, the doors and their
operations (13/R407-R414), and the segments of a message (13/R395, R412).
-/
namespace Sys2Proof.Machine

/-- How an access to the local space ends. -/
inductive LocalRes where
  | val (s : State) (v : Nat)
  | busyDoor (s : State)
  | stall (s : State)
  | fault (s : State) (code : Nat)

def State.jobMsg (s : State) (u k : Nat) : Nat × Nat := (((s.job u k).words.getD 1 0).toNat, fld ((s.job u k).words.getD 2 0) 63 32)
/-- A shared access of a sealed program falls in the message (13/R415). -/
def State.sealedHit (s : State) (i ea size : Nat) : Bool :=
  isPlaiter i && s.hasJob (unitOf i) (seqLane i) &&
    (let (m, n) := s.jobMsg (unitOf i) (seqLane i); decide (ea < m + n) && decide (m < ea + size))

/-! ## The parse of a job's message -/

/-- The image entry of a job, and its field map. -/
def State.jobEntry (s : State) (u k : Nat) : Option W64 :=
  ((s.unit u).img.bind fun i => i.entries[fld ((s.job u k).words.getD 0 0) 63 56]?).bind fun e => if tbit e 63 then some e else none
def State.jobMap (s : State) (u : Nat) (e : W64) : FMapHdr :=
  match (s.unit u).img with
  | some i => mapAt i.maps (fld e 47 32)
  | none => { format := 0, mtiCs := 0, bitmap := 0, tertiary := false, ents := [] }
/-- The creel of a unit. -/
def State.unitCr (s : State) (u : Nat) : Nat := s.unitCreel.get 64 u

/-- A parse error ends the job with 0x0210 and its detail (R396); a seal that finds no room with 0x0401 (R398). -/
def jobFailed (status : Nat) (detail : Nat) : JobEnd :=
  { status := status, fault := 0, pc := 0, result := 0, outLen := 0, detail := w64 detail }
def errDetail (e : PErr) : Nat := e.1 % 65536 * 2 ^ 48 + e.2.1 % 2 ^ 32 * 2 ^ 16 + e.2.2 % 65536

/-- A sealed field of a job in the buffer: its handle. -/
def State.sealField (s : State) (u k : Nat) (b : Bytes) : Option (State × Nat) :=
  (s.sealPut (some (4 * u + k)) (s.unitCr u) b false).map fun (t, h) =>
    (t.modJob u k fun j => { j with seals := j.seals ++ [h] }, h)
/-- A field-table entry. -/
def fldOf (id : Nat) (sealed container : Bool) (parent len handle off : Nat) : Fld :=
  { w0 := w64 (id % 2 ^ 24 * 2 ^ 40 + 2 ^ 39 + b2n sealed * 2 ^ 38 + b2n container * 2 ^ 37 + parent % 65536 * 2 ^ 16 + len % 65536),
    w1 := w64 (handle % 2 ^ 32 * 2 ^ 32 + off % 2 ^ 32) }
/-- The entries found, in order, each sealed one with its handle; none: no room. -/
def State.sealEnts (s : State) (u k : Nat) : List PEnt → FMap Fld → Option (State × FMap Fld)
  | [], m => some (s, m)
  | p :: r, m =>
    match p.secret with
    | none => s.sealEnts u k r (m.set p.ix (fldOf p.id false p.container p.parent p.len 0 p.off))
    | some b =>
      match s.sealField u k b with
      | none => none
      | some (s, h) => s.sealEnts u k r (m.set p.ix (fldOf p.id true false p.parent p.len h p.off))
def tableOf (m : FMap Fld) : List Fld :=
  (List.range ((m.getLast?.map (·.1 + 1)).getD 0)).map fun i => m.get { w0 := 0, w1 := 0 } i

/-- The tokens of a segment become entries; sealed text takes one handle by element or member (R395). -/
def State.sealToks (s : State) (u k : Nat) (all : List Tok) (ents : List MapEnt) :
    List Tok → Nat → List Fld → Bytes → Option (State × List Fld × Bytes)
  | [], _, fl, tx => some (s, fl, tx)
  | t :: r, off, fl, tx =>
    let idf := t.ty % 256 * 2 ^ 16 + t.depth % 65536
    match t.own with
    | none => s.sealToks u k all ents r (off + t.data.length) (fl ++ [fldOf idf false false 0xFFFF t.data.length 0 off]) (tx ++ t.data)
    | some (el, i) =>
      let got := if (s.job u k).sealMap.has el then some (s, (s.job u k).sealMap.get 0 el)
        else
          let b := (all.filter fun x => x.own == some (el, i)).flatMap (·.data)
          (s.sealField u k (sealContent ((ents[i]?.map (·.dataCs)).getD 0) false b)).map fun (t, h) =>
            (t.modJob u k fun j => { j with sealMap := j.sealMap.set el h }, h)
      match got with
      | none => none
      | some (s, h) =>
        s.sealToks u k all ents r (off + t.data.length) (fl ++ [fldOf idf true false 0xFFFF t.data.length h off])
          (tx ++ zeros t.data.length)
/-- The segment that begins at a token becomes current; the error that ends the tokens counts when it lies in it. -/
def State.loadSegment (s : State) (u k at_ : Nat) (ents : List MapEnt) : Sum (State × JobEnd) State :=
  let j := s.job u k
  let rest := j.toks.drop at_
  let n := segLen 2048 0 rest
  match (if rest.length ≤ n then j.perr else none) with
  | some e => .inl (s, jobFailed 0x0210 (errDetail e))
  | none =>
    match s.sealToks u k j.toks ents (rest.take n) 0 [] [] with
    | none => .inl (s, jobFailed 0x0401 0)
    | some (s, fl, tx) =>
      .inr (s.modJob u k fun j => { j with flds := fl, text := tx, off := (rest.head?.map (·.off)).getD 0, tokAt := at_ })

/-- The parse of the whole message (R392-R396): field table, window, presence mask, seals. -/
def State.extract (s : State) (u k : Nat) (e : W64) : Sum (State × JobEnd) State :=
  let m := s.jobMap u e
  let msg := (s.job u k).msg
  let put := fun (acc : PAcc) (mask : List W64) =>
    match s.sealEnts u k acc.ents [] with
    | none => (Sum.inl (s, jobFailed 0x0401 0) : Sum (State × JobEnd) State)
    | some (s, fm) => .inr (s.modJob u k fun j => { j with flds := tableOf fm, text := windowOf acc.zero msg, mask := mask })
  match fld e 55 48 with
  | 0 => .inr (s.modJob u k fun j => { j with text := msg })
  | 1 => match isoParse m msg with
    | .inl x => .inl (s, jobFailed 0x0210 (errDetail x))
    | .inr (acc, all) => put acc (presenceMask all)
  | 2 => match tlvParse m msg with
    | .inl x => .inl (s, jobFailed 0x0210 (errDetail x))
    | .inr acc => put acc []
  | _ =>
    let a := tokensOf m msg
    (s.modJob u k fun j => { j with toks := a.toks, perr := a.err }).loadSegment u k 0 m.ents

/-! ## Door operations (R408-R413) -/

/-- A result: status and count (R407). -/
def doorResult (status count : Nat) : W64 := w64 (status % 65536 + count % 2 ^ 48 * 65536)
def State.paramWord (s : State) (u k p i : Nat) : W64 := w64 (leNat (s.localBytes u k .data (p + 8 * i) 8))
/-- CONVERT (R409). A charset that R409 does not name is refused as a reserved value (log entry 19). -/
def State.doorConvert (s : State) (u k p : Nat) : State × W64 :=
  let w0 := s.paramWord u k p 0
  let src := (s.paramWord u k p 1).toNat
  let dst := (s.paramWord u k p 2).toNat
  let cap := (s.paramWord u k p 3).toNat
  let n := fld w0 31 0
  if !charsetOk (fld w0 63 60) || !charsetOk (fld w0 59 56) then (s, doorResult 0x0203 0)
  else if !localReadable src n || !localWritable dst cap then (s, doorResult 0x0109 0)
  else match convertText (fld w0 63 60) (fld w0 59 56) (tbit w0 55) (s.localRead u k src n) with
    | .inl st => (s, doorResult st 0)
    | .inr b => if cap < b.length then (s, doorResult 0x0202 0) else (s.localWrite u k dst b, doorResult 0 b.length)
/-- DECIMAL (R410). -/
def State.doorDecimal (s : State) (u k p : Nat) : State × W64 :=
  let w0 := s.paramWord u k p 0
  let src := (s.paramWord u k p 1).toNat
  let dst := (s.paramWord u k p 2).toNat
  let cs := fld w0 59 56
  let n := fld w0 31 16
  let conv := fld w0 47 40
  let exp := signed 8 (fld w0 55 48)
  let len := decimalLen cs n
  if 1 < fld w0 63 60 ∨ !(charsetOk cs || cs == 4) ∨ 2 < conv then (s, doorResult 0x0203 0)
  else if fld w0 63 60 = 0 then
    if !localReadable src len || !localWritable dst 48 then (s, doorResult 0x0109 0)
    else match parseDecimal conv exp (decimalChars cs n (s.localRead u k src len)) with
      | none => (s, doorResult 0x0207 0)
      | some (neg, c, e) => (s.localWrite u k dst (valueBlock neg c e), doorResult 0 0)
  else if !localReadable src 48 || !localWritable dst len then (s, doorResult 0x0109 0)
  else match formatDecimal cs conv n exp (s.localRead u k src 48) with
    | none => (s, doorResult 0x0207 0)
    | some b => (s.localWrite u k dst b, doorResult 0 0)
/-- EMIT (R411): the seal router writes the content; it never passes through the sequencer. -/
def State.doorEmit (s : State) (u k p : Nat) : State × W64 :=
  let w0 := s.paramWord u k p 0
  let dst := (s.paramWord u k p 1).toNat
  let cap := fld (s.paramWord u k p 2) 31 0
  let cr := s.unitCr u
  match s.sealOf (some (4 * u + k)) cr (fld w0 31 0) with
  | none => (s, doorResult 0x0108 0)
  | some e =>
    if !e.emittable then (s, doorResult 0x0108 0)
    else if 4 < fld w0 35 32 then (s, doorResult 0x0203 0)
    else if !(if localBase ≤ dst then localWritable (dst - localBase) cap else cap == 0 || s.dmaOk cr dst cap true) then
      (s, doorResult 0x0109 0)
    else match emitText (fld w0 35 32) e.bytes with
      | none => (s, doorResult 0x0204 0)
      | some b =>
        if cap < b.length then (s, doorResult 0x0202 0)
        else (if localBase ≤ dst then s.localWrite u k (dst - localBase) b else s.unitWrite cr dst b, doorResult 0 b.length)
/-- NEXT (R412): the next segment, or 0x0001 at the last; an error found in it ends the job. -/
def State.doorNext (s : State) (u k : Nat) : State × W64 :=
  let j := s.job u k
  if j.toks.length ≤ j.tokAt + j.flds.length then (s, doorResult 1 0)
  else
    let ents := match s.jobEntry u k with | some e => (s.jobMap u e).ents | none => []
    match s.loadSegment u k (j.tokAt + j.flds.length) ents with
    | .inl (t, je) => (t.modJob u k fun j => { j with ending := some je }, 0)
    | .inr t =>
      let t := t.modJob u k fun x => { x with segNo := j.segNo + 1 }
      (t, doorResult 0 (t.job u k).flds.length)
/-- CANON (R413). -/
def State.doorCanon (s : State) (u k p : Nat) : State × W64 :=
  let j := s.job u k
  let w0 := s.paramWord u k p 0
  let a := j.tokAt + fld w0 15 0
  let b := j.tokAt + fld w0 31 16 + 1
  let dst := (s.paramWord u k p 1).toNat
  let cap := (s.paramWord u k p 2).toNat
  let xml := match s.jobEntry u k with | some e => fld e 55 48 == 3 | none => false
  if !xml ∨ b ≤ a ∨ j.tokAt + j.flds.length < b then (s, doorResult 0x0204 0)
  else if !localWritable dst cap then (s, doorResult 0x0109 0)
  else if ((j.toks.drop a).take (b - a)).any fun t => t.own.isSome then (s, doorResult 0x0208 0)
  else
    let start := match j.canon with | some (c, e) => if e = a then c else a | none => a
    let before := if start = a then [] else canonText j.toks start a
    let out := (canonText j.toks start b).drop before.length
    if cap < out.length then (s, doorResult 0x0202 0)
    else ((s.localWrite u k dst out).modJob u k fun j => { j with canon := some (start, b) }, doorResult 0 out.length)
/-- CALL (R408): the descriptor becomes a Hamper command of the unit's vault port. -/
def State.doorCall (s : State) (u k p dest : Nat) : State × Nat :=
  let j := s.job u k
  let id := s.vault.nextId
  let c : HCmd := { id := id, origin := .plaiter u k dest, creel := s.unitCr u, index := j.calls,
                    words := (List.range 16).map (s.paramWord u k p), since := s.clock, taken := false, live := false, yielded := false, lost := false, out := none }
  (((s.modVault fun v => { v with nextId := id + 1, active := v.active ++ [c] })).modJob u k fun j => { j with calls := j.calls + 1 }, id)

/-- A door load: at most four operations outstanding; the destination's scoreboard bit is set until the operation
completes (R407; a destination g0 has none). -/
def State.doorLoad (s : State) (i ea dest : Nat) : LocalRes :=
  let u := unitOf i
  let k := seqLane i
  let door := ea / 0x10000
  let p := ea % 0x10000
  let align := if door = 8 then 128 else 8
  if door = 0xF ∨ (door = 0xC ∧ p ≠ 0) ∨ p % align ≠ 0 then .fault s 0x20
  else if 4 ≤ (s.job u k).ops.length then .stall s
  else
    let (s, op) : State × DoorOp :=
      if door = 8 then
        let (s, id) := s.doorCall u k p dest
        (s, { dest := dest, call := some id, p := p, result := none })
      else
        let (s, r) := if door ≠ 0xC ∧ 0x10000 < p + (if door = 9 then 32 else 24) then (s, doorResult 0x0109 0)
          else if door = 9 then s.doorConvert u k p else if door = 0xA then s.doorDecimal u k p
          else if door = 0xB then s.doorEmit u k p else if door = 0xC then s.doorNext u k else s.doorCanon u k p
        (s, { dest := dest, call := none, p := p, result := some r })
    if (s.job u k).ending.isSome then .fault s 0 else
    let s := s.modJob u k fun j => { j with ops := j.ops ++ [op] }
    .busyDoor (if dest = 0 then s else s.modSeq i fun z => { z with busy := z.busy ++ [dest] })

def inDoor (ea : Nat) : Bool := (0x80000 ≤ ea && ea < 0xE0000) || (0xF0000 ≤ ea && ea < 0x100000)
/-- The local space of the Stake: its ROM of 512 KiB, then its SRAM of 4 MiB, which alone can be written (10/R273; log entry 140). -/
def State.stakeByte (s : State) (a : Nat) : Byte := if a < 0x80000 then Config.romByte a else s.stake.sram.get 0 a
def State.stakeLoad (s : State) (ea size : Nat) : LocalRes :=
  if ea + size ≤ 0x480000 then .val s (leNat ((upto ea size).map s.stakeByte)) else .fault s 6
def State.stakeStore (s : State) (ea : Nat) (b : Bytes) : LocalRes :=
  if 0x80000 ≤ ea ∧ ea + b.length ≤ 0x480000 then
    .val (s.modStake fun m => { m with sram := dataWrite m.sram ea b }) 0
  else .fault s 7
/-- A load from the local space; a door answers only LDD, a signed load of 8 bytes. -/
def State.localLoad (s : State) (i ea size : Nat) (dest : LoadDest) : LocalRes :=
  let u := unitOf i
  let k := seqLane i
  if i = 86 then s.stakeLoad ea size
  else if !isPlaiter i ∨ !s.hasJob u k then .fault s 6
  else match localRegion ea size with
    | some (r, o) => .val s (leNat (s.localBytes u k r o size))
    | none =>
      if !inDoor ea then .fault s 6
      else match dest with
        | .reg d 8 _ => s.doorLoad i ea d
        | _ => .fault s 0x20
/-- A store to the local space: local data, or the END door by STP (R414). -/
def State.localStore (s : State) (i ea : Nat) (b : Bytes) : LocalRes :=
  let u := unitOf i
  let k := seqLane i
  if i = 86 then s.stakeStore ea b
  else if !isPlaiter i ∨ !s.hasJob u k then .fault s 7
  else match localRegion ea b.length with
    | some (.data, o) => .val (s.localWrite u k o b) 0
    | some _ => .fault s 7
    | none =>
      if !inDoor ea then .fault s 7
      else if ea = 0xF0000 ∧ b.length = 16 then
        .fault (s.modJob u k fun j =>
          if j.ending.isSome then j
          else { j with ending := some { status := 0, fault := 0, pc := (s.seq i).x.pc.toNat % 65536, result := leNat (b.take 4), outLen := leNat (b.drop 8), detail := 0 } }) 0
      else .fault s 0x20

end Sys2Proof.Machine
end

