-- ==== Sys2Proof/Machine/Hub.lean ====
section
/-!
DEFINITION. The registers of hub space (01/R27), of the lane groups' own pages and of the line-port block, as an access that
has passed its segment check reaches them (00/R8-R12, 16/R470).
-/
namespace Sys2Proof.Machine

/-- HR_RING, HR_CQ, HR_CTRL, HR_CQ_CONS, HR_STATUS and HR_STATE (12/R339), which PQ pages share (13/R378). -/
def ringPageRead (r : Ring) (inFlight off : Nat) : W64 :=
  match off with
  | 0x00 => r.ring
  | 0x08 => r.cq
  | 0x10 => r.ctl
  | 0x20 => w64 r.cons
  | 0x28 => r.status
  | 0x30 => r.state inFlight
  | _ => 0
def State.hrWrite (s : State) (r off : Nat) (v : W64) : State :=
  match off with
  | 0x00 => s.hrBase r false v
  | 0x08 => s.hrBase r true v
  | 0x10 => s.hrCtrl r v
  | 0x18 => s.hrDoorbell r v
  | 0x20 => s.hrCqCons r v
  | _ => s
def State.pqWrite (s : State) (q off : Nat) (v : W64) : State :=
  match off with
  | 0x00 => s.pqBase q false v
  | 0x08 => s.pqBase q true v
  | 0x10 => s.pqCtrl q v
  | 0x18 => s.pqDoorbell q v
  | 0x20 => s.pqCqCons q v
  | 0x38 => s.pqTrace q v
  | _ => s
def State.pqRead (s : State) (q off : Nat) : W64 :=
  if off = 0x38 then (s.pq q).trace else ringPageRead (s.pq q).ring (s.pqInFlight q) off

/-- Hub space, by block and page. -/
def State.hubRead (s : State) (core : Option Nat) (a : Nat) : State × W64 :=
  let pg := a % 0x1000000 / 4096
  let off := a % 4096
  if a < 0xFF00001000000 then (if a < 0xFF00000001000 then s.hoopPageRead off else (s, 0))
  else if a < 0xFF00002000000 then (s, if pg < 64 then s.irRead core pg off else 0)
  else if a < 0xFF00100000000 then (s, s.mbxRead ((a - 0xFF00010000000) / 4096) off)
  else if a < 0xFF00200000000 then (s, ringPageRead (s.hring ((a - 0xFF00100000000) / 4096)) (s.hInFlight ((a - 0xFF00100000000) / 4096)) off)
  else if a < 0xFF00300000000 then (s, s.pqRead ((a - 0xFF00200000000) / 4096) off)
  else if a < 0xFF00400000000 then (s, if pg < 64 then s.ebRead pg off else 0)
  else (s, if pg < 64 then s.ucRead pg off else 0)
def State.hubWriteReg (s : State) (core : Option Nat) (a : Nat) (v : W64) : State :=
  let pg := a % 0x1000000 / 4096
  let off := a % 4096
  if a < 0xFF00001000000 then s
  else if a < 0xFF00002000000 then (if pg < 64 then s.irWrite core pg off v else s)
  else if a < 0xFF00100000000 then s.mbxWrite ((a - 0xFF00010000000) / 4096) off v
  else if a < 0xFF00200000000 then s.hrWrite ((a - 0xFF00100000000) / 4096) off v
  else if a < 0xFF00300000000 then s.pqWrite ((a - 0xFF00200000000) / 4096) off v
  else if a < 0xFF00400000000 then (if pg < 64 then s.ebWrite pg off v else s)
  else (if pg < 64 then s.ucWrite pg off v else s)

/-- The pages a lane group serves itself: the control page, then the function pages (16/R469). -/
def State.lanePageRead (s : State) (lg off : Nat) : W64 :=
  let v := (off - 0x10000000) / 4096
  let o := off % 4096
  if v = 0 then s.lgcRead lg o
  else if s.hostMode lg then hfRead (s.hf (lg - 8) v) o
  else 0
def State.lanePageWrite (s : State) (lg off : Nat) (w : W64) : State :=
  let v := (off - 0x10000000) / 4096
  let o := off % 4096
  if v = 0 then s.lgcWrite lg o w
  else if s.hostMode lg then s.modHf (lg - 8) v fun f => hfWrite f o w
  else s

/-- A read: an aligned access of another width than the register's 64 bits returns zero (00/R12). -/
def State.regRead (s : State) (core : Option Nat) (_cr pa size : Nat) : State × Nat :=
  if size ≠ 8 ∨ pa % 8 ≠ 0 then (s, 0)
  else match s.region pa with
    | .hub => let (s, v) := s.hubRead core pa; (s, v.toNat)
    | .lineBlock off => (s, (s.lineRead off).toNat)
    | .window lg off => (s, if fixedStrict off then (s.lanePageRead lg off).toNat else 0)
    | _ => (s, 0)
def State.regWrite (s : State) (core : Option Nat) (_cr pa size v : Nat) : State :=
  if size ≠ 8 ∨ pa % 8 ≠ 0 then s
  else match s.region pa with
    | .hub => s.hubWriteReg core pa (w64 v)
    | .lineBlock off => s.lineWrite off (w64 v)
    | .window lg off => if fixedStrict off then s.lanePageWrite lg off (w64 v) else s
    | _ => s
/-- REGISTER_WRITE: a write by a core of the creel, or for the creel, after its segment check (09/R258, R259). An unaligned one of
a core raises ALIGNMENT (00/R12, 03/R76); of a hub unit, which makes none, it is discarded. -/
def execRegisterWrite (core : Option CoreId) (cr : CreelId) (pa : W64) (size : Fin 9) (v : W64) (s : State) : Out :=
  let n := core.map (·.val)
  let mine : Bool := match core with | some c => s.creelOf c == some cr.val | none => true
  if mine ∧ s.segOk cr pa.toNat { r := false, w := true, x := false, dma := false } then
    match core with
    | some c =>
      if size.val ≠ 0 ∧ pa.toNat % size.val ≠ 0 then .next (s.takeExc c 8 (some pa) (einfoOf false (log2Size size) 0 4))
      else .next (s.regWrite n cr pa.toNat size.val v.toNat)
    | none => .next (s.regWrite n cr pa.toNat size.val v.toNat)
  else .next s

end Sys2Proof.Machine
end

