-- ==== Sys2Proof/Machine/Operands.lean ====
section
/-!
DEFINITION. The operand forms of MIS-3 (02/R36, R48, R49, R56, R58, R61, R64-R66, R73) as operations on a context, and
the branch target checks (02/R68).
-/
namespace Sys2Proof.Machine

/-- Format A with two sources: g[d] = f(g[s1], g[s2]) (02/R47). -/
def form3 (a : Agent) (q : PReg) (d s1 s2 : Reg) (coreOnly : Bool) (evs : List (Nat × Nat)) (beats : Nat)
    (f : W64 → W64 → W64) (s : State) (legal : Bool := true) : Out :=
  runInstr { agent := a, guard := q, coreOnly := coreOnly, legal := legal, reads := [s1.toNat, s2.toNat],
             writes := [d.toNat], events := evs, beats := beats }
    (fun s x => .done (s.wrG a d.toNat (f (x.rd s1.toNat) (x.rd s2.toNat))) []) s
/-- A unary instruction of format A (02/R48). -/
def form2 (a : Agent) (q : PReg) (d s1 : Reg) (f : W64 → W64) (s : State) : Out :=
  runInstr { agent := a, guard := q, reads := [s1.toNat], writes := [d.toNat] }
    (fun s x => .done (s.wrG a d.toNat (f (x.rd s1.toNat))) []) s
/-- Format I with a sign-extended immediate (02/R56). -/
def formI (a : Agent) (q : PReg) (d s1 : Reg) (imm : BitVec 9) (f : W64 → W64 → W64) (s : State) : Out :=
  form2 a q d s1 (fun v => f v (imm.signExtend 64)) s
/-- Format I with a shift amount (02/R57). -/
def formSh (a : Agent) (q : PReg) (d s1 : Reg) (n : BitVec 6) (f : W64 → Nat → W64) (s : State) : Out :=
  form2 a q d s1 (fun v => f v n.toNat) s

/-- The predicates a compare or a predicate-logic instruction writes: the condition to pt, its complement to pf; naming
one register other than p0 in both is no encoding (02/R61, R62). -/
def writePt (s : State) (a : Agent) (pt pf : PReg) (cond : Bool) : State :=
  s.modCtx a fun x => (x.wrp pt.toNat cond).wrp pf.toNat (!cond)
def formC (a : Agent) (q pt pf : PReg) (s1 s2 : Reg) (cond : W64 → W64 → Bool) (s : State) : Out :=
  runInstr { agent := a, guard := q, legal := !(pt == pf && pt != 0), reads := [s1.toNat, s2.toNat] }
    (fun s x => .done (writePt s a pt pf (cond (x.rd s1.toNat) (x.rd s2.toNat))) []) s
def formP (a : Agent) (q pt pf pa pb : PReg) (f : Bool → Bool → Bool) (s : State) : Out :=
  runInstr { agent := a, guard := q, legal := !(pt == pf && pt != 0) }
    (fun s x => .done (writePt s a pt pf (f (x.rdp pa.toNat) (x.rdp pb.toNat))) []) s

/-! ## Branches -/

/-- The fetchable range: on a core the canonical addresses of the width in force, on a sequencer its instruction
memory (02/R68). -/
def State.fetchable (s : State) (a : Agent) (t : W64) : Bool :=
  match a with
  | .core n => canonical (vaWidth ((s.core n).sysr 0x22)) t
  | .seq q => decide (t.toNat < seqImemSize (seqIx q))
/-- What stops a taken branch (02/R68). A target that is both misaligned and out of range is reported as misaligned: neither R68
nor R111 orders the two (log entry 136). -/
def State.targetExc (s : State) (a : Agent) (t : W64) : Option Nat :=
  if t &&& 3 ≠ 0 then some 3 else if !s.fetchable a t then some 4 else none

def State.predictOn (s : State) (a : Agent) (k : BrKind) (pc t : W64) (taken : Bool) (push : Option W64) :
    State × List (Nat × Nat) :=
  match a with
  | .core n => s.branchPredict n k pc t taken push
  | .seq _ => (s, [])

/-- A taken branch, with the return address for CALL and CALLR (02/R65, R66, R68). -/
def State.branchTo (s : State) (a : Agent) (k : BrKind) (t : W64) (link : Bool) : Res :=
  let pc := (s.ctx a).pc
  match s.targetExc a t with
  | some code => .exc s code none 0
  | none =>
    let s := if link then s.wrG a 63 (pc + 4) else s
    let (s, evs) := s.predictOn a k pc t true (if link then some (pc + 4) else none)
    .jump s t evs

/-! ## Memory operands (02/R36, 03/R73) -/

/-- The effective address: base plus the signed offset scaled by the access size. -/
def effAddr (x : Ctx) (base : Reg) (off : BitVec 7) (size : Nat) : W64 :=
  x.rd base.toNat + off.signExtend 64 * w64 size
def markAcq (m : Mark) : Bool := m.getLsbD 0
def markRel (m : Mark) : Bool := m.getLsbD 1

end Sys2Proof.Machine
end

