-- ==== Sys2Proof/Machine/Access.lean ====
section
/-!
DEFINITION. Loads, stores and atomics of cores and sequencers: the checks of 03/R111, the effective type (05/R149),
forwarding and parking (04/R125-R127), device accesses (05/R159-R162) and sequencer misses (04/R137-R141, 05/R170).
-/
namespace Sys2Proof.Machine

def sizeOfDest : LoadDest → Nat | .reg _ n _ => n | .pair _ => 16 | .vec _ => 32
def regsOfDest : LoadDest → List Nat | .reg d _ _ => [d] | .pair d => [d, d + 1] | .vec _ => []
/-- The value of loaded bytes in a general register (03/R73). -/
def extend (size : Nat) (signed : Bool) (v : Nat) : W64 :=
  if signed ∧ size < 8 ∧ v / 2 ^ (8 * size - 1) % 2 = 1 then w64 (v + 2 ^ 64 - 2 ^ (8 * size)) else w64 v
/-- Loaded bytes reach their destination. -/
def State.deliver (s : State) (a : Agent) (d : LoadDest) (b : Bytes) : State :=
  match d with
  | .reg r n sg => s.wrG a r (extend n sg (leNat b))
  | .pair r => (s.wrG a r (w64 (leNat (b.take 8)))).wrG a (r + 1) (w64 (leNat (b.drop 8)))
  | .vec r => match a with
    | .core n => s.modCore n fun c => { c with v := c.v.set r (BitVec.ofNat 256 (leNat b)) }
    | .seq _ => s

/-! ## The checks of a core's access -/

/-- A checked access: physical start, length and effective type of each half. -/
inductive AccRes where
  | ok (halves : List (Nat × Nat × MemType)) (evs : List (Nat × Nat))
  | exc (code : Nat) (ea : W64) (einfo : W64)
  | mc (kind code addr : Nat)

def isDevType : MemType → Bool | .dev | .strict => true | _ => false
def halvesOf (va : W64) (size : Nat) : List (W64 × Nat) :=
  let first := min size (4096 - va.toNat % 4096)
  (va, first) :: (if first < size then [(va + w64 first, size - first)] else [])
/-- The translations of the halves, in order, with walk events. -/
def State.xlHalves (s : State) (n : Nat) (k : AccKind) : List (W64 × Nat) → State × List (XlRes × W64 × Nat) × List (Nat × Nat)
  | [] => (s, [], [])
  | (va, len) :: r =>
    let (s, x, w) := s.translate n va k false
    let ev := match w with | some m => [(0x1A, 1), (0x1C, m), (0x39, 1)] | none => []
    let (s, xs, evs) := s.xlHalves n k r
    (s, (x, va, len) :: xs, ev ++ evs)

/-- The type of a half whose physical address is known and not reserved (01/R29, 03/R80). -/
def State.xlType (s : State) : XlRes → Option MemType
  | .ok pa mt _ _ => if s.region pa = .reserved ∨ 2 ^ 52 ≤ pa then none else some (s.effType pa mt)
  | _ => none
def xlFault : XlRes → Option Nat
  | .fault c => some c
  | .ok _ _ c _ => c
  | .poison _ => none

def xlPoison : XlRes → Bool | .poison _ => true | _ => false

/-- The d bits of the leaves a store or an atomic uses; `false` when a leaf had to be discarded (06/R186). -/
def State.dirtyHalves (s : State) (n : Nat) : List (XlRes × W64 × Nat) → State × Bool
  | [] => (s, true)
  | (.ok _ _ _ (some lf), va, _) :: r =>
    match s.setDirty n lf with
    | some s => s.dirtyHalves n r
    | none => (s.dropLeaf n lf va.toNat, false)
  | _ :: r => s.dirtyHalves n r

/-- The checks of one access in the order of 03/R111. `aligned`: the access is marked or atomic, so it must be naturally
aligned; `vec`: VLD or VST, which reach no device (03/R93; the detail of an aligned one: log entry 137). The fuel bounds the walks
of 06/R186: after a leaf of either half was discarded, the next walk reads the entry as it stands in memory. -/
def State.accessFrom (s : State) (n : Nat) (va : W64) (size : Nat) (k : AccKind) (aligned vec : Bool) : Nat → State × AccRes
  | 0 => (s, .exc 7 va 0)
  | fuel + 1 =>
    let write := k = .store ∨ k = .atomic
    let al := fun d => AccRes.exc 8 va (einfoOf false (log2Size size) 0 d)
    let mis := va.toNat % size ≠ 0
    if aligned ∧ mis then (s, al 1) else
    let (s, xs, evs) := s.xlHalves n k (halvesOf va size)
    let types := xs.filterMap fun x => s.xlType x.1
    if types.any isDevType ∧ (mis ∨ vec ∨ xs.length ≠ 1) then (s, al 4)
    else if k = .atomic ∧ types.any (· ≠ .wb) then (s, al 2)
    else if k = .atomic ∧ xs.any (fun x => match x.1 with
        | .ok pa _ _ _ => s.region pa = .cxl false
        | _ => false) then (s, al 3)
    else match xs.zipIdx.find? (fun x => (xlFault x.1.1).isSome || xlPoison x.1.1) with
      | some ((.poison pa, _, _), _) => (s, .mc 2 2 pa)
      | some ((x, hva, _), i) =>
        (s, .exc (if write then 7 else 6) hva (einfoOf write (log2Size size) i ((xlFault x).getD 0)))
      | none =>
        let halves := xs.map fun x => match x.1 with
          | .ok pa mt _ _ => (pa, x.2.2, s.effType pa mt)
          | _ => (0, 0, MemType.wb)
        let evs := evs ++ [(0x18, b2n mis), (0x19, b2n (xs.length != 1)),
          (0x1D, b2n (types.any isDevType)), (0x1E, b2n (types.any fun t => t == .uc || t == .wc))]
        if write then
          match s.dirtyHalves n xs with
          | (s, true) => (s, .ok halves evs)
          | (s, false) => s.accessFrom n va size k aligned vec fuel
        else (s, .ok halves evs)
def State.access (s : State) (n : Nat) (va : W64) (size : Nat) (k : AccKind) (aligned vec : Bool) : State × AccRes :=
  s.accessFrom n va size k aligned vec 6

def addrsOf (halves : List (Nat × Nat × MemType)) : List Nat := halves.flatMap fun h => upto h.1 h.2.1

/-! ## Loads from memory -/

/-- How far a memory operation had to go (20/R560). -/
def srcRank : Src → Nat | .l1 => 0 | .l2 => 1 | .cache => 2 | .slice => 2 | .memory => 3
def srcEvents (tile home rank : Nat) : List (Nat × Nat) :=
  [(0x11, b2n (1 ≤ rank)), (0x12, b2n (2 ≤ rank)), (0x13, b2n (rank == 2)), (0x14, b2n (rank == 3)),
   (0x15, b2n (2 ≤ rank && baseDie tile != baseDie home))]
/-- Lines read by a core through its caches (WB) or at the home slice (UC, WC): the worst source, and the first line
that is poisoned or lies in a fenced rank. -/
def State.readLines (s : State) (n : Nat) (wb : Bool) : List Nat → State × Nat × Option (Nat × Nat)
  | [] => (s, 0, none)
  | l :: r =>
    let (s, src) := if wb then s.cohRead (s.tileOf n) l false (s.creelOf n) else s.homeLook l
    let bad := if src = .memory ∧ s.fencedLine l then some (0x22, 64 * l)
      else if s.poisoned l then some (1, 64 * l) else none
    let (s, k, b) := s.readLines n wb r
    (s, max (srcRank src) k, match bad with | some x => some x | none => b)

/-- A load of memory types by a core that no buffered store of its own overlaps: read, then delivered or a machine
check of kind 1 (17/R516); a line that a fenced rank gave keeps its mark in the caches (08/R251). -/
def State.loadMem (s : State) (n : CoreId) (addrs : List Nat) (wb : Bool) (d : LoadDest) (evs : List (Nat × Nat)) : Res :=
  let lines := (addrs.map (· / 64)).eraseDups
  let (s, rank, bad) := s.readLines n wb lines
  match bad with
  | some (code, pa) => .mc (if wb ∧ code = 0x22 then s.markPoison (pa / 64) else s) 1 code pa
  | none =>
    let ev := if wb then srcEvents (s.tileOf n) (homeOf (lines.headD 0)) rank else []
    .done (s.deliver (.core n) d (addrs.map s.rd8)) (evs ++ ev)

/-- The bytes an entry holds for a list of addresses. -/
def forwarded (e : SbEntry) (addrs : List Nat) : Bytes := addrs.map fun a => e.bytes.get 0 a
/-- A load of WB memory meets the store buffer (04/R125, R126). -/
def State.loadWb (s : State) (n : CoreId) (va : W64) (addrs : List Nat) (d : LoadDest) (acq : Bool) (evs : List (Nat × Nat)) : Res :=
  match ((s.core n).sb.filter fun e => overlaps e.bytes addrs).getLast? with
  | none => s.loadMem n addrs true d evs
  | some e =>
    if addrs.all fun a => e.bytes.has a then .done (s.deliver (.core n) d (forwarded e addrs)) ((0x16, 1) :: evs)
    else .wait (s.modCore n fun c => { c with parked := some { va := va, addrs := addrs, dest := d, acquire := acq } })

/-! ## Device accesses of a core -/

/-- Pages that a block of the device serves itself: hub space, the lane-group pages, the line-port block (16/R470). -/
def State.ownPage (s : State) (pa : Nat) : Bool :=
  match s.region pa with
  | .hub | .lineBlock _ => true
  | .window _ off => fixedStrict off
  | _ => false

/-- A device load of a core: a page of the device answers at once; any other window sends a non-posted request for each part, and
the load completes with COMPLETION_ARRIVAL (05/R131, R160, R166, R175). A strict or an acquire-marked load acts as FENCE.IO for the
stores before it (R160, R162). -/
def State.loadDev (s : State) (n : CoreId) (pa size : Nat) (mt : MemType) (d : LoadDest) (acq : Bool)
    (evs : List (Nat × Nat)) : Res :=
  let s := if mt == .strict || acq then (s.drainAll n).wcDrainAll n else s.drainOver n (upto pa size)
  if mt = .strict ∧ (s.core n).strict ≠ [] then .wait s else
  if s.ownPage pa then
    let (s, b) := (devParts pa size).foldl (fun (acc : State × Bytes) p =>
      let (s, v) := acc.1.regRead (some n) ((s.creelOf n).getD 64) p.1 p.2
      (s, acc.2 ++ toLe p.2 v)) (s, [])
    .done ((s.deliver (.core n) d b).modCore n fun c => { c with ioFence := true }) evs
  else match s.region pa with
    | .window lg off =>
      let port := s.portOf lg off
      if s.outboundOff pa then .mc (s.modLg lg fun g => { g with aer := g.aer + 1 }) 3 0x5 pa else
      match s.askDev lg port 0 n ((s.creelOf n).getD 64) (devParts pa size) with
      | none => .wait s
      | some (s, ts) =>
        .wait (s.modCore n fun c => { c with
          ioFence := c.ioFence || mt == .strict || acq,
          dev := some { parts := ts.map fun t => { tag := t, data := none }, lg := lg, pa := pa, dest := d, acquire := acq } })
    | _ => .done s evs

/-- A load by a core (03/R73-R76, R93). -/
def State.coreLoad (s : State) (n : CoreId) (va : W64) (d : LoadDest) (acq vec : Bool) : Res :=
  let size := sizeOfDest d
  match s.access n va size .load acq vec with
  | (s, .exc c ea ei) => .exc s c (some ea) ei
  | (s, .mc k c a) => .mc s k c a
  | (s, .ok halves evs) =>
    let s := if acq then s.drainReleases n else s
    let addrs := addrsOf halves
    match halves.find? fun h => isDevType h.2.2 with
    | some h => s.loadDev n h.1 size h.2.2 d acq evs
    | none =>
      if halves.all fun h => h.2.2 = .wb then s.loadWb n va addrs d acq evs
      else
        let s := s.drainOver n addrs
        let s := if (s.core n).wc.any fun b => overlaps b.bytes addrs then s.wcDrainAll n else s
        s.loadMem n addrs false d evs

/-! ## Stores -/

def bytesAt : List Nat → Bytes → FMap Byte
  | a :: as, b :: bs => (bytesAt as bs).set a b
  | _, _ => []
/-- A device store of a core (05/R159-R162): a page of the device takes it at once; a strict window gets a posted write
and a zero-length read that acknowledges it; any other window gets a buffered posted write. -/
def State.storeDev (s : State) (n : CoreId) (pa : Nat) (b : Bytes) (mt : MemType) (rel : Bool) (evs : List (Nat × Nat)) : Res :=
  let fenced := mt == .strict || rel
  let s := if fenced then (s.drainAll n).wcDrainAll n else s
  if fenced ∧ (s.core n).strict ≠ [] then .wait s else
  if s.ownPage pa then
    let s := (cutParts pa b).foldl (fun s p => s.regWrite (some n) ((s.creelOf n).getD 64) p.1 p.2.length (leNat p.2)) s
    .done (s.modCore n fun c => { c with ioFence := true }) evs
  else if mt = .strict then
    match s.region pa with
    | .window lg off =>
      let port := s.portOf lg off
      if s.outboundOff pa then .done (s.postStore (s.creelOf n) (bytesAt (upto pa b.length) b)) evs else
      match s.strictSend lg port 1 n ((s.creelOf n).getD 64) ((s.strictWindow lg off).getD 0) (cutParts pa b) with
      | none => .wait s
      | some (s, l) => .done (s.modCore n fun c => { c with ioFence := true, strict := c.strict ++ l }) evs
    | _ => .done s evs
  else
    .done (((cutParts pa b).zipIdx.foldl (fun s p =>
      s.pushStore n mt (bytesAt (upto p.1.1 p.1.2.length) p.1.2) rel (1 - p.2)) s)) evs

/-- The halves of a store to memory enter the store buffer, each with its own type (05/R169); together they are one store (R171). -/
def State.pushHalves (s : State) (n : Nat) (rel : Bool) (k : Nat) : List (Nat × Nat × MemType) → Bytes → State
  | [], _ => s
  | (pa, len, mt) :: r, b =>
    (s.pushStore n mt (bytesAt (upto pa len) (b.take len)) rel k).pushHalves n rel 0 r (b.drop len)
/-- The halves of an STP, cut into its two accesses of 8 bytes unless it is one access of 16 (03/R77, 05/R166). -/
def cutHalves : Nat → List (Nat × Nat × MemType) → List (Nat × Nat × MemType)
  | _, [] => []
  | k, (pa, len, mt) :: r =>
    if 0 < k ∧ k < len then (pa, k, mt) :: (pa + k, len - k, mt) :: r else (pa, len, mt) :: cutHalves (k - len) r
def State.wholePair (s : State) : List (Nat × Nat × MemType) → Bool
  | [(pa, 16, .wb)] => pa % 16 == 0 && (match s.region pa with | .dram | .cxl true => true | _ => false)
  | _ => false
def State.storeHalves (s : State) (size : Nat) (h : List (Nat × Nat × MemType)) : List (Nat × Nat × MemType) :=
  if size = 16 ∧ !s.wholePair h then cutHalves 8 h else h
/-- A release-marked store, atomic or DEV-STRICT store of a mirrored creel is a commit point: earlier stores are performed
and the commit is released before it is (15/R448). -/
def State.storeGate (s : State) (n : Nat) (marked : Bool) : State × Bool :=
  if marked ∧ s.mirrored n then ((s.drainAll n).wcDrainAll n).commitGate n else (s, true)
/-- A store by a core (03/R73-R76, R93). -/
def State.coreStore (s : State) (n : CoreId) (va : W64) (b : Bytes) (rel vec : Bool) : Res :=
  match s.access n va b.length .store rel vec with
  | (s, .exc c ea ei) => .exc s c (some ea) ei
  | (s, .mc k c a) => .mc s k c a
  | (s, .ok halves evs) =>
    let dev := halves.find? fun h => isDevType h.2.2
    let strict := match dev with | some h => h.2.2 == .strict | none => false
    let (s, go) := s.storeGate n (rel || strict)
    if !go then .wait s else
    match dev with
    | some h => s.storeDev n h.1 b h.2.2 rel evs
    | none => .done (s.pushHalves n rel 1 (s.storeHalves b.length halves) b) evs

/-! ## Atomics (03/R78-R80, 05/R157) -/

/-- An atomic of a core, in L1D with the line in M: old bytes to new bytes, and the old bytes to the registers. -/
def State.coreAtomic (s : State) (n : CoreId) (va : W64) (size : Nat) (acq rel : Bool) (f : Nat → Nat)
    (fin : State → Nat → State) : Res :=
  match s.access n va size .atomic true false with
  | (s, .exc c ea ei) => .exc s c (some ea) ei
  | (s, .mc k c a) => .mc s k c a
  | (s, .ok halves evs) =>
    let (s, go) := s.storeGate n rel
    if !go then .wait s else
    match halves with
    | (pa, _, _) :: _ =>
      let s := if acq then s.drainReleases n else s
      let s := if rel then (s.drainAll n).wcDrainAll n else s.drainOver n (upto pa size)
      let s := s.sealSb n
      let cr := s.creelOf n
      let (s, src) := s.cohOwn (s.tileOf n) (lineOf pa) cr
      if src = .memory ∧ s.fencedLine (lineOf pa) then .mc (s.markPoison (lineOf pa)) 1 0x22 pa
      else if s.poisoned (lineOf pa) then .mc s 1 1 pa
      else
        let old := leNat (s.rdBytes pa size)
        let s := s.wrBytes pa (toLe size (f old))
        let s := match cr with | some c => s.capture c n [lineOf pa] | none => s
        .done (fin s old) (evs ++ srcEvents (s.tileOf n) (homeOf (lineOf pa)) (srcRank src))
    | [] => .done s evs

/-! ## Sequencers (04/R140, R141; 05/R170) -/

/-- A faulting address as a sequencer's job reports it: physical in shared mode, else in the local form of 13/R404 (13/R417). -/
def State.seqEa (s : State) (i : Nat) (va : W64) : W64 := if tbit (s.seq i).mode 1 then va else va + w64 localBase

def State.seqPresent (s : State) (i line : Nat) : Bool := (s.privSt (224 + i) line).isSome
def Seq.missBusy (z : Seq) : Bool := z.miss.isSome || z.ops.any fun o => o.miss
/-- The creel number that a request of a sequencer carries; 64 for none. -/
def State.seqBy (s : State) (i : Nat) : Nat := (s.seqCreel i).getD 64
/-- The checks of a shared access of a sequencer before any part is performed (05/R170, 09/R259). -/
def State.seqCheck (s : State) (i : Nat) (va : W64) (size : Nat) (write : Bool) : Bool :=
  match s.seqCreel i with
  | some cr => decide (va.toNat + size ≤ 2 ^ 52) &&
      (upto (va.toNat / 4096) ((va.toNat + size - 1) / 4096 + 1 - va.toNat / 4096)).all fun pg =>
        s.region (pg * 4096) != .reserved && s.segOk cr (pg * 4096) { r := !write, w := write, x := false, dma := true }
  | none => decide (va.toNat + size ≤ s.installed)
/-- Does an access of a sequencer touch a device type? Both its ends count; a reserved address has no type (05/R149, R169). -/
def State.seqDev (s : State) (a size : Nat) : Bool :=
  [a, a + size - 1].any fun x => s.region x != .reserved && isDevType (s.effType x none)
/-- A device access that must follow earlier accesses of the sequencer waits for them, as FENCE.IO does (05/R160 to R162). -/
def Seq.ioBusy (z : Seq) : Bool := z.missBusy || z.openIo
/-- Registers that a load marks poisoned, and those whose scoreboard bits it sets: g0 has neither (04/R137). -/
def destRegs (d : LoadDest) : List Nat := (regsOfDest d).filter (· ≠ 0)
def State.seqPoison (s : State) (i : Nat) (d : LoadDest) : State := s.modSeq i fun z => { z with poisoned := z.poisoned ++ destRegs d }
/-- The parts of a load's destination, as the device accesses that fill them. -/
def destParts : LoadDest → List LoadDest | .pair d => [.reg d 8 false, .reg (d + 1) 8 false] | d => [d]

/-- A load of a sequencer from a page of the device or from a window (05/R160, R162, R170). -/
def State.seqDevLoad (s : State) (q : SeqId) (pa : Nat) (d : LoadDest) (acq : Bool) : Res :=
  let i := seqIx q
  let size := sizeOfDest d
  let strict := s.effType pa none == .strict
  let fence := strict || acq
  if strict && (s.seq i).ioBusy then .wait s
  else if s.ownPage pa then
    let (s, b) := (devParts pa size).foldl (fun (acc : State × Bytes) p =>
      let (s, v) := acc.1.regRead none (s.seqBy i) p.1 p.2
      (s, acc.2 ++ toLe p.2 v)) (s, [])
    .done (s.deliver (.seq q) d b) []
  else match s.region pa with
  | .window lg off =>
    if s.outboundOff pa then
      let s := s.modLg lg fun g => { g with aer := g.aer + 1 }
      let s := match s.seqCreel i with | some c => s.creelError c 2 4 0x5 pa lg 0 | none => s
      .done (s.seqPoison i d) []
    else match s.askDev lg (s.portOf lg off) 2 i (s.seqBy i) (devParts pa size) with
    | none => .wait s
    | some (s, ts) =>
      .done (s.modSeq i fun z => { z with
        busy := z.busy ++ destRegs d, ioFence := z.ioFence || fence,
        ops := z.ops ++ (ts.zip (destParts d)).map fun p =>
          { dev := some (1024 * lg + p.1, p.2), regs := destRegs p.2, vals := [], poison := false, done := false, miss := false } }) []
  | _ => .done s []
/-- A store of a sequencer to a page of the device or to a window. -/
def State.seqDevStore (s : State) (q : SeqId) (pa : Nat) (b : Bytes) (rel : Bool) : Res :=
  let i := seqIx q
  let strict := s.effType pa none == .strict
  if (strict || rel) && (s.seq i).ioBusy then .wait s
  else if s.ownPage pa then
    .done ((cutParts pa b).foldl (fun s p => s.regWrite none (s.seqBy i) p.1 p.2.length (leNat p.2)) s) []
  else match s.region pa with
  | .window lg off =>
    if strict && !s.outboundOff pa then
      match s.strictSend lg (s.portOf lg off) 4 i (s.seqBy i) ((s.strictWindow lg off).getD 0) (cutParts pa b) with
      | none => .wait s
      | some (s, l) => .done (s.modSeq i fun z => { z with ioFence := true, strict := z.strict ++ l }) []
    else .done ((cutParts pa b).foldl (fun s p => s.postStore (s.seqCreel i) (bytesAt (upto p.1 p.2.length) p.2)) s) []
  | _ => .done s []

def SeqMiss.empty (line : Nat) : SeqMiss :=
  { line := line, addrs := [], dest := none, store := [], got := [], poison := false, acquire := false, release := false }
/-- The bytes of some lines that a sequencer's cache holds are read: it is used, and an uncorrectable error in a clean line, or a
mark, makes them poison (04/R136, R139, R141). -/
def State.seqRead (s : State) (i : Nat) (lines : List Nat) : State × Bool :=
  let bad := lines.any fun l => s.poisoned l || (s.seq i).badLines.contains l
  let s := lines.foldl (fun s l => (s.cohRead (224 + i) l false (s.seqCreel i)).1) s
  let gone := lines.filter (s.seq i).badLines.contains
  let s := gone.foldl (fun s l => (s.dropPriv (224 + i) l).dirLeave (224 + i) l) s
  (if gone = [] then s else s.modSeq i fun z => { z with badLines := z.badLines.filter fun l => !gone.contains l }, bad)
/-- Bytes are written in lines that a sequencer's cache holds. -/
def State.seqWrite (s : State) (i : Nat) (lines : List Nat) (m : FMap Byte) : State :=
  let s := lines.foldl (fun s l => (s.cohOwn (224 + i) l (s.seqCreel i)).1) s
  let s := s.store m
  match s.seqCreel i with | some cr => s.captureLines cr lines | none => s

/-- A shared load of a sequencer. Of two lines the one that hits is read at the access; when both miss, the lower one is filled
first (04/R141). An acquire load waits for a marked store before it (05/R153). -/
def State.seqSharedLoad (s : State) (q : SeqId) (va : W64) (d : LoadDest) (acq : Bool) : Res :=
  let i := seqIx q
  let size := sizeOfDest d
  let z := s.seq i
  let mis := va.toNat % size ≠ 0
  if acq ∧ mis then .exc s 8 (some va) 1
  else if tbit z.mode 0 ∧ s.sealedHit i va.toNat size then .ends s 0x21 va
  else if mis ∧ s.seqDev va.toNat size then .exc s 8 (some va) 4
  else if !s.seqCheck i va size false then .exc s 6 (some va) 0
  else if acq && (match z.miss with | some m => m.release | none => false) then .wait s
  else if s.seqDev va.toNat size then s.seqDevLoad q va.toNat d acq
  else
    let addrs := upto va.toNat size
    let lines := linesOf va.toNat size
    let (hit, gone) := lines.partition (s.seqPresent i)
    match gone with
    | [] =>
      let (s, bad) := s.seqRead i lines
      let s := s.deliver (.seq q) d (addrs.map s.rd8)
      .done (if bad then s.seqPoison i d else s) []
    | l :: more =>
      if z.missBusy then .wait s
      else if more ≠ [] ∨ acq then .wait (s.modSeq i fun z => { z with miss := some { SeqMiss.empty l with acquire := acq } })
      else
        let (s, bad) := s.seqRead i hit
        let got : FMap Byte := (addrs.filter fun a => hit.contains (a / 64)).map fun a => (a, s.rd8 a)
        .done (s.modSeq i fun z => { z with
          busy := z.busy ++ destRegs d,
          miss := some { SeqMiss.empty l with addrs := addrs, dest := some d, got := got, poison := bad } }) []

/-- A shared store of a sequencer: a hit writes its cache in M; a miss occupies the miss buffer until its line is filled
and written. Of two lines the one that hits is written at the access (04/R141). -/
def State.seqSharedStore (s : State) (q : SeqId) (va : W64) (b : Bytes) (rel : Bool) : Res :=
  let i := seqIx q
  let size := b.length
  let z := s.seq i
  let mis := va.toNat % size ≠ 0
  if rel ∧ mis then .exc s 8 (some va) 1
  else if tbit z.mode 0 ∧ s.sealedHit i va.toNat size then .ends s 0x21 va
  else if mis ∧ s.seqDev va.toNat size then .exc s 8 (some va) 4
  else if !s.seqCheck i va size true then .exc s 7 (some va) 0
  else if rel ∧ z.missBusy then .wait s
  else if s.seqDev va.toNat size then s.seqDevStore q va.toNat b rel
  else
    let m := bytesAt (upto va.toNat size) b
    let lines := linesOf va.toNat size
    let (hit, gone) := lines.partition (s.seqPresent i)
    match gone with
    | [] => .done (s.seqWrite i lines m) []
    | l :: more =>
      if z.missBusy then .wait s
      else if more ≠ [] then .wait (s.modSeq i fun z => { z with miss := some (SeqMiss.empty l) })
      else
        let s := if hit = [] then s else s.seqWrite i hit (m.filter fun p => hit.contains (p.1 / 64))
        .done (s.modSeq i fun z => { z with
          miss := some { SeqMiss.empty l with store := m.filter (fun p => p.1 / 64 = l), release := rel } }) []

/-- An atomic of a sequencer: performed at the home slice after its own copy is written back; the old value comes with
LONG_LATENCY_COMPLETION (04/R137, R141). -/
def State.seqAtomic (s : State) (q : SeqId) (va : W64) (d : Nat) (f : Nat → Nat) : Res :=
  let i := seqIx q
  let z := s.seq i
  if va.toNat % 8 ≠ 0 then .exc s 8 (some (s.seqEa i va)) 1
  else if !tbit z.mode 1 then .exc s 8 (some (s.seqEa i va)) 3
  else if tbit z.mode 0 ∧ s.sealedHit i va.toNat 8 then .ends s 0x21 va
  else
    if s.seqDev va.toNat 8 then .exc s 8 (some va) 2
    else if s.region va.toNat = .cxl false then .exc s 8 (some va) 3
    else if !(s.seqCheck i va 8 false && s.seqCheck i va 8 true) then .exc s 7 (some va) 0
    else if z.missBusy then .wait s
    else
      let line := lineOf va.toNat
      let cr := s.seqCreel i
      let s := (s.writebackLine (224 + i) line cr).homeWrite line
      let old := leNat (s.rdBytes va.toNat 8)
      let bad := s.poisoned line
      let s := if bad then s else s.wrBytes va.toNat (toLe 8 (f old))
      let s := match cr with | some c => s.captureLines c [line] | none => s
      let rs := [d].filter (· ≠ 0)
      .done (s.modSeq i fun z => { z with
        busy := z.busy ++ rs,
        ops := z.ops ++ [{ dev := none, regs := rs, vals := [w64 old], poison := bad, done := true, miss := true }] }) []

/-! ## One load, one store on either agent -/

def State.loadBy (s : State) (a : Agent) (va : W64) (d : LoadDest) (mark : Mark) (vec : Bool) : Res :=
  match a with
  | .core n => s.coreLoad n va d (markAcq mark) vec
  | .seq q =>
    let i := seqIx q
    if tbit (s.seq i).mode 1 then s.seqSharedLoad q va d (markAcq mark)
    else if markAcq mark ∧ va.toNat % sizeOfDest d ≠ 0 then .exc s 8 (some (s.seqEa i va)) 1
    else match s.localLoad i va.toNat (sizeOfDest d) d with
      | .val s v =>
        let s := s.deliver a d (toLe (sizeOfDest d) v)
        .done (if (s.seq i).badLocal then (s.seqPoison i d).modSeq i fun z => { z with badLocal := false } else s) []
      | .busyDoor s => .done s []
      | .stall s => .wait s
      | .fault s c => .ends s c (s.seqEa i va)
def State.storeBy (s : State) (a : Agent) (va : W64) (b : Bytes) (mark : Mark) (vec : Bool) : Res :=
  match a with
  | .core n => s.coreStore n va b (markRel mark) vec
  | .seq q =>
    let i := seqIx q
    if tbit (s.seq i).mode 1 then s.seqSharedStore q va b (markRel mark)
    else if markRel mark ∧ va.toNat % b.length ≠ 0 then .exc s 8 (some (s.seqEa i va)) 1
    else match s.localStore i va.toNat b with
      | .val s _ => .done s []
      | .busyDoor s => .done s []
      | .stall s => .wait s
      | .fault s c => .ends s c (s.seqEa i va)

end Sys2Proof.Machine
end

