-- ==== Sys2Proof/Machine/Coherence.lean ====
section
/-!
DEFINITION. The meanings of the memory-system events of a core and a sequencer (04/R123-R128, R137-R147), of the
coherence protocol and of the slices (07/R199-R227).
-/
namespace Sys2Proof.Machine

/-- Lines wait for their fill in the 32 miss buffers of a tile's L1D (04/R113, R123). -/
def State.takeMiss (s : State) (t : Nat) (lines : List Nat) : State :=
  s.setTile t { s.tile t with miss := ((s.tile t).miss ++ lines.filter fun l => !(s.tile t).miss.contains l).take 32 }
/-- STORE_DRAIN: the head of the store buffer writes L1D once L1D holds its line in M or E; until then the store waits in a miss
buffer (04/R123). -/
def execStoreDrain (n : CoreId) (s : State) : Out :=
  match (s.core n).sb with
  | [] => .next s
  | e :: _ =>
    let lacks := ((mapKeys e.bytes).map (· / 64)).eraseDups.filter fun l => !s.l1dOwned (s.tileOf n) l
    if e.mt = .wb ∧ lacks ≠ [] ∧ !(e.bytes.any fun p => s.region p.1 = .reserved) then .next (s.takeMiss (s.tileOf n) lacks)
    else .next (s.drainHead n)

/-- A parked load whose address has become reserved meanwhile: which half, and its address (01/R29). -/
def State.parkedReserved (s : State) (p : Parked) : Option (W64 × Nat) :=
  let first := 4096 - p.va.toNat % 4096
  if (p.addrs.take first).any fun a => s.region a = .reserved then some (p.va, 0)
  else if p.addrs.any fun a => s.region a = .reserved then some (p.va + w64 first, 1) else none
/-- PARKED_LOAD: the load reads L1D once every older overlapping entry has written it (04/R126). -/
def execParkedLoad (n : CoreId) (s : State) : Out :=
  let c := s.core n
  match c.parked with
  | none => .next s
  | some p =>
    if c.sb.any fun e => overlaps e.bytes p.addrs then .next s
    else
      let s := s.modCore n fun c => { c with parked := none }
      match s.parkedReserved p with
      | some (va, half) => .next (s.takeExc n 6 (some va) (einfoOf false (log2Size (sizeOfDest p.dest)) half 0x2F))
      | none =>
        match s.loadMem n p.addrs true p.dest [(0x17, 1)] with
        | .done s evs =>
          let (s, sp) := s.specEvents [(0x33, 1)]
          .next ((s.setPc n (c.x.pc + 4)).modCore n fun d => d.count c.priv ((1, 1) :: (6, 1) :: evs ++ sp))
        | .mc s k code a => .next (s.takeMc n k code a)
        | _ => .next s

/-- MEMORY_ORDER_REPLAY: the load and every younger instruction run again; the predictor records the load's address. A load whose
address it already holds did not issue before the store, so nothing is replayed (04/R128, 20/R560). -/
def execMemoryOrderReplay (n : CoreId) (loadAddr : W64) (s : State) : Out :=
  if (s.core n).pred.conflicts.contains loadAddr then .next s else
  let (s, sp) := s.specEvents [(0x33, 1), (0x34, 1), (0x32, 1)]
  .next (s.modCore n fun c =>
    { c with pred := { c.pred with conflicts := (loadAddr :: c.pred.conflicts).take 1024 } }.count c.priv sp)

def cacheable (s : State) (line : Nat) : Bool := match s.region (64 * line) with | .dram | .cxl _ => true | _ => false

/-! ## Errors of the arrays (07/R206-R209, 04/R136, R142) -/

def State.slowSeq (s : State) (ag : Nat) : State := if 224 ≤ ag then s.modSeq (ag - 224) fun z => { z with beats := z.beats + 2 } else s
/-- A corrected error of an agent, counted in its unit's bank and attributed to the creel that works there (17/R507); the times of a tile's last 64
are kept (19/R550). -/
def State.correctedAt (s : State) (ag : Nat) : State :=
  let s := s.bankCorrected (s.agentUnit ag).1 (s.agentUnit ag).2
  let s : State := if ag < 224 then
      { s with reserve := { s.reserve with errs := s.reserve.errs.set ag ((s.clock :: s.reserve.errs.get [] ag).take 64) } }
    else s
  match s.agentCreel ag with | some c => s.creelCorrected c | none => s
/-- An error in the local memory of a sequencer (04/R136). -/
def State.localError (s : State) (ag : Nat) (e : LookupErr) : State :=
  match e with
  | .dataCorrected => (s.slowSeq ag).correctedAt ag
  | .dataUncorrectable => s.modSeq (ag - 224) fun z => { z with badLocal := true }
  | _ => s
/-- A clean copy in the private caches is invalidated; the access that met the error fetches the line again (07/R207, R208). -/
def State.forget (s : State) (ag line : Nat) : State := (s.dropPriv ag line).dirLeave ag line
/-- A data or tag error met in an agent's private caches (07/R207, R208; 04/R136, R142). An error in L1I concerns that copy only. -/
def State.privError (s : State) (ag line : Nat) (e : LookupErr) (fetch : Bool) : State :=
  match s.privSt ag line with
  | none => s
  | some st =>
    let poison := fun (s : State) => (s.markPoison line).deferred (s.agentUnit ag).1 0x21 (64 * line) (s.agentUnit ag).2 0
    let gone := fun (s : State) => s.writebackLine ag line (s.agentCreel ag)
    match e with
    | .none | .dirCorrected | .dirUncorrectable => s
    | e =>
      if fetch ∧ ag < 224 ∧ (setFind ((s.tile ag).l1i.get [] (setL1 line)) line).isSome then
        (s.setTile ag { s.tile ag with l1i := (s.tile ag).l1i.set (setL1 line) (setDrop ((s.tile ag).l1i.get [] (setL1 line)) line) }).correctedAt ag
      else match e with
      | .dataUncorrectable =>
        if st.isDirty then poison s
        else if ag < 224 then s.forget ag line
        else s.modSeq (ag - 224) fun z => { z with badLines := setInsert z.badLines line }
      | .tagParity k =>
        if !st.isDirty then (s.forget ag line).correctedAt ag
        else if 224 ≤ ag ∨ k = 1 then gone (poison s)
        else s.fatal 1 0x21
      | _ => (s.slowSeq ag).correctedAt ag

/-- A line that the home granted reaches its requester, unless another access completed the request meanwhile; a line that nobody
asked for is read now (07/R199, R217). -/
def State.fillArrives (s : State) (ag line : Nat) (fetch : Bool) : State :=
  let x := s.slice (homeOf line)
  match x.fills.find? fun f => f.line = line ∧ f.agent = ag with
  | some f =>
    let s := s.setSlice (homeOf line) { x with fills := x.fills.erase f }
    if f.arrived then s else (s.arrive ag line fetch (s.agentCreel ag)).serveWaiting line
  | none => (s.cohRead ag line fetch (s.agentCreel ag)).1
/-- CACHE_FILL: a returning line enters the caches of its requester (07/R199, R204), after the lookup that met an error, if one did
(R207, R208). A fill on a wrong path obeys the same way mask (04/R129). `fetch`: for L1I; on a sequencer, local memory (R136). An
error in a sequencer's cache leaves the access to the sequencer's own lookup (R142). -/
def execCacheFill (ag : CohAgent) (line : LineNo) (fetch wrongPath : Bool) (err : LookupErr) (s : State) : Out :=
  let l := line.toNat
  if 224 ≤ ag.val ∧ fetch then .next (s.localError ag err) else
  if !cacheable s l then .next s else
  let s := s.privError ag l err fetch
  if 224 ≤ ag.val ∧ err ≠ .none then .next s else
  let s := (s.fillArrives ag l fetch).releaseMiss ag [l]
  .next (match s.coreAt ag with
    | some n => s.modCore n fun c => c.count c.priv [(0x35, 1), (0x36, 1), (0x38, b2n wrongPath)]
    | none => s)

/-- TABLE_WALK: a walk of a running core n for an address; a wrong-path walk sets no a bit. One that meets an uncorrectable error
is a machine check, or on a wrong path is recorded (06/R183-R187, R195). -/
def execTableWalk (n : CoreId) (va : W64) (_kind : AccKind) (wrongPath : Bool) (s : State) : Out :=
  let c := s.core n
  if c.run != .running || c.parked.isSome || c.dev.isSome || !c.xlateOn || !canonical (vaWidth (c.sysr 0x22)) va then .next s
  else match s.walkAccess n va.toNat wrongPath with
    | (s, _, .poison pa, _) => .next (if wrongPath then s.deferred 1 2 pa n 0 else s.takeMc n 2 2 pa)
    | (s, _, _, _) => .next (s.modCore n fun c => c.count c.priv [(0x39, 1)])

/-! ## Sequencer events -/

/-- SEQUENCER_MISS_FILL: the line is filled; a load's destination is written and its scoreboard bit clears, a store's
bytes are written (04/R137, R139, R141, R147). A line of a fenced rank comes poisoned, and the creel is told (08/R251, 17/R511). -/
def execSequencerMissFill (a : SeqId) (s : State) : Out :=
  let i := seqIx a
  match (s.seq i).miss with
  | none => .next s
  | some m =>
    let s := s.modSeq i fun z => { z with miss := none }
    if m.store ≠ [] then .next (s.seqWrite i ((mapKeys m.store).map (· / 64)).eraseDups m.store) else
    let (s, src) := s.cohRead (224 + i) m.line false (s.seqCreel i)
    let fenced := src = .memory ∧ s.fencedLine m.line
    let s := if fenced then s.markPoison m.line else s
    let s := match s.seqCreel i with
      | some c => if fenced then s.creelError c 2 3 0x22 (64 * m.line) (channelOf m.line) 0 else s
      | none => s
    match m.dest with
    | none => .next s
    | some d =>
      let bad := m.poison || s.poisoned m.line
      let s := s.deliver (.seq a) d (m.addrs.map fun b => m.got.get (s.rd8 b) b)
      let s := s.modSeq i fun z => { z with busy := z.busy.filter fun r => !(regsOfDest d).contains r }
      .next (if bad then s.seqPoison i d else s)

/-- LONG_LATENCY_COMPLETION: the oldest operation whose result has come writes its registers, and their scoreboard bits
clear; poison marks them (04/R137, R139). -/
def execLongLatencyCompletion (a : SeqId) (s : State) : Out :=
  let i := seqIx a
  let z := s.seq i
  match z.ops.find? fun o => o.done with
  | none => .next s
  | some o =>
    let s := (o.regs.zip o.vals).foldl (fun s p => s.wrG (.seq a) p.1 p.2) s
    .next (s.modSeq i fun z =>
      { z with busy := z.busy.filter fun r => !o.regs.contains r, ops := z.ops.erase o,
               poisoned := if o.poison then z.poisoned ++ o.regs else z.poisoned })

/-- SEQ_MODE_IN_FORCE: a written mode whose two instructions have completed comes into force (03/R105, 04/R145). -/
def execSeqModeInForce (a : SeqId) (s : State) : Out := .next (s.modSeq (seqIx a) Seq.modeDue)

/-! ## Coherence requests (07/R216-R221) -/

/-- An error the slice meets on a lookup (07/R207-R209), counted in its bank (17/R507). -/
def State.sliceError (s : State) (line : Nat) (e : LookupErr) : State :=
  let h := homeOf line
  let set := (s.slice h).sets.get [] (setL3 line)
  let held := set.any fun c => c.line = line
  let dirty := set.any fun c => c.line = line ∧ c.dirty
  let fixed := fun (s : State) =>
    let s := s.bankCorrected 2 h
    match s.segHolder (64 * line) with | some c => s.creelCorrected c | none => s
  match e with
  | .none => s
  | .dirCorrected => s.bankCorrected 2 h
  | .dataCorrected => if held then fixed s else s
  | .dataUncorrectable =>
    if dirty then (s.markPoison line).deferred 2 0x21 (64 * line) h 0 else s.sliceClean line false
  | .tagParity k =>
    if !held then s
    else if !dirty then fixed (s.sliceClean line false)
    else if k = 1 then ((s.markPoison line).sliceClean line false).deferred 2 0x21 (64 * line) h 0
    else s.fatal 2 0x21
  | .dirUncorrectable => ((s.invalidateAll true line none).dropDir line).bankCorrected 2 h

/-- A request joins those that wait at the home (07/R217, R220). -/
def State.waitHome (s : State) (q : HomeReq) : State :=
  let x := s.slice (homeOf q.line)
  s.setSlice (homeOf q.line) { x with waitq := x.waitq ++ [q] }
def State.homeBusy (s : State) (line : Nat) : Bool := (s.slice (homeOf line)).busyLine line
/-- READ at the home slice: granted, its line is on its way until CACHE_FILL (07/R216, R217). -/
def execRead (ag : CohAgent) (line : LineNo) (err : LookupErr) (s : State) : Out :=
  let l := line.toNat
  if !cacheable s l then .next s else
  let s := s.sliceError l err
  if (s.privSt ag l).isSome then .next s
  else if s.homeBusy l then .next (s.waitHome { line := l, agent := ag, own := false })
  else
    let s := (s.homeRead ag l (s.agentCreel ag)).1
    let x := s.slice (homeOf l)
    .next (s.setSlice (homeOf l) { x with fills := x.fills ++ [{ line := l, agent := ag, arrived := false }] })
def execReadForOwnership (ag : CohAgent) (line : LineNo) (s : State) : Out :=
  let l := line.toNat
  if !cacheable s l then .next s
  else if s.homeBusy l then .next (s.waitHome { line := l, agent := ag, own := true })
  else
    let (s, src) := s.cohOwn ag l (s.agentCreel ag)
    let s := s.releaseMiss ag [l]
    .next (if src = .memory ∧ s.fencedLine l then s.markPoison l else s)
/-- UPGRADE from S or O: the other holders are invalidated and the requester holds M (07/R216). -/
def execUpgrade (ag : CohAgent) (line : LineNo) (s : State) : Out :=
  let l := line.toNat
  match s.privSt ag l with
  | some .s | some .o =>
    if s.homeBusy l then .next (s.waitHome { line := l, agent := ag, own := true })
    else .next ((s.cohOwn ag l (s.agentCreel ag)).1.releaseMiss ag [l])
  | _ => .next s
def execWriteback (ag : CohAgent) (line : LineNo) (s : State) : Out :=
  .next (s.writebackLine ag line.toNat (s.agentCreel ag))
/-- FORWARDED_READ: the owner supplies data and keeps O, or moves from E to S (07/R215, R216). -/
def execForwardedRead (ag : CohAgent) (line : LineNo) (s : State) : Out :=
  let l := line.toNat
  match s.privSt ag l, s.dirOf l with
  | some .m, some d => .next ((s.setPriv ag l .o).setDir { d with shared := true })
  | some .e, some d =>
    .next ((s.setPriv ag l .s).setDir { d with owner := none, shared := true, sharers := setInsert d.sharers ag })
  | _, _ => .next s
def execInvalidation (ag : CohAgent) (line : LineNo) (s : State) : Out := .next (s.invalidateAt true ag line.toNat)
/-- VICTIM_WRITEBACK_ACK: a writeback that was issued leaves the victim buffer; the requests that wait for the line refetch it from
memory (07/R220). -/
def execVictimWritebackAck (slice : SliceId) (line : LineNo) (s : State) : Out :=
  let x := s.slice slice
  let s := s.setSlice slice { x with victims := x.victims.filter fun v => !(v.line == line.toNat && v.issued) }
  .next (if s.homeBusy line.toNat then s else s.serveWaiting line.toNat)

/-! ## Ways and wires (07/R210, R211, R227) -/

/-- The lines of some ways of a slice are written back and invalidated. -/
def Slice.emptyWays (x : Slice) (mask : Nat) : Slice :=
  { x with sets := x.sets.map fun p => (p.1, p.2.filter fun c => !wayBit mask c.way) }
def State.emptySliceWays (s : State) (i mask : Nat) : State := s.setSlice i ((s.slice i).emptyWays mask)
/-- IR_NOTICE.reserve_exhausted at the creels that satisfy a test (17/R499, source kind 5). -/
def State.exhausted (s : State) (p : Nat → Bool) : State :=
  ((List.range 64).filter fun c => (s.creel c).st ≠ .unassigned && p c).foldl (fun s c => s.notice c 6 5) s

/-- WAY_RETIREMENT: cleaned, then mapped onto a reserve way, physical way 16 or 17; with none left the logical way stays retired
and the reserve-exhausted event is reported (07/R210). -/
def State.retireWay (s : State) (slice way : Nat) : State :=
  let x := (s.slice slice).emptyWays (2 ^ way)
  if x.reserveUsed < 2 then
    (s.setSlice slice { x with reserveUsed := x.reserveUsed + 1, wayMap := x.wayMap.set way (16 + x.reserveUsed) }).retiredRec 2 (16 * slice + way) x.reserveUsed fun c => wayBit (s.creel c).wayMask way
  else
    (s.setSlice slice { x with retired := if wayBit x.retired way then x.retired else x.retired + 2 ^ way }).exhausted
      fun c => wayBit (s.creel c).wayMask way
def execWayRetirement (slice : SliceId) (way : Fin 16) (s : State) : Out := .next (s.retireWay slice way)

/-- WAY_CLEANING_COMPLETION: the ways being powered down or surrendered hold no line; powered-down ways go off, and the
command that waited may complete (07/R211, 09/R264). -/
def execWayCleaningCompletion (slice : SliceId) (s : State) : Out :=
  let x := s.slice slice
  let x := x.emptyWays (x.cleaning ||| x.powerCleaning)
  .next ((s.setSlice slice { x with cleaning := 0, powerCleaning := 0, off := x.off ||| x.powerCleaning }).cleaningDone)

/-- WIRE_GROUP_FAILURE: one of the two reserve groups takes over; a third failure leaves the link at half width, with a
reserve-exhausted event to the creels with cores on that base die (07/R227; log entry 11). -/
def State.retireGroup (s : State) (k : Nat) : State :=
  let n := s.bridges.get 0 k + 1
  let s := { s with bridges := s.bridges.set k n }
  let uses := fun c => (s.coresOf c).any fun m => m / 48 == k / 8
  if 2 < n then s.exhausted uses else s.retiredRec 3 k (n - 1) uses
def execWireGroupFailure (base : Fin 4) (bridge : Fin 8) (s : State) : Out := .next (s.retireGroup (8 * base.val + bridge.val))

end Sys2Proof.Machine
end

