-- ==== Sys2Proof/Machine/Memory.lean ====
section
/-!
DEFINITION. The memory channels (08): reads and writes at a channel, error counts, trackers and throttles, page hints,
scrub and repair, the reserve rank, retraining and speed changes, QoS statistics (08/R228-R251).
-/
namespace Sys2Proof.Machine

/-! ## Positions and QoS configuration -/

/-- The rank of a line in a channel; numbers above the installed capacity name the lines of the reserve rank, to which no address
maps (08/R237; log entry 15). -/
def State.rankAt (s : State) (ch line : Nat) : Nat := if 64 * line < s.installed then (s.chan ch).rankOf line else (s.chan ch).reserveRank
/-- A bank of a channel: 64 to a rank. -/
def State.bankKey (s : State) (ch line : Nat) : Nat := 64 * s.rankAt ch line + Config.bankOf line % 64
def rowKey (bank row : Nat) : Nat := bank * 2 ^ 24 + row % 2 ^ 24
def State.rowAt (s : State) (ch line : Nat) : Nat := rowKey (s.bankKey ch line) (Config.rowOf line)
/-- The channel serves requests: SERVICE, DEGRADED, or RETRAIN, in which the rank being trained waits (08/R249). -/
def Chan.serves (c : Chan) : Bool := c.st = .service || c.st = .degraded || c.st = .retrain
def State.servesLine (s : State) (ch line : Nat) : Bool := (s.chan ch).serves && decide ((s.chan ch).trainRank ≠ some (s.rankAt ch line))

/-! ## QoS ports (08/R246) -/

inductive PortOwner where
  | creel (n : Nat) | plaiter (unit : Nat) | hamperData | hamperKeys | pairing | lane (n : Nat) | stake | line | maintenance
  deriving DecidableEq, Repr
def portOwner (p : Nat) : PortOwner :=
  if p < 64 then .creel p else if p < 80 then .plaiter (p - 64) else if p = 80 then .hamperData else if p = 81 then .hamperKeys
  else if p = 82 then .pairing else if p < 93 then .lane (p - 83) else if p = 93 then .stake else if p = 94 then .line else .maintenance
/-- A request is served on a port: a creel's reads and writes and the requests of the other ports are counted (20/R566). -/
def State.served (s : State) (port : Nat) (read : Bool) (lat : Nat) : State :=
  match portOwner port with
  | .creel n => if read then (s.ucAdd n 8 1).ucAdd n 0x18 lat else s.ucAdd n 0x10 1
  | _ => { s with hubTraffic := s.hubTraffic.set port (s.hubTraffic.get 0 port + 1) }

/-! ## Page hints (08/R244, R245) -/

def segHint (g : Seg) : Nat := fld g.w0 7 6
/-- The hint of a request of a port. -/
def State.hintOf (s : State) (port line : Nat) : Nat :=
  match portOwner port with
  | .creel n => match s.segOf n (64 * line) with | some (_, g) => segHint g | none => 0
  | .hamperKeys => if s.skmBase ≤ 64 * line then 2 else fld (s.qos port) 21 20
  | .maintenance => 2
  | _ => fld (s.qos port) 21 20
/-- An access opens or keeps a row by its hint, which governs the row after it. Handled as close, the row stays open only while
a request to the same row has already been scheduled. -/
def Bank.access (b : Bank) (row hint now : Nat) (sameRow : Bool) : Bank :=
  let hits := (decide (b.openRow = some row) :: b.hits).take 8
  let keep := hint = 1 ∨ ((hint = 0 ∨ hint = 3) ∧ 4 ≤ (hits.filter id).length) ∨ sameRow
  { b with openRow := if keep then some row else none, hint := hint, hits := hits, used := now }
/-- How long the row stays open without an access, in ns (08/R245). -/
def Bank.patience (b : Bank) : Option Nat := if b.hint = 1 then some 1000 else if b.hint = 2 then none else some 200
/-- A time in ns has passed since a moment of the device's clock. -/
def passed (now since ns : Nat) : Bool := decide (ns * 2 ^ 32 ≤ (now - since) * 10 ^ 9)
def Chan.bank (c : Chan) (b : Nat) : Bank := c.banks.get bankReset b
def Chan.setBank (c : Chan) (b : Nat) (x : Bank) : Chan := { c with banks := c.banks.set b x }
/-- An access of a port to a row of a bank. -/
def State.bankTouch (s : State) (ch port line bank : Nat) (sameRow : Bool) : State :=
  s.modChan ch fun c => c.setBank bank ((c.bank bank).access (Config.rowOf line) (s.hintOf port line) s.clock sameRow)
def State.bankAccess (s : State) (ch port line : Nat) (sameRow : Bool) : State := s.bankTouch ch port line (s.bankKey ch line) sameRow
/-- A read that the channel makes for itself, on port 95 (08/R235, R236, R238, R246). -/
def State.maintenanceRead (s : State) (ch line : Nat) (sameRow : Bool) : State := (s.bankAccess ch 95 line sameRow).served 95 true 0
/-- A refresh of some banks closes their rows. -/
def Chan.refresh (c : Chan) (sel : Nat → Bool) : Chan :=
  { c with banks := c.banks.map fun p => if sel p.1 then (p.1, { p.2 with openRow := none }) else p }

/-! ## The reserve rank (08/R237-R239) -/

def days (n : Nat) : Nat := secs (86400 * n)
/-- Events of the last while. -/
def recent (now span : Nat) (l : List Nat) : List Nat := l.filter fun t => now < t + span
/-- A copy starts from a rank to the reserve rank, if there is one and none runs. -/
def Chan.startCopy (c : Chan) (rank : Nat) : Chan :=
  if c.copy.isSome ∨ c.reserveRank = 0 ∨ c.reserveFailed ∨ c.outOfService.isSome ∨ wayBit c.fenced rank then c
  else { c with copy := some { source := rank, boundary := 0, paused := false } }
/-- The next line of a rank of a channel, from a line on. -/
def State.nextOfRank (s : State) (ch rank start : Nat) : Option Nat :=
  (upto start (s.installed / 64 - start)).find? fun l => decide (channelOf l = ch) && decide ((s.chan ch).rankOf l = rank)
/-- The line has been copied by a copy that runs: a write to it goes to both ranks (08/R238). -/
def State.copied (s : State) (ch line : Nat) : Bool :=
  match (s.chan ch).copy with | some k => decide (s.rankAt ch line = k.source) && decide (line < k.boundary) | none => false
/-- A copy ends without effect: the reserve rank stays in reserve (08/R239). -/
def State.abandonCopy (s : State) (ch : Nat) (failed : Bool) : State :=
  if (s.chan ch).copy.isNone then s
  else (s.modChan ch fun c => { c with copy := none, reserveFailed := c.reserveFailed || failed }).finishRun
    (fun r => r.why = WaitFor.rankCopy ch) 0x0701 0
/-- The last line has been copied: the reserve rank takes the source's addresses, and the source leaves service. -/
def State.copyDone (s : State) (ch : Nat) : State :=
  match (s.chan ch).copy with
  | none => s
  | some k =>
    let s := s.modChan ch fun c => { c with copy := none, outOfService := some k.source }
    let s := s.retiredRec 5 k.source (s.chan ch).reserveRank fun _ => true
    s.finishRun (fun r => r.why = WaitFor.rankCopy ch) 0 0

/-! ## Errors at a channel (08/R233, R236, R238) -/

/-- A corrected error: kept with its decoded position and device, counted by row, rank and device; a row joins the repair list at
16 in 24 h; a rank copies at 64 rows of one device in 1 h or 10,000 errors in 24 h. -/
def State.chanCorrected (s : State) (ch line dev : Nat) : State :=
  let now := s.clock
  let row := s.rowAt ch line
  let rank := s.rankAt ch line
  let dk := 64 * rank + dev
  s.modChan ch fun c =>
    let rows := recent now (days 1) (now :: c.rowErr.get [] row)
    let ranks := recent now (days 1) (now :: c.rankErr.get [] rank)
    let devs := ((row, now) :: (c.devRows.get [] dk).filter fun p => p.1 ≠ row).filter fun p => now < p.2 + secs 3600
    let c := { c with corrected := c.corrected + 1, events := ((Config.position line).toNat, dev) :: c.events, rowErr := c.rowErr.set row rows, rankErr := c.rankErr.set rank ranks,
                      devRows := c.devRows.set dk devs,
                      repair := if 16 ≤ rows.length then setInsert c.repair row else c.repair }
    if 64 ≤ devs.length ∨ 10000 ≤ ranks.length then c.startCopy rank else c
/-- An uncorrectable line: marked poisoned in memory, a deferred error, and its row joins the repair list. A line of the reserve
rank has no address: the device log alone has the error (08/R235). -/
def State.chanUncorrectable (s : State) (ch line : Nat) : State :=
  let s := s.modChan ch fun c => { c with repair := setInsert c.repair (s.rowAt ch line) }
  if 64 * line < s.installed then (s.markPoison line).deferred 3 0x20 (64 * line) ch (Config.position line).toNat
  else s.deferredTo none 3 0x20 0 ch (Config.position line).toNat
/-- A corrected error counts for the creel whose segment holds the line (17/R507). -/
def State.chanFixed (s : State) (ch line dev : Nat) : State :=
  let t := s.chanCorrected ch line dev
  match t.segHolder (64 * line) with | some c => t.creelCorrected c | none => t
/-- An error in more than two devices, of which the code promises nothing: the read comes out in any of the three ways, and what
is not poisoned may be any data (log entry 132). -/
def State.chanBeyond (s : State) (ch line dev : Nat) : State :=
  let s' := s.spend
  match s.drawn .unstated % 3 with
  | 0 => s'.chanUncorrectable ch line
  | 1 => (s'.scramble (64 * line) (64 * line + 64)).chanFixed ch line dev
  | _ => s'.scramble (64 * line) (64 * line + 64)
/-- How a read of a line comes out: the code corrects an error of one device and detects one of two devices and a line of another
address (08/R232); then the read is clean, corrected or uncorrectable (08/R233). -/
def State.chanOutcome (s : State) (ch line : Nat) (o : ReadOutcome) : State :=
  if s.poisoned line then s
  else match o with
    | .clean => s
    | .wrongAddress => s.chanUncorrectable ch line
    | .errors d more =>
      match (more.filter (· ≠ d)).eraseDups with
      | [] => s.chanFixed ch line d
      | [_] => s.chanUncorrectable ch line
      | _ => s.chanBeyond ch line d

/-! ## QoS statistics (08/R247, R248, R243; 09/R271) -/

/-- est + (latency − est) / 16, rounded down (log entry 15). -/
def estNext (est lat : Nat) : Nat := sat16 (((16 * est + lat : Nat) - (est : Int)) / 16).toNat
/-- The urgency of a request by its latency target and its age (08/R248). -/
def urgency (target age : Nat) : Nat := if target = 0xFFFF then 0 else min 7 (8 * age / target)
/-- A read completes: a late one counts in misses; one of a creel that waited at urgency 7 behind a mirror write is a breach, but
never for a throttled port (08/R243, R248). -/
def State.readDone (s : State) (ch port lat : Nat) (yielded : Bool) : State :=
  let target := targetOf (s.qos port)
  let late := target ≠ 0xFFFF ∧ target < lat
  let c := s.chan ch
  let thr := c.banks.any fun b => b.2.throttled.contains port
  let q := c.qstat port
  let q' : QosStat := { q with est := estNext q.est lat, misses := if late then sat16 (q.misses + 1) else q.misses }
  let s := s.setChan ch { c with stat := c.stat.set port q' }
  let s := s.served port true lat
  match portOwner port with
  | .creel n => if late ∧ yielded ∧ urgency target lat = 7 ∧ !thr then s.breach n 1 else s
  | _ => s

/-- CHANNEL_READ: a read of a port completes (08/R233, R243, R247, R248). -/
def execChannelRead (ch : ChanId) (line : LineNo) (port : QosPort) (out : ReadOutcome) (latencyNs : Nat) (yielded : Bool)
    (sameRow : Bool) (s : State) : Out :=
  let l := line.toNat
  if !s.servesLine ch l ∨ channelOf l ≠ ch.val ∨ s.region (64 * l) ≠ .dram then .next s
  else
    let s := (s.bankAccess ch port l sameRow).readDone ch port latencyNs yielded
    .next (if s.fencedLine l then s else s.chanOutcome ch l out)

/-- CHANNEL_WRITE: the line is stored, with the reserved pattern if it is poisoned; one to a fenced rank is discarded and
counted, and the writing creel receives an error (08/R234, R251). A line that a rank copy has copied goes to both ranks (08/R238). A
writeback in the victim buffer is issued (07/R220). -/
def execChannelWrite (ch : ChanId) (line : LineNo) (port : QosPort) (sameRow : Bool) (s : State) : Out :=
  let l := line.toNat
  if !s.servesLine ch l ∨ channelOf l ≠ ch.val ∨ s.region (64 * l) ≠ .dram then .next s
  else
    let s := s.bankAccess ch port l sameRow
    let s := if s.copied ch l then s.bankTouch ch port l (64 * (s.chan ch).reserveRank + Config.bankOf l % 64) sameRow else s
    let s := s.served port false 0
    let x := s.slice (homeOf l)
    let s := s.setSlice (homeOf l) { x with victims := x.victims.map fun v => if v.line = l then { v with issued := true } else v }
    if s.fencedLine l then .next ((s.markPoison l).fencedWrite (match portOwner port with | .creel n => some n | _ => none) l)
    else .next s

/-! ## Row disturbance (08/R240-R243) -/

/-- A port's activation of a row: up to four ports, the latest first; a fifth takes the place of the lowest count. -/
def portTouch (ps : List (Nat × Nat)) (port : Nat) : List (Nat × Nat) :=
  match ps.find? fun p => p.1 = port with
  | some p => (port, p.2 + 1) :: ps.filter fun q => q.1 ≠ port
  | none =>
    if ps.length < 4 then (port, 1) :: ps
    else
      let low := (ps.map (·.2)).foldl min (ps.headD (0, 0)).2
      match ps.reverse.find? fun q => q.2 = low with
      | some q => (port, 1) :: ps.erase q
      | none => (port, 1) :: ps
/-- The port with the highest count; the list is latest first, so the first of equals is the latest. -/
def topPort (ps : List (Nat × Nat)) : Nat :=
  (ps.foldl (fun (b : Nat × Nat) p => if b.2 < p.2 then p else b) (0, 0)).1
/-- The tracker after an activation of a row, with the entry that now counts it and its count before. -/
def trackTouch (t : List Track) (row port : Nat) : List Track × Track × Nat :=
  match t.find? fun e => e.row = row with
  | some e =>
    let e' := { e with count := e.count + 1, since := e.since + 1, ports := portTouch e.ports port }
    (t.map fun d => if d.row = row then e' else d, e', e.count)
  | none =>
    if t.length < 32 then
      let e : Track := { row := row, count := 1, since := 1, ports := [(port, 1)] }
      (t ++ [e], e, 0)
    else
      let low := (t.map (·.count)).foldl min (t.headD { row := 0, count := 0, since := 0, ports := [] }).count
      let e : Track := { row := row, count := low + 1, since := low + 1, ports := [(port, 1)] }
      (match t.find? fun d => d.count = low with
        | some d => t.map fun x => if x = d then e else x
        | none => t ++ [e], e, 0)
/-- A throttled port activates a row of the bank at most once in 2 µs, whatever its urgency (08/R242, R243). -/
def Bank.holds (b : Bank) (port now : Nat) : Bool := b.throttled.contains port && b.acts.has port && !passed now (b.acts.get 0 port) 2000
/-- ROW_ACTIVATION: the bank's tracker counts; at the mitigation threshold the bank gets refresh management, at the
throttle threshold the port with the most activations of the row is throttled. An activation that a throttle holds waits. -/
def execRowActivation (ch : ChanId) (bank row : Nat) (port : QosPort) (s : State) : Out :=
  let c := s.chan ch
  let b := c.bank bank
  if b.holds port s.clock then .next s else
  let (t, e, before) := trackTouch b.track row port
  let mit := s.stake.mitigation ≤ e.since
  let t := if mit then t.map fun d => if d.row = row then { d with since := 0 } else d else t
  let s := if mit then s.emit 3 [ch, bank] else s
  let b := { b with track := t, openRow := if mit then none else b.openRow, acts := b.acts.set port s.clock }
  let p := topPort e.ports
  if before < s.stake.throttle ∧ s.stake.throttle ≤ e.count ∧ !b.throttled.contains p then
    let q := c.qstat p
    let s := s.setChan ch { c.setBank bank { b with throttled := p :: b.throttled } with
      stat := c.stat.set p { q with hammer := sat16 (q.hammer + 1) } }
    .next (match portOwner p with | .creel n => s.notice n 2 6 | _ => s.note 3 ch p)
  else .next (s.setChan ch (c.setBank bank b))
/-- REFRESH_WINDOW_END: every row has been refreshed; throttles clear and the counts start again. -/
def execRefreshWindowEnd (ch : ChanId) (s : State) : Out :=
  .next (s.modChan ch fun c =>
    { c with banks := c.banks.map fun p => (p.1, { p.2 with track := [], throttled := [], acts := [], openRow := none }) })
/-- BACK_OFF_ALERT: the alert is answered with refresh management of the alerting rank (08/R240). -/
def execBackOffAlert (ch : ChanId) (rank : Fin 8) (s : State) : Out :=
  .next ((s.modChan ch fun c => c.refresh fun b => b / 64 == rank.val).emit 3 [ch, 64 * rank.val])
/-- OPEN_ROW_TIMEOUT: a row open for 1 µs without an access, or 200 ns under controller's choice, is precharged (08/R245). -/
def execOpenRowTimeout (ch : ChanId) (bank : Nat) (s : State) : Out :=
  let b := (s.chan ch).bank bank
  match b.patience with
  | some ns => if passed s.clock b.used ns then .next (s.modChan ch fun c => c.setBank bank { b with openRow := none }) else .next s
  | none => .next s

/-! ## Scrub and repair (08/R235, R236) -/

/-- The line numbers of a channel that scrub reads: the installed capacity, then a reserve rank that is not in service. -/
def State.scrubTop (s : State) (ch : Nat) : Nat :=
  let top := s.installed / 64
  let c := s.chan ch
  if c.reserveRank = 0 ∨ c.outOfService.isSome then top else top + top / max 1 c.ranks
/-- The next line of a channel after a position, wrapping at the end. -/
def State.nextLine (s : State) (ch pos : Nat) : Nat :=
  (((upto (pos + 1) 256).map (· % max 1 (s.scrubTop ch))).find? fun l => channelOf l = ch).getD 0
/-- SCRUB: the next line is read; a corrected line is written back corrected, an uncorrectable one poisoned. Fenced
ranks are skipped; the held-out rows are no lines. -/
def execScrub (ch : ChanId) (out : ReadOutcome) (s : State) : Out :=
  let l := s.nextLine ch (s.chan ch).scrubPos
  if !s.servesLine ch l ∨ s.installed = 0 then .next s
  else
    let s := s.modChan ch fun c => { c with scrubPos := l }
    .next (if wayBit (s.chan ch).fenced (s.rankAt ch l) then s else (s.maintenanceRead ch l false).chanOutcome ch l out)
/-- The lines of a row, lowest first. -/
def State.rowLines (s : State) (ch row : Nat) : List Nat :=
  (List.range (s.installed / 64)).filter fun l => decide (channelOf l = ch) && decide (s.rowAt ch l = row)
/-- The channel reads the lines of a row for repair, each with its outcome. -/
def State.repairReads (s : State) (ch : Nat) : List Nat → List ReadOutcome → State
  | [], _ => s
  | l :: ls, os => ((s.maintenanceRead ch l true).chanOutcome ch l (os.headD .clean)).repairReads ch ls os.tail
/-- ROW_REPAIR: where the module offers soft repair for the bank, the lines of a listed row are read, corrected where
possible, the repair is applied and they are written back, poison marks preserved; the row's errors are gone. It stays on the
list for hard repair at the next start. -/
def execRowRepair (ch : ChanId) (bank row : Nat) (soft : Bool) (outs : List ReadOutcome) (s : State) : Out :=
  let k := rowKey bank row
  let c := s.chan ch
  if c.repair.contains k ∧ soft ∧ c.serves ∧ c.trainRank ≠ some (bank / 64) ∧ !wayBit c.fenced (bank / 64) then
    .next ((s.repairReads ch (s.rowLines ch k) outs).modChan ch fun c => { c with rowErr := c.rowErr.erase k })
  else .next s
/-- The copy of a channel may go on: not during a speed change, nor a retraining step of either rank (08/R239). -/
def Chan.copyGoes (c : Chan) (k : RankCopy) : Bool :=
  !k.paused && c.serves && decide (c.trainRank ≠ some k.source) && decide (c.trainRank ≠ some c.reserveRank)
/-- RANK_COPY_LINE: the next line is read and written to the reserve rank on port 95; one that is uncorrectable in the source is
copied marked poisoned. -/
def execRankCopyLine (ch : ChanId) (out : ReadOutcome) (s : State) : Out :=
  match (s.chan ch).copy with
  | some k =>
    if !(s.chan ch).copyGoes k then .next s
    else match s.nextOfRank ch k.source k.boundary with
      | none => .next s
      | some l =>
        let s := (s.maintenanceRead ch l false).chanOutcome ch l out
        let s := s.bankTouch ch 95 l (64 * (s.chan ch).reserveRank + Config.bankOf l % 64) false
        .next ((s.served 95 false 0).modChan ch fun c => { c with copy := some { k with boundary := l + 1 } })
  | none => .next s
def execRankCopyCompletion (ch : ChanId) (s : State) : Out :=
  match (s.chan ch).copy with
  | some k => if (s.nextOfRank ch k.source k.boundary).isSome ∨ !(s.chan ch).copyGoes k then .next s else .next (s.copyDone ch)
  | none => .next s

/-! ## Retraining and speed (08/R249-R251) -/

def State.training (s : State) : Bool := (List.range 16).any fun ch => (s.chan ch).trainRank.isSome || (s.chan ch).st = .training
def State.changing (s : State) : Bool := (List.range 16).any fun ch => (s.chan ch).st = .speedChange
/-- Where a channel stands when nothing holds it. -/
def Chan.resume (c : Chan) : Chan := { c with st := if c.fenced = 0 then .service else .degraded }
/-- A speed change begins with the first channel; the channels change one at a time (08/R250). What it replaces is kept. -/
def State.speedBegin (s : State) (r : RunCmd) (bin : Nat) : State :=
  let old := [w64 (s.chan 0).bin]
  (s.modChan 0 fun c => { c with st := .speedChange }).modStake fun m =>
    { m with started := m.started.map fun q => if q = r then { r with why := .changing bin 0, old := old } else q }
/-- A deferred or queued change begins, the oldest first, once no channel trains and none changes (08/R249, R250). Its bin needs a
known-good setting in every channel. -/
def State.deferredSpeed (s : State) : State :=
  if s.training ∨ s.changing then s
  else match s.stake.started.find? fun r => match r.why with | .speed _ _ => true | _ => false with
    | some r =>
      match r.why with
      | .speed b _ =>
        if (List.range 16).any fun i => (s.chan i).st = .untrained then s
        else if (List.range 16).all fun i => (s.chan i).known.contains b then s.speedBegin r b
        else s.finishRun (· == r) 0x0105 0
      | _ => s
    | none => s
/-- The channel that changes takes the known-good setting of the new bin and resumes, and the next one begins; after the last the
command completes. A copy that runs starts again from the first line of its rank (23/R610). -/
def State.speedStep (s : State) (r : RunCmd) (bin ch : Nat) : State :=
  let s := s.modChan ch fun c => { c.resume with bin := bin, copy := c.copy.map fun k => { k with boundary := 0 } }
  if ch < 15 then
    (s.modChan (ch + 1) fun c => { c with st := .speedChange }).modStake fun m =>
      { m with started := m.started.map fun q => if q = r then { r with why := .changing bin (ch + 1) } else q }
  else (s.finishRun (· == r) 0 0).deferredSpeed
/-- A creel has a segment in some ranks of a channel (09/R268). -/
def State.segInRanks (s : State) (cr ch mask : Nat) : Bool :=
  (s.creel cr).segs.any fun p => tbit p.2.w0 0 &&
    ((upto (fld p.2.w0 51 12 * 64) ((fld p.2.w1 51 12 + 1 - fld p.2.w0 51 12) * 64)).any fun l =>
      decide (64 * l < s.installed) && decide (channelOf l = ch) && wayBit mask ((s.chan ch).rankOf l))
/-- Ranks are fenced: the channel is DEGRADED, a copy from one is abandoned, every creel with a segment in one receives an error,
the Stake records it and recommends failover (08/R251, R239; 09/R268). -/
def State.fence (s : State) (ch mask : Nat) : State :=
  let s := match (s.chan ch).copy with
    | some k => if wayBit mask k.source then s.abandonCopy ch false else s
    | none => s
  let s := s.modChan ch fun c => { c with fenced := c.fenced ||| mask, st := .degraded }
  let hit := (List.range 64).filter fun cr => (s.creel cr).st != .unassigned && s.segInRanks cr ch mask
  ((hit.foldl (fun s cr => s.creelError cr 2 3 0x22 0 ch mask) s).note 3 ch mask).recommend
/-- A rank is due for retraining: 128 ms after its last training, or at once when its module's temperature has moved 8 °C. -/
def Chan.trainDue (c : Chan) (rank now : Nat) (temp : Int) : Bool :=
  match c.trained.lookup rank with
  | some (t, x) => passed now t 128000000 || decide (8 ≤ (temp - x).natAbs)
  | none => true
/-- RETRAINING: a step of a rank begins, or ends with a passing setting or with none. Then the channel enters FALLBACK with the
known-good setting of the next lower bin, once since start-up; the row that follows gives the ranks that fail there, which are
fenced. No step begins during a speed change. -/
def execRetraining (ch : ChanId) (rank : Fin 8) (begins passes : Bool) (temp : Int) (fallbackFails : BitVec 8) (s : State) : Out :=
  let c := s.chan ch
  if begins then
    if (c.st = .service ∨ c.st = .degraded) ∧ !s.changing ∧ !wayBit c.fenced rank ∧ c.trainDue rank s.clock temp then
      .next (s.setChan ch { c with st := .retrain, trainRank := some rank.val })
    else .next s
  else if c.st = .fallback then
    let s := s.modChan ch Chan.resume
    .next (if fallbackFails = 0 then s.note 3 ch c.bin else s.fence ch fallbackFails.toNat).deferredSpeed
  else if c.trainRank ≠ some rank.val then .next s
  else
    let s := s.modChan ch fun c => { c.resume with trainRank := none }
    if passes then .next (s.modChan ch fun c => { c with trained := c.trained.set rank (s.clock, temp) }).deferredSpeed
    else if c.reserveRank = rank.val ∧ c.outOfService.isNone then
      .next ((s.abandonCopy ch true).modChan ch fun c => { c with reserveFailed := true }).deferredSpeed
    else
      let lower := (c.known.filter (· < c.bin)).foldl max 0
      if lower = 0 ∨ c.fellBack then .next (s.fence ch (2 ^ rank.val)).deferredSpeed
      else .next (s.modChan ch fun c => { c with st := .fallback, bin := lower, fellBack := true })
/-- SPEED_CHANGE_DEFERRAL_EXPIRY: a change still deferred after 2 ms is refused with STATUS_BUSY (08/R250). -/
def execSpeedChangeDeferralExpiry (s : State) : Out :=
  if !s.training then .next s
  else .next (s.finishRun (fun r => match r.why with | .speed _ t => t + 2 ^ 32 / 500 ≤ s.clock | _ => false) 0x0402 0)
/-- THROUGHPUT_INTERVAL: a port that waited throughout and got less than its share because others went first at higher
urgency (09/R271). -/
def execThroughputInterval (_ch : ChanId) (port : QosPort) (waiting belowShare : Bool) (s : State) : Out :=
  match portOwner port with
  | .creel n => if waiting ∧ belowShare then .next (s.breach n 0) else .next s
  | _ => .next s

end Sys2Proof.Machine
end

