-- ==== Sys2Proof/Machine/Records.lean ====
section
/-!
DEFINITION. What many commands of the Stake share: memory keys and unpredictable contents (21/R571, R572), the configuration
record and its slots (18/R533-R536), the release of a creel with its image (18/R530), zeroization and the stop of the
device (21/R569, R570).
-/
namespace Sys2Proof.Machine

/-! ## Memory keys of a grant (21/R571, R572) -/

/-- Memory whose key changed reads as unpredictable values; device windows hold no such memory. -/
def State.scrambleRange (s : State) (r : Nat × Nat) : State :=
  if r.1 < min r.2 0x100000000000 then s.scramble r.1 (min r.2 0x100000000000) else s
/-- The creel's memory key is replaced. -/
def State.rekey (s : State) (cr : Nat) : State := (s.grantRanges cr).foldl State.scrambleRange s

/-! ## The configuration record (18/R533-R536) -/

def State.unitMask (s : State) (cr : Nat) : Nat := (s.unitsOf cr).foldl (fun m u => m ||| 2 ^ u) 0
def State.creelCfg (s : State) (cr : Nat) : CreelCfg :=
  let c := s.creel cr
  { cores := s.coresOf cr, units := s.unitMask cr, grants := c.grants, quota := c.quota, wayMask := c.wayMask, exclMask := c.exclMask,
    boot := if s.stake.boots.has cr then some (s.stake.boots.get bootRecReset cr) else none, policy := s.pairCfg cr,
    assigned := decide (c.st ≠ .unassigned) }
/-- The working copy of the record. -/
def State.cfgRecord (s : State) : CfgRec :=
  { pat := s.stake.pat, creds := s.stake.creds, creels := (List.range 64).map fun n => (n, s.creelCfg n), qos := s.qosCfg,
    dev := s.stake.dev, bin := (s.chan 0).bin, scrub := s.stake.scrub, mitigation := s.stake.mitigation, throttle := s.stake.throttle,
    waysOff := ((List.range 224).map fun i => (i, (s.slice i).off)).filter fun p => p.2 != 0, hoop := s.stake.hoopCfg,
    witness := s.stake.witness, window := s.stake.upd.window, mode := s.stake.upd.mode }
/-- The configuration formats that the running firmware reads, and the one it writes (18/R524); release 3.2 where no slot ran. -/
def State.fwField (s : State) (off dflt : Nat) : Nat :=
  let b := (s.stake.imgs.get imgReset s.stake.upd.running).bytes
  if b = [] then dflt else leNat ((b.drop off).take 2)
def State.fmtWritten (s : State) : Nat := s.fwField 0x14 3
/-- The root from which the configuration MAC key derives (11/R306). -/
def State.cfgRoot (s : State) : Bytes := if s.bbkm.life ≤ 1 then s.bbkm.root else s.bbkm.ownerRoot
/-- The body of the record, of a length that the spec does not give. -/
def State.cfgWrite (s : State) (slot seq : Nat) : State :=
  let n := 1 + s.drawn .unstated % 4190208
  let r : CfgSlot := { seq := seq, fmt := s.fmtWritten, bodyLen := n, macRoot := s.cfgRoot, body := s.cfgRecord }
  s.spend.modStake fun m => { m with cfgs := m.cfgs.set slot r, cfgLast := slot }
/-- A write of the record goes to the other slot, one above the higher sequence number; answers that number (R536). -/
def State.cfgSave (s : State) : State × Nat :=
  let seq := max (s.stake.cfgs.get cfgSlotReset 0).seq (s.stake.cfgs.get cfgSlotReset 1).seq + 1
  (s.cfgWrite (1 - s.stake.cfgLast) seq, seq)

/-- A write of the record that was cut short: the slot was erased and stays invalid (18/R521, R534). -/
def State.cfgCut (s : State) : State := s.modStake fun m => { m with cfgs := m.cfgs.erase (1 - m.cfgLast) }
/-- A flash fault in such a write: the block is retired as well (R536; its number counts 4 KiB of flash 1, log entry 20). -/
def State.cfgFault (s : State) : State := s.cfgCut.retireBlock 1 (1024 * (1 - s.stake.cfgLast))

/-! ## The release of a creel with its boot image (18/R530) -/

/-- The image is copied and its digest checked; a mismatch is recorded and leaves the creel STOPPED. -/
def State.bootRelease (s : State) (cr reason : Nat) : State × Bool :=
  let b := s.stake.boots.get bootRecReset cr
  let img := s.stake.bootImgs.get [] cr
  if sha384 img ≠ b.digest then (s.note 0xA cr 0x530, false)
  else ((s.unitWrite cr b.loadAddr img).releaseCreel cr reason, true)

/-! ## The end of a warm reset (18/R522, R530) -/

/-- Creels whose boot records ask for it are to be released with a reason (18/R530); in TAMPERED and RETIRED no
creel runs (10/R293). -/
def State.autostart (s : State) (reason : Nat) : State :=
  let l := (List.range 64).filter fun c => s.bbkm.life < 6 && (s.creel c).st ≠ .unassigned && (s.stake.boots.get bootRecReset c).autostart
  s.modStake fun m => { m with due := l.map fun c => (c, reason) }
/-- Step 4: every lane group enters start-up, and its root ports get a hot reset. -/
def State.warmLg (s : State) (n : Nat) : State :=
  let g := s.lg n
  if fld g.cfg 2 0 = 1 then
    (s.setLg n { g with ctl := 1, linkUp := 0, wasUp := 0, cxlUp := 0, reqs := g.reqs.filter (fun r => r.what = 1), quarantine := [] }).emit 12 [n]
  else s.setLg n { g with ctl := 1 }
/-- Steps 3 to 5 of R522. -/
def State.warmRest (s : State) : State :=
  let s := (List.range 64).foldl (fun s c => if (s.stake.boots.get bootRecReset c).retain then s else s.rekey c) s
  ((List.range 10).foldl State.warmLg s).autostart 1
/-- A warm reset goes on once no creel's reset is held (05/R172). -/
def State.warmGo (s : State) : State :=
  if s.stake.warm ∧ !(s.resetting.any fun p => p.2 == 2) then (s.modStake fun m => { m with warm := false }).warmRest else s

/-! ## Zeroization (11/R305; 21/R570) -/

def State.zeroize (s : State) (life : Nat) : State :=
  let s := (List.range 64).foldl State.rekey s
  let s := s.modVault fun v => { v with objs := [], cache := [], arqc := [], sess := [], startKey := zeros 32 }
  let s : State := { s with seqs := s.seqs.map fun p => if p.1 < 14 then (p.1, { p.2 with x := ctxReset }) else p }
  let s := s.modStake fun m => { m with session := none, comps := [], approvals := [], auditors := [] }
  { s with seals := [], bbkm := { bbkmReset with life := life, startCount := s.bbkm.startCount } }
/-- The cores of the device stop, and their buffered stores are discarded and counted (17/R518 row 3). -/
def haltCore (c : Core) : Core :=
  { c with run := .stopped, sb := [], wc := [], parked := none, dev := none, strict := [], discarded := c.discarded + c.buffered }
/-- Heartbeats stop, PFENCE_OUT goes low, links go down, cores stop, uncommitted Hamper commands are abandoned (21/R569 row 3;
17/R518 rows 2 and 3). The creels that ran are STOPPED. -/
def State.haltDevice (s : State) : State :=
  let s := (List.range 16).foldl State.endUnit s
  let s := s.modVault fun v => { v with active := [] }
  { s with
    cores := s.cores.map fun p => (p.1, haltCore p.2), seqs := s.seqs.map fun p => (p.1, if p.1 = 86 then p.2 else { p.2 with run := false, ops := [], miss := none }),
    creels := s.creels.map fun p => (p.1, if p.2.st = .unassigned then p.2 else { p.2 with st := .stopped }), resetting := [],
    lgs := s.lgs.map fun p => (p.1, { p.2 with linkUp := 0, reqs := [], quarantine := [] }),
    lports := s.lports.map fun p => (p.1, { p.2 with up := false }), pair := { pairReset with fenceIn := s.pair.fenceIn } }
/-- What a started command has changed so far is as before (10/R294): way masks, ways in power-down, a ring that stops, a rank copy,
speeds, the state of an update. -/
def State.undo (s : State) (r : RunCmd) : State :=
  let c := r.cmd
  let old := fun (i : Nat) => (r.old.getD i 0).toNat
  match c.op with
  | 0x0205 => s.modCreel c.creel fun x => { x with wayMask := old 0, exclMask := old 1 }
  | 0x0307 => (List.range 224).foldl (fun s i =>
      if c.n 2 = 0xFFFF ∨ c.n 2 = i then
        let x := s.slice i
        s.setSlice i { x with powerCleaning := x.powerCleaning - (x.powerCleaning &&& 3 * 4 ^ c.n 3) }
      else s) s
  | 0x020D =>
    if c.n 2 = 1 then s.setHring (c.n 3) { s.hring (c.n 3) with stopping := false }
    else s.setPq (c.n 3) { s.pq (c.n 3) with ring := { (s.pq (c.n 3)).ring with stopping := false } }
  | 0x0303 => s.modChan (c.n 2) fun x => { x with copy := none }
  | 0x0302 =>
    match r.why with
    | .changing _ ch => (List.range (ch + 1)).foldl (fun s i => s.modChan i fun x =>
        { x with bin := old 0, st := if x.st = .speedChange then (if x.fenced = 0 then .service else .degraded) else x.st }) s
    | _ => s
  | 0x0502 => s.modStake fun m => { m with upd := { m.upd with st := 1 } }
  | 0x0504 => s.modStake fun m => { m with upd := { m.upd with st := 3 } }
  | _ => s
/-- Every command that has not committed its effect is abandoned with no effect, 0x0300 and result 6 (10/R294). -/
def State.abandonAll (s : State) : State :=
  let l := s.stake.accepted ++ s.stake.started.map (·.cmd)
  l.foldl (fun s c => s.complete c 0x0300 6 []) ((s.stake.started.foldl State.undo s).modStake fun m => { m with accepted := [], started := [] })

end Sys2Proof.Machine
end

