-- ==== Sys2Proof/Machine/Creels.lean ====
section
/-!
DEFINITION. The Stake's commands for the device and for creels (10/R296-R299; 09/R252-R267; 21/R573, R574; 22/R602).
-/
namespace Sys2Proof.Machine

/-! ## The device (0x0001 to 0x010B) -/

def execEcho (p : Slot) (k : Fin 16) (s : State) : Out := stakeRow p k 0x0001 (fun s c => s.done c 0 (c.n 2)) s
/-- The reply's words stand in the order in which the table names them, then the debug latch. -/
def execDeviceStatus (p : Slot) (k : Fin 16) (s : State) : Out :=
  stakeRow p k 0x0002 (fun s c => s.done c 0 0
    [w64 s.bbkm.life, w64 s.mirrorCode, w64 s.hoop.st, w64 s.fwRelease, w64 (b2n s.stake.debug)]) s
def recWords (r : Rec) : List W64 := [r.w0, r.w1, r.w2, r.w3]
/-- The page of a unit: its corrected and its deferred errors, then its records (17/R507, R509). -/
def UBank.page (b : UBank) : List W64 := w64 b.corrected :: w64 b.deferred :: b.recs.flatMap recWords
/-- Up to 176 bytes of the device log from a byte offset; with bit 63 set, of the page of unit kind [47:32], instance [31:16], from
the byte offset [15:0] (17/R509; log entry 52). -/
def execLogRead (p : Slot) (k : Fin 16) (s : State) : Out :=
  stakeRow p k 0x0003 (fun s c =>
    if tbit (c.w 2) 63 then
      s.done c 0 0 (((s.bank (fld (c.w 2) 47 32) (fld (c.w 2) 31 16)).page.drop (fld (c.w 2) 15 0 / 8)).take 22)
    else
    let recs := (s.log.drop (c.n 2 / 32)).take 7
    s.done c 0 0 (((recs.flatMap recWords).drop (c.n 2 % 32 / 8)).take 22)) s
/-- The trip limits of a sensor (R602; 21/R568); a limit that does not exist reads 2^63. The dark level of the photodiodes is
fused and not stated, as is the limit of an enclosure input as a reading. -/
def sensorLimits (s : State) (n : Nat) : W64 × W64 :=
  let none_ := w64 0x8000000000000000
  if n ≤ 8 then (w64 (2 ^ 64 - 2500), 12500)
  else if 16 ≤ n ∧ n ≤ 21 then (580, 1020)
  else if n = 27 then (2200, 4000)
  else if n = 40 then (w64 (2 ^ 64 - 2000), 2000)
  else if 41 ≤ n then (none_, w64 (Config.free .measured (s.free + 1)))
  else (none_, none_)
/-- A reading of VBAT: below 2.6 V updates are refused, and confirmation is put off (18/R537, R542). -/
def State.vbatRead (s : State) (low : Bool) : State :=
  s.modStake fun m => { m with upd := { m.upd with lowVbat := low, holds := if low then s.clock else m.upd.holds } }
def execSensorRead (p : Slot) (k : Fin 16) (s : State) : Out :=
  stakeRow p k 0x0004 (fun s c =>
    let n := c.n 2
    let v := if 42 ≤ n then s.drawn .measured % 2 else s.drawn .measured
    let s := if n = 27 then s.vbatRead (decide (v < 2600)) else s
    let l := sensorLimits s n
    s.spend.spend.done c 0 0 [w64 v, l.1, l.2]) s
/-- The owner's roots come from the DRBG, the cards of the session are enrolled, both slots are erased and slot A is
written with sequence number 1 (11/R304, R306; 18/R536). -/
def execTakeOwnership (p : Slot) (k : Fin 16) (flashFault : Bool) (s : State) : Out :=
  stakeRow p k 0x0101 (fun s c =>
    if flashFault then ((s.modStake fun m => { m with cfgs := [] }).retireBlock 1 0).done c 0x0701
    else
      let (s, r1) := s.random 64 32
      let (s, r2) := s.random 64 32
      let cards := match s.stake.session with | some e => [e.c0, e.c1] | none => []
      let digest := ((upto 2 6).flatMap fun i => toLe 8 (c.n i))
      let s := s.modBbkm fun b => { b with ownerRoot := r1, storageRoot := r2, ownerDigest := digest, cards := cards, life := 2 }
      let s := s.modStake fun m => { m with cfgs := [] }
      (s.cfgWrite 0 1).done c 0) s
def lifeTo (n : Nat) (s : State) (c : Cmd) : State := (s.modBbkm fun b => { b with life := n }).done c 0
def execCeremonyOpen (p : Slot) (k : Fin 16) (s : State) : Out := stakeRow p k 0x0102 (lifeTo 3) s
/-- The configuration slots are written first (R536); a flash fault leaves the device in CEREMONY. -/
def execCeremonyClose (p : Slot) (k : Fin 16) (flashFault : Bool) (s : State) : Out :=
  stakeRow p k 0x0103 (fun s c => if flashFault then s.cfgFault.done c 0x0701 else lifeTo 4 s.cfgSave.1 c) s
def execOwnerLock (p : Slot) (k : Fin 16) (s : State) : Out := stakeRow p k 0x0104 (lifeTo 5) s
def execOwnerUnlock (p : Slot) (k : Fin 16) (s : State) : Out := stakeRow p k 0x0105 (lifeTo 4) s
/-- RETIRE zeroizes as a tamper does; the state is latched in a fuse (R293). -/
def execRetire (p : Slot) (k : Fin 16) (s : State) : Out :=
  stakeRow p k 0x0106 (fun s c =>
    let s := (s.done c 0).haltDevice.zeroize 7
    s.modStake fun m => { m with retired := true }) s
/-- At most eight cards are enrolled (R295). -/
def execOfficerEnroll (p : Slot) (k : Fin 16) (cert : BitVec 384) (s : State) : Out :=
  stakeRow p k 0x0107 (fun s c =>
    if s.bbkm.cards.contains cert.toNat then s.done c 0
    else if 8 ≤ s.bbkm.cards.length then s.done c 0x0501
    else (s.modBbkm fun b => { b with cards := b.cards ++ [cert.toNat] }).done c 0) s
/-- The sessions of the auditor ports whose credential changed end (R299). -/
def State.credChanged (s t : State) : State :=
  [0, 1].foldl (fun t a => if s.credOf (65 + a) = t.credOf (65 + a) then t
    else t.modStake fun m => { m with auditors := m.auditors.erase a }) t
/-- R287: role, the creel of any but an auditor port and the enabled bit of the officer port are fixed. -/
def execPatWrite (p : Slot) (k : Fin 16) (s : State) : Out :=
  stakeRow p k 0x0108 (fun s c =>
    let n := c.n 2
    let old := s.patEntry n
    let v := c.w 3
    if fld v 14 12 ≠ fld old 14 12 ∨ (n ≠ 65 ∧ n ≠ 66 ∧ patCreel v ≠ patCreel old) ∨ (n = 64 ∧ !patEnabled v) then s.done c 0x0105
    else (s.credChanged (s.modStake fun m => { m with pat := m.pat.set n v })).done c 0) s
def execPatRead (p : Slot) (k : Fin 16) (s : State) : Out :=
  stakeRow p k 0x0109 (fun s c => s.done c 0 0 [s.patEntry (c.n 2)]) s
/-- The sessions of the vault close. -/
def State.closeSessions (s : State) : State :=
  s.modVault fun v => { v with sess := v.sess.map fun q => (q.1, if q.2.closed = 0 then { q.2 with closed := 5 } else q.2) }
/-- R573: heartbeats and fence stop, every creel stops as CREEL_STOP does, keys, memory keys, sealed fields and sessions go,
the unlock is recorded, the latch is set. -/
def execDebugUnlock (p : Slot) (k : Fin 16) (s : State) : Out :=
  stakeRow p k 0x010A (fun s c =>
    let s := s.modPair fun q => { q with fenceOut := false, holds := false, up := 0, st := if q.st = 0 then 0 else 1 }
    let s := ((List.range 64).filter fun n => (s.creel n).st = .running).foldl (fun s n => s.creelReset n 1) s
    let s := (List.range 64).foldl State.rekey s
    let s := (s.modVault fun v => { v with objs := [], cache := [] }).closeSessions
    let s := { s with seals := [] }
    let s := (s.modStake fun m => { m with debug := true }).note 0xA 0 0x573
    s.done c 0) s
/-- CRED_SET answers with the digest of the device's management key (R299). -/
def execCredSet (p : Slot) (k : Fin 16) (s : State) : Out :=
  stakeRow p k 0x010B (fun s c =>
    let d := (upto 3 6).flatMap fun i => toLe 8 (c.n i)
    let empty := (upto 3 6).all fun i => c.n i = 0
    let t := s.modStake fun m => { m with creds := if empty then m.creds.erase (c.n 2) else m.creds.set (c.n 2) d }
    let g := (Config.mgmtDigest s.bbkm.ownerRoot ++ zeros 48).take 48
    (s.credChanged t).done c 0 0 ((wordsOf 6 g))) s

/-! ## Resources of creels (0x0201 to 0x0206) -/

/-- The hub entry (09/R258). -/
def hubEntry : Seg := { w0 := w64 0xFF00000000007, w1 := w64 0xFFFFFFFFFF000 }
/-- A creel would have no powered way of a mask in some slice (07/R212). -/
def State.noPowered (s : State) (mask : Nat) (off : Nat → Nat) : Bool :=
  (List.range 224).any fun i =>
    let x := s.slice i
    !((List.range 16).any fun w => wayBit mask w && !wayBit (x.off ||| x.retired ||| x.powerCleaning ||| off i) w)
/-- The masks of a WAY_SET of a creel that is held until a cut completes (R264). -/
def State.heldWays (s : State) (cr : Nat) : Option (Nat × Nat) :=
  (s.stake.started.find? fun r => r.why = .wayHeld ∧ r.cmd.creel = cr).map fun r => (r.cmd.n 2, r.cmd.n 3)
def State.exclOthers (s : State) (cr : Nat) : Nat :=
  (List.range 64).foldl (fun m n => if n = cr ∨ (s.creel n).st = .unassigned then m
    else m ||| (s.creel n).exclMask ||| ((s.heldWays n).getD (0, 0)).2) 0
def State.maskOthers (s : State) (cr : Nat) : Nat :=
  (List.range 64).foldl (fun m n => if n = cr ∨ (s.creel n).st = .unassigned then m
    else m ||| (s.creel n).wayMask ||| ((s.heldWays n).getD (0, 0)).1) 0
def without (a b : Nat) : Nat := a - (a &&& b)
def Cmd.coreMask (c : Cmd) : List Nat := (List.range 192).filter fun n => tbit (c.w (2 + n / 64)) (n % 64)
/-- Every source of a creel is left masked and not pending; a creel that leaves UNASSIGNED gets its fixed sources (17/R497, R500). -/
def State.assignSources (s : State) (cr : Nat) (fresh : Bool) : State :=
  if fresh then
    let l := (List.range 8).map fun k => fixedSrc k cr
    let old := s.sources.map fun p => if p.2.holder = some cr then (p.1, { srcReset with holder := some cr }) else p
    { s with sources := l.foldl (fun m i => m.set i { srcReset with holder := some cr }) old }
  else s.maskSources cr
/-- A core given to a creel: stopped, its counters at their reset values (20/R565). -/
def State.giveCore (s : State) (cr n : Nat) : State :=
  if s.creelOf n = some cr then s
  else ({ s with coreCreel := s.coreCreel.set n cr }).modCore n fun c => { coreReset with discarded := c.discarded }
/-- A creel that leaves UNASSIGNED: segment table, ways, memory key and uncore counters (09/R256, R262; 11/R306; 20/R566). -/
def State.freshCreel (s : State) (cr mask : Nat) : State :=
  (s.rekey cr).modCreel cr fun c =>
    { c with st := .stopped, segs := [(63, hubEntry)], wayMask := mask, exclMask := 0, uc := [], ucFrozen := [] }
/-- CREEL_ASSIGN of an UNASSIGNED or STOPPED creel. -/
def State.assign (s : State) (cr : Nat) (cores : List Nat) (units : Nat) : State :=
  let fresh := decide ((s.creel cr).st = .unassigned)
  let mask := without 0xFFFF (s.exclOthers cr)
  let s := if fresh then s.freshCreel cr mask else s
  let s := { s with coreCreel := s.coreCreel.filter fun p => p.2 ≠ cr ∨ cores.contains p.1 }
  let s := cores.foldl (fun s n => s.giveCore cr n) s
  let s := (s.unitsOf cr).foldl (fun s u => if wayBit units u then s else s.unitTaken u) s
  let s := ((List.range 16).filter (wayBit units)).foldl (fun s u => { s with unitCreel := s.unitCreel.set u cr }) s
  s.assignSources cr fresh
/-- The status with which CREEL_ASSIGN refuses. -/
def State.assignRefuses (s : State) (cr : Nat) (cores : List Nat) (units : Nat) : Nat :=
  if s.stake.debug then 0x0105
  else if !s.stake.popOk then 0x0702
  else if (cores.any fun n => 224 ≤ s.tileOf n || ((s.creelOf n).isSome && s.creelOf n != some cr)) ∨
      ((List.range 16).any fun u => wayBit units u && s.unitCreel.has u && s.unitCreel.get 64 u != cr) then 0x0501
  else if (s.creel cr).st = .unassigned ∧ s.noPowered (without 0xFFFF (s.exclOthers cr)) (fun _ => 0) then 0x0104
  else 0
def execCreelAssign (p : Slot) (k : Fin 16) (s : State) : Out :=
  stakeRow p k 0x0201 (fun s c =>
    let r := s.assignRefuses c.creel c.coreMask (c.n 5)
    if r ≠ 0 then s.done c r else (s.assign c.creel c.coreMask (c.n 5)).done c 0) s

/-- Entries that the grant no longer holds become invalid, so that only the owner of a line reaches it (09/R254). -/
def State.trimSegs (s : State) (cr : Nat) : State :=
  let trim := fun (p : Nat × Seg) =>
    if p.1 ≠ 63 ∧ segV p.2 ∧ !s.inGrant cr (segBase p.2 * 4096) ((segLimit p.2 + 1) * 4096) then
      (p.1, { p.2 with w0 := setFld p.2.w0 0 0 0 })
    else p
  s.modCreel cr fun c => { c with segs := c.segs.map trim }
/-- GRANT_SET: memory that enters or leaves the grant reads as unpredictable. -/
def State.setGrant (s : State) (cr r : Nat) (g : Option (Nat × Nat)) : State :=
  let old := s.grantRanges cr
  let t := s.modCreel cr fun c => { c with grants := match g with | some x => c.grants.set r x | none => c.grants.erase r }
  let new := t.grantRanges cr
  (((subRanges old new) ++ (subRanges new old)).foldl State.scrambleRange t).trimSegs cr
def overlapsAny (r : Nat × Nat) (l : List (Nat × Nat)) : Bool := l.any fun d => decide (r.1 < d.2) && decide (d.1 < r.2)
def State.grantRefuses (s : State) (cr lo hi : Nat) : Nat :=
  if 0xFF00000000000 < hi then 0x0105
  else if overlapsAny (lo, hi) [(s.skmBase, s.installed)] then 0x0103
  else if (List.range 64).any fun n => n ≠ cr && overlapsAny (lo, hi) (s.grantRanges n) then 0x0104
  else 0
def execGrantSet (p : Slot) (k : Fin 16) (s : State) : Out :=
  stakeRow p k 0x0202 (fun s c =>
    if c.n 3 = 0 ∧ c.n 4 = 0 then (s.setGrant c.creel (c.n 2) none).done c 0
    else
      let r := s.grantRefuses c.creel (c.n 3) (c.n 4 + 4096)
      if r ≠ 0 then s.done c r else (s.setGrant c.creel (c.n 2) (some (c.n 3, c.n 4 + 4095))).done c 0) s

/-- Every resource of a creel is freed; its keys are destroyed, its generation counts up, its memory key goes
(11/R320; 21/R572). -/
def State.releaseAll (s : State) (cr : Nat) : State :=
  let s := (s.unitsOf cr).foldl State.unitTaken s
  let hs := (s.vault.objs.filter fun p => attrCreel p.2.w0 = cr).map fun p => p.2.handle
  let s := hs.foldl State.destroy s
  let rings := (s.ringHolder.filter fun p => p.2 = cr).map (·.1)
  let qs := (s.pqHolder.filter fun p => p.2 = cr).map (·.1)
  let s := s.modVault fun v =>
    { v with rings := v.rings.filter (fun p => !rings.contains p.1), sess := v.sess.filter (fun p => p.2.creel ≠ cr),
             audit := v.audit.erase cr, arqc := v.arqc.erase cr, cache := v.cache.erase cr }
  let s := (s.rekey cr).modBbkm fun b => { b with gens := b.gens.set cr (b.gens.get 0 cr + 1) }
  let s := { s with
    ringHolder := s.ringHolder.filter fun p => p.2 ≠ cr, pqHolder := s.pqHolder.filter fun p => p.2 ≠ cr,
    pqs := s.pqs.filter fun p => !qs.contains p.1, lqs := s.lqs.filter fun p => p.1 / 16 ≠ cr,
    sources := s.sources.filter fun p => p.2.holder ≠ some cr, coreCreel := s.coreCreel.filter fun p => p.2 ≠ cr }
  (s.modPair fun q => { q with marks := q.marks.erase cr, logs := q.logs.filter fun l => l.1 / 256 ≠ cr }).modCreel cr fun c =>
    { c with st := .unassigned, grants := [], segs := [], wayMask := 0, exclMask := 0, quota := [] }
def execCreelRelease (p : Slot) (k : Fin 16) (s : State) : Out :=
  stakeRow p k 0x0203 (fun s c =>
    let s := s.releaseAll c.creel
    let s := if s.pair.st = 0 then s else s.sendFrame 5 (.mailbox [w64 (0x0203 * 2 ^ 48), w64 (0x10000 + c.creel)])
    s.done c 0) s

/-- The device total of a kind (R298). -/
def State.kindTotal (s : State) : Nat → Nat
  | 1 => 1024 | 2 => 256 | 3 => 512 | 4 => 7680 | 5 => 4096 | 6 => s.vault.cap | 7 => 65472 | _ => 32768
def execCreelQuota (p : Slot) (k : Fin 16) (s : State) : Out :=
  stakeRowR p k 0x0204 (fun s c =>
    let kind := c.n 2
    let sum := (List.range 64).foldl (fun a n => if n = c.creel then a else a + s.quota n kind) (c.n 3)
    if s.kindTotal kind < sum then s.done c 0x0501
    else
      let s := s.modCreel c.creel fun x => { x with quota := x.quota.set kind (c.n 3) }
      let s := if kind = 7 then s.modVault fun v => { v with cache := v.cache.map fun q => if q.1 = c.creel then (q.1, q.2.take (c.n 3)) else q } else s
      s.done c 0) s

def State.waySetRefuses (s : State) (cr mask excl : Nat) : Nat :=
  if mask &&& s.exclOthers cr ≠ 0 ∨ excl &&& s.maskOthers cr ≠ 0 then 0x0104
  else if s.noPowered mask (fun _ => 0) then 0x0105
  else 0
def State.cleanWays (s : State) (mask : Nat) : State :=
  (List.range 224).foldl (fun s i => let x := s.slice i; s.setSlice i { x with cleaning := x.cleaning ||| mask }) s
/-- A cut stops the fills at once and completes when every slice has cleaned the ways; a gain of a way that is still being
cleaned waits (09/R262-R264). -/
def execWaySet (p : Slot) (k : Fin 16) (s : State) : Out :=
  stakeRowR p k 0x0205 (fun s c =>
    let mask := c.n 2
    let excl := c.n 3
    let r := s.waySetRefuses c.creel mask excl
    if r ≠ 0 then s.done c r
    else
      let x := s.creel c.creel
      let cut := without x.wayMask mask
      let gain := without mask x.wayMask
      let old := [w64 x.wayMask, w64 x.exclMask]
      let held := (List.range 224).any fun i => (s.slice i).cleaning &&& gain ≠ 0
      let s := if cut = 0 then s else s.cleanWays cut
      if held then (s.modCreel c.creel fun x => { x with wayMask := x.wayMask &&& mask }).waitFor c .wayHeld old
      else
        let s := s.modCreel c.creel fun x => { x with wayMask := mask, exclMask := excl }
        if cut = 0 then s.done c 0 else s.waitFor c (.cleaning none) old) s

/-- QOS_SET: a target below 50 leaves the field; the shares may not exceed 1,024 (08/R247). -/
def execQosSet (p : Slot) (k : Fin 16) (s : State) : Out :=
  stakeRow p k 0x0206 (fun s c =>
    let q := c.n 2
    let v := if fld (c.w 3) 47 32 < 50 then setFld (c.w 3) 47 32 (targetOf (s.qos q)) else c.w 3
    let sum := (List.range 96).foldl (fun a n => if n = q then a else a + shareOf (s.qos n)) (shareOf v)
    if 1024 < sum then s.done c 0x0501 else ({ s with qosCfg := s.qosCfg.set q v }).done c 0) s

/-! ## Running creels (0x0207 to 0x0210) -/

/-- Released with reason 3 (18/R530); the debug latch refuses (21/R574). -/
def execCreelStart (p : Slot) (k : Fin 16) (s : State) : Out :=
  stakeRow p k 0x0207 (fun s c =>
    if s.stake.debug then s.done c 0x0105
    else match s.bootRelease c.creel 3 with | (s, ok) => s.done c (if ok then 0 else 0x0602)) s
/-- Creel resets wait during the pause of an update (18/R540). -/
def stakeRowP (p : Slot) (k : Fin 16) (op : Nat) (work : State → Cmd → State) (s : State) : Out :=
  stakeRowW (fun s _ => !s.paused) p.val k.val op work s
/-- A reset or stop completes when it has run, which an unacknowledged strict store may hold (05/R172). -/
def State.resetFor (s : State) (c : Cmd) (kind : Nat) : State :=
  let s := s.creelReset c.creel kind
  if s.resetting.has c.creel then s.waitFor c (.reset c.creel) else s.done c 0
def execCreelStop (p : Slot) (k : Fin 16) (s : State) : Out := stakeRowP p k 0x0208 (fun s c => s.resetFor c 1) s
/-- A second reset completes when the running one does (09/R267). -/
def execCreelReset (p : Slot) (k : Fin 16) (s : State) : Out :=
  stakeRowP p k 0x0209 (fun s c =>
    if (s.creel c.creel).st = .resetting then s.waitFor c (.reset c.creel) else s.resetFor c 0) s

def Seg.range (g : Seg) : Nat × Nat := (segBase g * 4096, (segLimit g + 1) * 4096)
def State.segRefuses (s : State) (cr i : Nat) (g : Seg) : Nat :=
  if i = 63 then 0x0105
  else if !segV g then 0
  else if !s.inGrant cr g.range.1 g.range.2 then 0x0103
  else if (s.creel cr).segs.any fun p => p.1 ≠ i && segV p.2 && overlapsAny g.range [p.2.range] then 0x0105
  else 0
def State.coresReady (s : State) (cr : Nat) : Bool :=
  (s.coresOf cr).all fun n => let c := s.core n; c.parked.isNone && c.dev.isNone && c.strict.isEmpty
/-- A unit has no access outstanding that passed an old check: of a program, nor of a job whose message has still to be read. -/
def State.unitReady (s : State) (u : Nat) : Bool :=
  (s.unit u).load.isNone && ((s.unit u).jobs.all fun j => decide (j.2.phase = .run) || j.2.ending.isSome) &&
    (List.range 4).all fun k => let q := s.seq (plaiterSeq u k); q.miss.isNone && q.ops.isEmpty && q.strict.isEmpty
/-- No access that passed the old check is outstanding but stores of cores, which the command drains (09/R261). -/
def State.segReady (s : State) (cr : Nat) : Bool := s.coresReady cr && (s.unitsOf cr).all s.unitReady
def State.drainCreel (s : State) (cr : Nat) : State := (s.coresOf cr).foldl (fun s n => (s.drainAll n).wcDrainAll n) s
def execSegmentSet (p : Slot) (k : Fin 16) (s : State) : Out :=
  stakeRowW (fun s c => (s.creel c.creel).st != .resetting && s.segReady c.creel) p.val k.val 0x020A (fun s c =>
    let g : Seg := { w0 := c.w 3, w1 := c.w 4 }
    let r := s.segRefuses c.creel (c.n 2) g
    if r ≠ 0 then s.done c r
    else ((s.drainCreel c.creel).modCreel c.creel fun x => { x with segs := x.segs.set (c.n 2) g }).done c 0) s
def segReset : Seg := { w0 := 0, w1 := 0 }
def execSegmentRead (p : Slot) (k : Fin 16) (s : State) : Out :=
  stakeRow p k 0x020B (fun s c =>
    let g := (s.creel c.creel).segs.get segReset (c.n 2)
    s.done c 0 0 [g.w0, g.w1]) s

/-- What a creel holds of a kind that RESOURCE_ALLOC gives, and the numbers in use on the device (R298). -/
def State.heldOf (s : State) (cr kind : Nat) : List Nat :=
  match kind with
  | 1 => (s.ringHolder.filter fun p => p.2 = cr).map (·.1)
  | 2 => (s.pqHolder.filter fun p => p.2 = cr).map (·.1)
  | 3 => (s.heldLq cr).map (· % 16)
  | _ => (s.sources.filter fun p => p.1 < 7680 ∧ p.2.holder = some cr).map (·.1)
def State.freeNumber (s : State) (cr kind : Nat) : Option Nat :=
  if kind = 1 then (List.range 1024).find? fun n => !s.ringHolder.has n
  else if kind = 2 then (List.range 256).find? fun n => !s.pqHolder.has n
  else if kind = 3 then
    (if 512 ≤ s.lqs.length then none else (List.range 16).find? fun n => !s.lqs.has (16 * cr + n))
  else (List.range 7680).find? fun n => (s.src n).holder.isNone
/-- The resource starts at its reset values, whatever its former holder wrote (12/R339, 13/R378, 17/R500). -/
def State.giveResource (s : State) (cr kind n : Nat) : State :=
  match kind with
  | 1 => ({ s with ringHolder := s.ringHolder.set n cr }).modVault fun v => { v with rings := v.rings.set n ringReset }
  | 2 => { s with pqHolder := s.pqHolder.set n cr, pqs := s.pqs.set n pqReset }
  | 3 => { s with lqs := s.lqs.set (16 * cr + n) lqReset }
  | _ => s.setSrc n { srcReset with holder := some cr }
def execResourceAlloc (p : Slot) (k : Fin 16) (s : State) : Out :=
  stakeRow p k 0x020C (fun s c =>
    let kind := c.n 2
    if s.quota c.creel kind ≤ (s.heldOf c.creel kind).length then s.done c 0x0501
    else match s.freeNumber c.creel kind with
      | none => s.done c 0x0501
      | some n => (s.giveResource c.creel kind n).done c 0 n) s
/-- Taken commands of a ring or a queue that have not completed. -/
def State.busyOn (s : State) (kind n : Nat) : Bool :=
  match kind with | 1 => s.hInFlight n != 0 | 2 => s.pqInFlight n != 0 | _ => false
def State.stopRing (s : State) (kind n : Nat) : State :=
  match kind with
  | 1 => s.setHring n { s.hring n with stopping := true }
  | _ => s.setPq n { s.pq n with ring := { (s.pq n).ring with stopping := true } }
/-- The resource leaves its creel. What a ring or queue has taken and not completed completes for nobody: a job of such a
queue keeps its number plus 256 (12/R341). -/
def State.freeResource (s : State) (cr kind n : Nat) : State :=
  match kind with
  | 1 => ({ s with ringHolder := s.ringHolder.erase n }).modVault fun v =>
      { v with rings := v.rings.erase n, active := v.active.map fun (c : HCmd) => if c.origin = HOrigin.ring n then { c with lost := true } else c }
  | 2 =>
    let away := fun (j : Job) => if j.queue = n then { j with queue := 256 + n } else j
    let s := (List.range 16).foldl (fun s u => s.modUnit u fun x =>
      { x with jobs := x.jobs.map fun p => (p.1, away p.2), load := x.load.map away }) s
    { s with pqHolder := s.pqHolder.erase n, pqs := s.pqs.erase n }
  | 3 => { s with lqs := s.lqs.erase (16 * cr + n) }
  | _ => { s with sources := s.sources.erase n }
/-- RESOURCE_FREE stops a ring or queue and waits at most 50 µs for its completions (12/R341): the row ends a command that
waited once nothing is in flight, or that time is over. -/
def execResourceFree (p : Slot) (k : Fin 16) (s : State) : Out :=
  match s.stake.started.find? fun r => r.cmd.port = p.val ∧ r.cmd.slot = k.val ∧ r.why = .freeing with
  | some r =>
    let c := r.cmd
    if s.busyOn (c.n 2) (c.n 3) ∧ s.clock < (r.old.getD 0 0).toNat + micros 50 then .next s
    else .next (((s.modStake fun m => { m with started := m.started.filter (· ≠ r) }).freeResource c.creel (c.n 2) (c.n 3)).done c 0)
  | none =>
    stakeRow p k 0x020D (fun s c =>
      if !(s.heldOf c.creel (c.n 2)).contains (c.n 3) then s.done c 0x0103
      else if s.busyOn (c.n 2) (c.n 3) then (s.stopRing (c.n 2) (c.n 3)).waitFor c .freeing [w64 s.clock]
      else (s.freeResource c.creel (c.n 2) (c.n 3)).done c 0) s

/-- Gating: the store buffer drains, the caches are cleaned and emptied, translation and prediction state is lost
(04/R132). -/
def State.gateCore (s : State) (cr n : Nat) : State :=
  (((s.drainAll n).wcDrainAll n).emptyTile (s.tileOf n) (some cr)).modCore n fun c =>
    { c with run := match c.run with | .running => .gated | .held => .gatedHeld | r => r, tlb := [], ptr := [], pred := predReset }
def State.wakeCore (s : State) (n : Nat) : State :=
  s.modCore n fun c => { c with run := match c.run with
    | .gated => .running
    | .gatedHeld => if bankAny c.svec || bankAny c.upend then .running else .held
    | r => r }
def execCoreGate (p : Slot) (k : Fin 16) (s : State) : Out :=
  stakeRowW (fun s c => s.coresReady c.creel) p.val k.val 0x020E (fun s c =>
    if s.creelOf (c.n 2) ≠ some c.creel then s.done c 0x0103 else (s.gateCore c.creel (c.n 2)).done c 0) s
def execCoreWake (p : Slot) (k : Fin 16) (s : State) : Out :=
  stakeRow p k 0x020F (fun s c =>
    if s.creelOf (c.n 2) ≠ some c.creel then s.done c 0x0103 else (s.wakeCore (c.n 2)).done c 0) s
/-- The counts of CREEL_BREACH and of PAIR_CREEL_STAT are cleared (09/R272, 15/R453). -/
def execBreachReset (p : Slot) (k : Fin 16) (s : State) : Out :=
  stakeRow p k 0x0210 (fun s c =>
    let s := s.modCreel c.creel fun x => { x with breach := setFld x.breach 63 16 0 }
    (s.modPair fun q => { q with stat := q.stat.set c.creel (setFld (q.stat.get 0 c.creel) 63 32 0) }).done c 0) s

end Sys2Proof.Machine
end

