-- ==== Sys2Proof/Machine/Flags.lean ====
section
/-!
DEFINITION. SYS_DFPC: rounding modes, sticky flags and traps of decimal, binary and vector arithmetic (03/R87-R91, R101).
-/
namespace Sys2Proof.Machine

def State.dfpc (s : State) : Agent → W64
  | .core n => (s.core n).sysr 0x11
  | .seq q => (s.seq (seqIx q)).dfpc
def State.setDfpc (s : State) (a : Agent) (v : W64) : State :=
  match a with
  | .core n => s.modCore n fun c => c.setSys 0x11 v
  | .seq q => s.modSeq (seqIx q) fun z => { z with dfpc := v }
def drm (v : W64) : Nat := fld v 2 0
def brm (v : W64) : Nat := fld v 5 3

/-- The place of the flags, of the trap enables, and the trap's exception code (03/R91, R101, R109). -/
structure FlagSet where
  flags : Nat
  traps : Nat
  code : Nat
def decimalFlags : FlagSet := { flags := 6, traps := 11, code := 9 }
def binaryFlags : FlagSet := { flags := 16, traps := 21, code := 0xA }

/-- The flags that an operation raises: all to the sticky flags, unless one of them traps (03/R90, R91). -/
def flagsAfter (k : FlagSet) (v : W64) (raised : Nat) : Option W64 :=
  if fld v (k.traps + 4) k.traps &&& raised ≠ 0 then none
  else some (setFld v (k.flags + 4) k.flags (fld v (k.flags + 4) k.flags ||| raised))
/-- The end of an arithmetic instruction: its destination and the flags, or the trap with SYS_EINFO (03/R90, R91, R100). -/
def State.fpDone (s : State) (a : Agent) (k : FlagSet) (raised : Nat) (write : State → State) : Res :=
  match flagsAfter k (s.dfpc a) raised with
  | none => .exc s k.code none (w64 (raised % 32))
  | some v => .done (write (s.setDfpc a v)) []

end Sys2Proof.Machine
end

