-- ==== Sys2Proof/Machine/FloatInstr.lean ====
section
/-!
DEFINITION. The meanings of the scalar binary and the decimal instructions (03/R83-R91).
-/
namespace Sys2Proof.Machine

/-! ## Binary (03/R83, R84): core only -/

def fmtOf : FpFmt → BinFmt | .d => b64 | .s => b32
/-- A source of a format: a binary32 operation ignores bits [63:32]. -/
def fsrc (f : FpFmt) (v : W64) : Nat := v.toNat % 2 ^ (fmtOf f).width

def fp (a : Agent) (q : PReg) (d : Reg) (reads : List Reg) (op : Nat → Ctx → Nat × Nat) (s : State) : Out :=
  runInstr { agent := a, guard := q, coreOnly := true, reads := reads.map (·.toNat), writes := [d.toNat], events := [(0x0B, 1)] }
    (fun s x =>
      let r := op (brm (s.dfpc a)) x
      s.fpDone a binaryFlags r.2 fun s => s.wrG a d.toNat (w64 r.1)) s
def fp2 (a : Agent) (q : PReg) (f : FpFmt) (d s1 s2 : Reg) (op : BinFmt → Nat → Nat → Nat → Nat × Nat) (s : State) : Out :=
  fp a q d [s1, s2] (fun rm x => op (fmtOf f) rm (fsrc f (x.rd s1.toNat)) (fsrc f (x.rd s2.toNat))) s
def fp1 (a : Agent) (q : PReg) (d s1 : Reg) (op : Nat → W64 → Nat × Nat) (s : State) : Out :=
  fp a q d [s1] (fun rm x => op rm (x.rd s1.toNat)) s

def execFadd (a : Agent) (q : PReg) (f : FpFmt) (d s1 s2 : Reg) (s : State) : Out := fp2 a q f d s1 s2 binAdd s
def execFsub (a : Agent) (q : PReg) (f : FpFmt) (d s1 s2 : Reg) (s : State) : Out := fp2 a q f d s1 s2 binSub s
def execFmul (a : Agent) (q : PReg) (f : FpFmt) (d s1 s2 : Reg) (s : State) : Out := fp2 a q f d s1 s2 binMul s
def execFdiv (a : Agent) (q : PReg) (f : FpFmt) (d s1 s2 : Reg) (s : State) : Out := fp2 a q f d s1 s2 binDiv s
/-- FMA reads its destination as the addend. -/
def execFma (a : Agent) (q : PReg) (f : FpFmt) (d s1 s2 : Reg) (s : State) : Out :=
  fp a q d [s1, s2, d]
    (fun rm x => binFma (fmtOf f) rm (fsrc f (x.rd s1.toNat)) (fsrc f (x.rd s2.toNat)) (fsrc f (x.rd d.toNat))) s
def execFmin (a : Agent) (q : PReg) (f : FpFmt) (d s1 s2 : Reg) (s : State) : Out :=
  fp2 a q f d s1 s2 (fun t _ x y => binMinMax t false x y) s
def execFmax (a : Agent) (q : PReg) (f : FpFmt) (d s1 s2 : Reg) (s : State) : Out :=
  fp2 a q f d s1 s2 (fun t _ x y => binMinMax t true x y) s
def execFsqrt (a : Agent) (q : PReg) (f : FpFmt) (d s1 : Reg) (s : State) : Out :=
  fp1 a q d s1 (fun rm v => binSqrt (fmtOf f) rm (fsrc f v)) s
def execFcmp (a : Agent) (q : PReg) (f : FpFmt) (d s1 s2 : Reg) (s : State) : Out :=
  fp2 a q f d s1 s2 (fun t _ x y => quietCmp 2 (t.decode x) (t.decode y)) s
/-- FCVT.D.L, FCVT.S.L: from a signed 64-bit integer. -/
def execFcvtDL (a : Agent) (q : PReg) (f : FpFmt) (d s1 : Reg) (s : State) : Out :=
  fp1 a q d s1 (fun rm v => binFromInt (fmtOf f) rm v.toInt) s
/-- FCVT.L.D, FCVT.L.S: to a signed 64-bit integer. -/
def execFcvtLD (a : Agent) (q : PReg) (f : FpFmt) (d s1 : Reg) (s : State) : Out :=
  fp1 a q d s1 (fun rm v => binToInt (fmtOf f) rm 64 (fsrc f v)) s
def execFcvtDS (a : Agent) (q : PReg) (d s1 : Reg) (s : State) : Out :=
  fp1 a q d s1 (fun rm v => binCvt b32 b64 rm (fsrc .s v)) s
def execFcvtSD (a : Agent) (q : PReg) (d s1 : Reg) (s : State) : Out :=
  fp1 a q d s1 (fun rm v => binCvt b64 b32 rm v.toNat) s
def execFclass (a : Agent) (q : PReg) (f : FpFmt) (d s1 : Reg) (s : State) : Out :=
  fp1 a q d s1 (fun _ v => (binClass (fmtOf f) (fsrc f v), 0)) s

/-! ## Decimal (03/R85, R86) -/

def decOf : DecFmt → DecFormat | .d => dec64 | .q => dec128
/-- A decimal operand: one register, or an even-odd pair, low half first (03/R85). -/
def dsrc (f : DecFmt) (x : Ctx) (r : Reg) : Nat :=
  match f with
  | .d => (x.rd r.toNat).toNat
  | .q => (x.rd r.toNat).toNat + 2 ^ 64 * (x.rd (r.toNat + 1)).toNat
def dregs (f : DecFmt) (r : Reg) : List Nat := match f with | .d => [r.toNat] | .q => [r.toNat, r.toNat + 1]
/-- In a .Q instruction bit 0 of each field that names a decimal128 operand is zero (03/R85). -/
def dok (f : DecFmt) (r : Reg) : Bool := match f with | .d => true | .q => !r.getLsbD 0
def State.wrD (s : State) (a : Agent) (f : DecFmt) (r : Reg) (v : Nat) : State :=
  match f with
  | .d => s.wrG a r.toNat (w64 v)
  | .q => (s.wrG a r.toNat (w64 v)).wrG a (r.toNat + 1) (w64 (v / 2 ^ 64))

/-- The frame of the decimal instructions: formats of the destination and of the sources. -/
def dp (a : Agent) (q : PReg) (fd fs : DecFmt) (d : Reg) (src : List Reg) (coreOnly : Bool) (beats : Nat)
    (op : Nat → Ctx → Nat × Nat) (s : State) : Out :=
  runInstr { agent := a, guard := q, coreOnly := coreOnly, legal := dok fd d && src.all (dok fs),
             reads := src.flatMap (dregs fs), writes := dregs fd d, events := [(0x0C, 1)], beats := beats }
    (fun s x =>
      let r := op (drm (s.dfpc a)) x
      s.fpDone a decimalFlags r.2 fun s => s.wrD a fd d r.1) s
def dp2 (a : Agent) (q : PReg) (f : DecFmt) (d s1 s2 : Reg) (coreOnly : Bool) (beatsD beatsQ : Nat)
    (op : DecFormat → Nat → Nat → Nat → Nat × Nat) (s : State) : Out :=
  dp a q f f d [s1, s2] coreOnly (if f = .d then beatsD else beatsQ)
    (fun rm x => op (decOf f) rm (dsrc f x s1) (dsrc f x s2)) s

def execDadd (a : Agent) (q : PReg) (f : DecFmt) (d s1 s2 : Reg) (s : State) : Out := dp2 a q f d s1 s2 false 5 6 decAdd s
def execDsub (a : Agent) (q : PReg) (f : DecFmt) (d s1 s2 : Reg) (s : State) : Out := dp2 a q f d s1 s2 false 5 6 decSub s
def execDmul (a : Agent) (q : PReg) (f : DecFmt) (d s1 s2 : Reg) (s : State) : Out := dp2 a q f d s1 s2 false 7 7 decMul s
def execDdiv (a : Agent) (q : PReg) (f : DecFmt) (d s1 s2 : Reg) (s : State) : Out := dp2 a q f d s1 s2 true 3 3 decDiv s
def execDqua (a : Agent) (q : PReg) (f : DecFmt) (d s1 s2 : Reg) (s : State) : Out := dp2 a q f d s1 s2 false 5 6 decQua s
def execDrint (a : Agent) (q : PReg) (f : DecFmt) (d s1 : Reg) (s : State) : Out :=
  dp a q f f d [s1] false 4 (fun rm x => decRint (decOf f) rm (dsrc f x s1)) s
/-- DCMP.Q, DTOI.Q and DGETEXP.Q write a single register. -/
def execDcmp (a : Agent) (q : PReg) (f : DecFmt) (d s1 s2 : Reg) (s : State) : Out :=
  dp a q .d f d [s1, s2] false 4
    (fun _ x => quietCmp 10 ((decOf f).decode (dsrc f x s1)) ((decOf f).decode (dsrc f x s2))) s
/-- DFROMI.Q reads a single register. -/
def execDfromi (a : Agent) (q : PReg) (f : DecFmt) (d s1 : Reg) (s : State) : Out :=
  dp a q f .d d [s1] false (if f = .d then 5 else 6) (fun rm x => decFromInt (decOf f) rm (x.rd s1.toNat).toInt) s
def execDtoi (a : Agent) (q : PReg) (f : DecFmt) (d s1 : Reg) (s : State) : Out :=
  dp a q .d f d [s1] false (if f = .d then 5 else 6) (fun rm x => decToInt (decOf f) rm (dsrc f x s1)) s
def execDgetexp (a : Agent) (q : PReg) (f : DecFmt) (d s1 : Reg) (s : State) : Out :=
  dp a q .d f d [s1] false 3 (fun _ x => decGetExp (decOf f) (dsrc f x s1)) s
def execDwiden (a : Agent) (q : PReg) (d s1 : Reg) (s : State) : Out :=
  dp a q .q .d d [s1] false 4 (fun rm x => decCvt dec64 dec128 rm (dsrc .d x s1)) s
def execDnarrow (a : Agent) (q : PReg) (d s1 : Reg) (s : State) : Out :=
  dp a q .d .q d [s1] false 5 (fun rm x => decCvt dec128 dec64 rm (dsrc .q x s1)) s

end Sys2Proof.Machine
end

