-- ==== Sys2Proof/Machine/Lanes.lean ====
section
/-!
DEFINITION. Lane groups and the host-attach endpoint: completions and their timeouts (16/R475-R478, 05/R173, R175), inbound
requests and MSIs (16/R468, R480, R485; 17/R505), host accesses to exported pages (R482), outbound accesses (R484), resets
of the endpoint (R487), links (R479), MSI-X messages (R488).
-/
namespace Sys2Proof.Machine

/-! ## Owners and AER -/

/-- The creel that owns root port k (R467). -/
def Lg.owner (g : Lg) (k : Nat) : Option Nat :=
  let o := fld g.cfg (16 + 7 * k) (10 + 7 * k)
  if o < 64 then some o else none
/-- The root ports of a lane group, from its bifurcation. -/
def Lg.ports (g : Lg) : Nat :=
  if fld g.cfg 2 0 ≠ 1 then 0 else match fld g.cfg 6 4 with | 0 => 1 | 1 => 2 | 2 => 3 | 3 => 3 | _ => 4
/-- A VF that the host has enabled and whose creel may use it (R481). -/
def State.vfLive (s : State) (ep v : Nat) : Bool :=
  s.hostMode (8 + ep) && decide (1 ≤ v) && decide (v ≤ (s.hf ep 0).numVfs) && (s.hf ep 0).vfEnable && tbit (s.lg (8 + ep)).hamask (v - 1) &&
    (s.creel (v - 1)).st != .unassigned
/-- The creel for which a root port or a function acts. -/
def State.laneCreel (s : State) (lg fn : Nat) : Option Nat :=
  if s.hostMode lg then (if s.vfLive (lg - 8) fn then some (fn - 1) else none) else (s.lg lg).owner fn
/-- Is the link of a root port, or of the endpoint, up? -/
def State.laneUp (s : State) (lg fn : Nat) : Bool :=
  if s.hostMode lg then (s.lg lg).linkUp.testBit 0 else decide (fn < (s.lg lg).ports) && (s.lg lg).linkUp.testBit fn
/-- AER logs an error on a port or function; the owner of a root port is told (R472, 17/R499). -/
def State.aerLog (s : State) (lg port : Nat) : State :=
  let s := s.modLg lg fun g => { g with aer := g.aer + 1 }
  if s.hostMode lg then s else match (s.lg lg).owner port with | some c => s.notice c 8 7 | none => s
def State.linkNotice (s : State) (lg port : Nat) : State :=
  match (s.lg lg).owner port with | some c => s.notice c 7 7 | none => s
/-- An uncorrected-contained error of a lane group: to a creel, or to the lane group's bank and the device log. -/
def State.laneError (s : State) (cr : Option Nat) (code addr lg : Nat) : State :=
  match cr with | some c => s.creelError c 2 4 code addr lg 0 | none => (s.bankRec 4 lg 2 code 0).logRec 2 4 code addr lg 0
def LgReq.by? (r : LgReq) : Option Nat := if r.creel < 64 then some r.creel else none

/-! ## Completions (R160, R476-R478, R480; 05/R173, R175) -/

def State.dropReq (s : State) (lg tag : Nat) : State := s.modLg lg fun g => { g with reqs := g.reqs.filter fun r => r.tag ≠ tag }
/-- An unexpected completion: dropped, an advisory error in AER, counted (R477). -/
def State.unexpected (s : State) (lg port : Nat) : State := (s.modLg lg fun g => { g with unexpected := g.unexpected + 1 }).aerLog lg port
/-- The core's load that a request serves, if it still waits. -/
def State.waitingLoad (s : State) (lg : Nat) (r : LgReq) : Option DevLoad :=
  match (s.core r.core).dev with | some d => if (d.parts.any fun p => p.tag = r.tag) ∧ d.lg = lg then some d else none | none => none
/-- The data of a request of a device load come. -/
def DevLoad.take (d : DevLoad) (tag : Nat) (data : Bytes) : DevLoad :=
  { d with parts := d.parts.map fun p => if p.tag = tag then { p with data := some (data.take (if d.parts.length = 1 then sizeOfDest d.dest else 8)) } else p }
/-- A device load has the data of every request: its destination is written, and the instruction retires. -/
def State.loadArrives (s : State) (n tag : Nat) (d : DevLoad) (data : Bytes) : State :=
  let c := s.core n
  let d := d.take tag data
  if d.parts.any fun p => p.data.isNone then s.modCore n fun c => { c with dev := some d } else
  let data := d.parts.flatMap fun p => p.data.getD []
  let s := (s.modCore n fun c => { c with dev := none }).deliver (.core (Fin.ofNat 192 n)) d.dest (data.take (sizeOfDest d.dest))
  let (s, sp) := s.specEvents []
  (s.setPc n (c.x.pc + 4)).modCore n fun e => e.count c.priv ((1, 1) :: (6, 1) :: (0x1D, 1) :: sp)
/-- A device load that gets no good data: a contained machine check on the load (05/R175). -/
def State.loadFails (s : State) (lg : Nat) (r : LgReq) (code : Nat) : State :=
  match s.waitingLoad lg r with
  | some _ => (s.modCore r.core fun c => { c with dev := none }).takeMc r.core 3 code r.pa
  | none => s
/-- A strict-window store is acknowledged; a creel reset or a warm reset that it held goes on (05/R160, R170, R172). -/
def State.strictAck (s : State) (lg : Nat) (r : LgReq) : State :=
  let rest := fun (l : List StrictStore) => l.filter fun x => !(x.tag == r.tag && x.lg == lg)
  let s := if r.what = 1 then s.modCore r.core fun c => { c with strict := rest c.strict }
    else if r.what = 4 then s.modSeq r.core fun z => { z with strict := rest z.strict } else s
  (match r.by? with | some c => s.creelResetGo c | none => s).warmGo
def destVals (d : LoadDest) (b : Bytes) : List W64 :=
  match d with
  | .reg _ n sg => [extend n sg (leNat (b.take n))]
  | .pair _ => [w64 (leNat (b.take 8)), w64 (leNat ((b.drop 8).take 8))]
  | .vec _ => []
/-- The result of a sequencer's device load has come, good or poisoned. -/
def State.seqArrives (s : State) (lg : Nat) (r : LgReq) (data : Bytes) (poison : Bool) : State :=
  s.modSeq r.core fun z => { z with ops := z.ops.map fun o =>
    match o.dev with
    | some (k, d) =>
      if k = 1024 * lg + r.tag then
        { o with vals := (((regsOfDest d).zip (destVals d data)).filter (·.1 ≠ 0)).map (·.2), poison := poison, done := true }
      else o
    | none => o }
/-- SYS_IOFAULT at a timeout: the first describes the store, later ones set more and count (03/R103). -/
def iofaultAdd (w : W64) (lg window : Nat) : W64 :=
  let w := satInc w 23 16
  if tbit w 0 then setFld w 1 1 1 else setFld (setFld (setFld (setFld w 10 10 1) 9 6 window) 5 2 lg) 0 0 1

/-- COMPLETION_ARRIVAL (16/R477, R478, R480; 05/R160). -/
def execCompletionArrival (lg : Fin 10) (tag : BitVec 10) (status : CplStatus) (data : Bytes) (poison : Bool) (s : State) : Out :=
  let g := lg.val
  match (s.lg g).reqs.find? fun r => r.tag = tag.toNat with
  | none => .next (s.unexpected g 0)
  | some r =>
    if r.abandoned then .next (s.unexpected g r.port) else
    let bad := status != .ok
    let s := s.dropReq g r.tag
    let s := if bad then s.aerLog g r.port else s
    match r.what with
    | 0 =>
      if bad then .next (s.loadFails g r 5)
      else if poison then .next (s.loadFails g r 4)
      else match s.waitingLoad g r with
        | some d => .next (s.loadArrives r.core r.tag d data)
        | none => .next s
    | 1 | 4 | 5 => .next ((if bad then s.laneError r.by? 5 r.pa g else s).strictAck g r)
    | 2 => .next ((if bad then s.laneError r.by? 5 r.pa g else s).seqArrives g r data (bad || poison))
    | 6 => if bad || poison then .next (s.takeMc r.core 3 (if bad then 5 else 4) r.pa) else .next s
    | _ => .next (if bad then s.laneError r.by? 5 r.pa g else s)

/-- What the timeout of a strict store does: in a reset drain the store is dropped (R172); else the barrier goes on, and a
core records it in SYS_IOFAULT (R173). -/
def State.strictTimeout (s : State) (lg : Nat) (r : LgReq) : State :=
  match r.by? with
  | none => s.strictAck lg r
  | some c =>
    if s.resetting.has c ∧ r.what = 1 then (s.creelError c 2 4 0x11 r.pa lg 0).strictAck lg r
    else if r.what ≠ 1 then (s.creelError c 2 4 0x10 r.pa lg 0).strictAck lg r
    else
      let win := (((s.core r.core).strict.find? fun x => x.tag == r.tag && x.lg == lg).map (·.window)).getD 0
      let s := s.modCore r.core fun k => (k.setSys 0x12 (iofaultAdd (k.sysr 0x12) lg win)).count k.priv [(0x1F, 1)]
      (s.creelError c 2 4 0x10 r.pa lg 0).strictAck lg r
/-- COMPLETION_TIMEOUT: the request ends; its tag is quarantined for twice the timeout in force (R476, R477). -/
def execCompletionTimeout (lg : Fin 10) (tag : BitVec 10) (s : State) : Out :=
  let g := lg.val
  match (s.lg g).reqs.find? fun r => r.tag = tag.toNat with
  | none => .next s
  | some r =>
    if s.clock < r.due then .next s else
    let s := (s.dropReq g r.tag).modLg g fun x => { x with quarantine := x.quarantine ++ [(r.tag, s.clock + 2 * s.cto g)] }
    let s := s.aerLog g r.port
    match r.what with
    | 0 => .next (s.loadFails g r 4)
    | 1 | 4 | 5 => .next (s.strictTimeout g r)
    | 2 => .next ((s.laneError r.by? 4 r.pa g).seqArrives g r [] true)
    | 6 => .next (s.takeMc r.core 3 4 r.pa)
    | _ => .next (s.laneError r.by? 4 r.pa g)
/-- LATE_COMPLETION: for a tag in quarantine; it delivers and acknowledges nothing. -/
def execLateCompletion (lg : Fin 10) (tag : BitVec 10) (s : State) : Out :=
  if (s.lg lg.val).quarantine.any fun q => q.1 = tag.toNat then .next (s.unexpected lg.val 0) else .next s
def execQuarantineEnd (lg : Fin 10) (tag : BitVec 10) (s : State) : Out :=
  .next (s.modLg lg.val fun g => { g with quarantine := g.quarantine.filter fun q => !(q.1 == tag.toNat && decide (q.2 ≤ s.clock)) })

/-! ## Inbound requests (R468, R472, R480, R485) -/

/-- A completion to the device or host that asked: lane group, port or function, status (0 good, 1 unsupported request),
poison, data. -/
def State.complete11 (s : State) (lg fn status : Nat) (poison : Bool) (b : Bytes) : State :=
  s.emit 11 (lg :: fn :: status :: b2n poison :: b.map (·.toNat))
def inAddr : Inbound → Nat | .read a _ => a.toNat | .write a _ _ => a.toNat | .atomic a _ _ _ _ => a.toNat
def inSize : Inbound → Nat | .read _ n => n | .write _ b _ => b.length | .atomic _ n _ _ _ => n
def inPosted : Inbound → Bool | .write _ _ _ => true | _ => false
/-- A request beyond the payload or read size, or across a 4 KiB boundary, is malformed under PCIe. -/
def inMalformed (r : Inbound) : Bool :=
  (match r with | .read _ n => decide (4096 < n) | .write _ b _ => decide (512 < b.length) | .atomic _ _ _ _ _ => false) ||
    decide (4096 < (inAddr r) % 4096 + (inSize r))
/-- The atomics that are completed, and their targets (R472, 03/R80). -/
def atomicForm (size : Nat) (op : InAtomic) : Bool := size == 4 || size == 8 || (size == 16 && op == .cas)
def atomicResult (size : Nat) (op : InAtomic) (operand compare old : Nat) : Nat :=
  match op with
  | .fetchAdd => (old + operand) % 2 ^ (8 * size)
  | .swap => operand
  | .cas => if old = compare % 2 ^ (8 * size) then operand else old
/-- The active window of a VF that a BW_2 offset matches (R485). -/
def HostFn.window (f : HostFn) (o : Nat) : Option (W64 × W64) :=
  f.act.find? fun w => o / 2 ^ fld w.1 5 0 == (fld w.2 35 12 * 4096) / 2 ^ fld w.1 5 0
/-- Where a request of `n` bytes is performed: at its own address, or through the window that holds all of it. -/
def State.inboundPa (s : State) (lg fn a n : Nat) : Option Nat :=
  if s.hostMode lg then
    match (s.hf (lg - 8) fn).window a with
    | some w =>
      let sz := 2 ^ fld w.1 5 0
      if a % sz + n ≤ sz then some (fld w.1 51 12 * 4096 + a % sz) else none
    | none => none
  else some a
/-- Memory that inbound requests reach: DRAM and CXL memory, not a window (peer to peer) or hub space (R468). -/
def State.inboundMem (s : State) (a n : Nat) : Bool :=
  (upto (a / 4096) ((a + max n 1 + 4095) / 4096 - a / 4096)).all fun p => match s.region (4096 * p) with | .dram | .cxl _ => true | _ => false
/-- A refused request: a non-posted one gets an unsupported-request completion; AER and the creel's error page record it. -/
def State.inboundRefused (s : State) (lg fn : Nat) (cr : Option Nat) (r : Inbound) : State :=
  let s := (s.aerLog lg fn).laneError cr 0x30 (inAddr r) lg
  if (inPosted r) then s else s.complete11 lg fn 1 false []
/-- A request that has passed its checks, performed at the home slices. -/
def State.inboundDo (s : State) (lg fn cr pa : Nat) (r : Inbound) : State :=
  match r with
  | .read _ n =>
    let bad := s.poisonedRange pa n
    let s := if bad then s.readFailed cr pa n else s
    (if bad then s.creelError cr 2 4 0x33 pa lg 0 else s).complete11 lg fn 0 bad (s.rdBytes pa n)
  | .write _ b poisoned =>
    if !poisoned then s.unitWrite cr pa b
    else if fld (s.lg lg).ctl 2 0 = 0 then (s.aerLog lg fn).creelError cr 2 4 0x31 pa lg 0
    else (linesOf pa b.length).foldl State.markPoison ((s.unitWrite cr pa b).aerLog lg fn)
  | .atomic _ n op x y =>
    if s.poisonedRange pa n then ((s.readFailed cr pa n).creelError cr 2 4 0x33 pa lg 0).complete11 lg fn 0 true (s.rdBytes pa n)
    else
      let old := leNat (s.rdBytes pa n)
      (s.unitWrite cr pa (toLe n (atomicResult n op x y old))).complete11 lg fn 0 false (toLe n old)
/-- Is the target of an atomic one that R80 allows, with both rights? -/
def State.atomicTarget (s : State) (cr pa n : Nat) : Bool :=
  pa % n == 0 && (match s.region pa with | .dram | .cxl true => true | _ => false) && s.dmaOk cr pa n false && s.dmaOk cr pa n true
def State.inboundOk (s : State) (cr pa : Nat) (r : Inbound) : Bool :=
  s.inboundMem pa (inSize r) &&
    (match r with
     | .read _ n => s.dmaOk cr pa n false
     | .write _ b _ => s.dmaOk cr pa b.length true
     | .atomic _ n op _ _ => atomicForm n op && s.atomicTarget cr pa n)

/-! ## MSIs (17/R505, 15/R448) -/

def msgPage : Nat := 0xFF00001800000
/-- An MSI write at an offset of the message page by a requester's creel: the source becomes pending; in a mirrored creel
that is a commit point. -/
def State.inboundMsi (s : State) (lg fn off : Nat) (data : W32) : State :=
  let src := data.toNat % 8192
  match s.laneCreel lg fn with
  | none => (s.bankRec 4 lg 2 0x32 src).logRec 2 4 0x32 (msgPage + off) lg src
  | some cr =>
    if off ≠ 0 ∨ (s.src src).holder ≠ some cr then s.creelError cr 2 8 0x32 (msgPage + off) lg src
    else if s.role cr ≠ 1 then s.raiseHeld src cr
    else if asyncCfg (s.pairCfg cr) ∧ !s.lagHeld cr then (s.commit cr false .none).raiseHeld src cr
    else s.commit cr false (.msi src)
def execInboundMsi (lg : Fin 10) (fn : Fin 65) (off : BitVec 12) (data : W32) (s : State) : Out :=
  if s.laneUp lg.val fn.val then .next (s.inboundMsi lg.val fn.val off.toNat data) else .next s

/-- A write that reaches the message page: a naturally aligned 32-bit write is an MSI; poisoned, it is dropped (R480). -/
def State.inboundHub (s : State) (lg fn : Nat) (cr : Option Nat) (pa : Nat) (r : Inbound) : State :=
  match r with
  | .write _ b poisoned =>
    if b.length ≠ 4 ∨ pa % 4 ≠ 0 then s.inboundRefused lg fn cr r
    else if poisoned then (s.aerLog lg fn).laneError cr 0x31 pa lg
    else s.inboundMsi lg fn (pa - msgPage) (BitVec.ofNat 32 (leNat b))
  | _ => s.inboundRefused lg fn cr r
/-- INBOUND_REQUEST: in host-attach mode the address is an offset of the VF's BW_2. -/
def execInboundRequest (lg : Fin 10) (fn : Fin 65) (r : Inbound) (s : State) : Out :=
  let g := lg.val
  let f := fn.val
  if !s.laneUp g f then .next s
  else if (inMalformed r) then .next (s.aerLog g f)
  else
    let cr := s.laneCreel g f
    match cr, s.inboundPa g f (inAddr r) (inSize r) with
    | some c, some pa =>
      if msgPage ≤ pa ∧ pa < msgPage + 4096 then .next (s.inboundHub g f cr pa r)
      else if s.inboundOk c pa r then .next (s.inboundDo g f c pa r)
      else .next (s.inboundRefused g f cr r)
    | _, _ => .next (s.inboundRefused g f cr r)

/-! ## Host accesses to BW_0 (R482) -/

/-- VF_STATUS: the creel's pair role and state. -/
def State.vfStatus (s : State) (cr : Nat) : W64 := w64 (s.role cr % 16 * 16 + creelCode (s.creel cr).st)
/-- The hub page that HF_EXPORT_j names, while the creel holds the ring or queue. -/
def State.exportPage (s : State) (cr : Nat) (w : W64) : Option Nat :=
  let n := fld w 9 0
  match fld w 15 14 with
  | 1 => if s.ringHolder.has n ∧ s.ringHolder.get 64 n = cr then some (0xFF00100000000 + 4096 * n) else none
  | 2 => if s.pqHolder.has n ∧ s.pqHolder.get 64 n = cr then some (0xFF00200000000 + 4096 * n) else none
  | _ => none
/-- A register access of the host at a hub page: a completion for a read. -/
def State.hostReg (s : State) (lg fn pa size : Nat) (write : Bool) (v : Nat) : State :=
  if write then s.regWrite none 64 pa size v
  else
    let (s, x) := s.regRead none 64 pa size
    s.complete11 lg fn 0 false (toLe size x)
/-- HOST_PAGE_ACCESS: a load or store of the host in BW_0 of the PF or of a VF. -/
def execHostPageAccess (ep : Fin 2) (fn : Fin 65) (off : BitVec 16) (write : Bool) (size : Fin 9) (v : W64) (s : State) : Out :=
  let lg := 8 + ep.val
  let o := off.toNat
  let n := size.val
  let answer := fun (s : State) (st : Nat) (x : Nat) => if write then s else s.complete11 lg fn.val st false (toLe n x)
  if !s.hostMode lg ∨ !s.laneUp lg fn.val then .next s
  else if fn.val = 0 then
    .next (if o < 4096 then s.hostReg lg 0 (0xFF00010000000 + 4096 * (68 + ep.val) + o) n write v.toNat else answer s 0 0)
  else if !s.vfLive ep.val fn.val then .next (answer s 1 0)
  else
    let cr := fn.val - 1
    let j := o / 4096
    if j = 0 then .next (answer s 0 (if o = 0 ∧ n = 8 then (s.vfStatus cr).toNat else 0))
    else if fld ((s.hf ep.val fn.val).exports.get 0 j) 15 14 = 0 then .next (answer s 0 0)
    else match s.exportPage cr ((s.hf ep.val fn.val).exports.get 0 j) with
      | some pg =>
        if n = 8 ∧ o % 8 = 0 then .next (s.hostReg lg fn.val (pg + o % 4096) n write v.toNat)
        else .next (answer (s.aerLog lg fn.val) 1 0)
      | none => .next (answer (s.aerLog lg fn.val) 1 0)

/-! ## Outbound accesses (R484) -/

def outboundPa (ep cr off : Nat) : Nat := 0x100000000000 + 0x4000000000 * (8 + ep) + 0x200000000 + 0x80000000 * cr + off
/-- A store of a core or of a hub unit to the outbound area, of the type that the strict windows give it (05/R149, R160). -/
def State.outboundStore (s : State) (cr : Nat) (core : Option CoreId) (pa : Nat) (data : Bytes) : State :=
  match core with
  | none => s.unitPost cr pa data
  | some n =>
    if s.effType pa none = .strict then
      match s.storeDev n pa data .strict false [] with
      | .done s _ => s
      | .wait s => s
      | _ => s
    else s.postStore (some cr) (bytesAt (upto pa data.length) data)
/-- OUTBOUND_ACCESS: `data` are the bytes of a store, or as many bytes as a load asks for. An access that finds no tag waits: the row
changes nothing, and is given again (R475). -/
def execOutboundAccess (ep : Fin 2) (cr : CreelId) (off : BitVec 31) (write : Bool) (core : Option CoreId) (data : Bytes) (s : State) : Out :=
  let lg := 8 + ep.val
  let pa := outboundPa ep.val cr.val off.toNat
  let right : Right := { r := !write, w := write, x := false, dma := core.isNone }
  let mine : Bool := match core with | some n => s.creelOf n.val == some cr.val | none => true
  if !s.hostMode lg ∨ !tbit (s.lg lg).hamask cr.val ∨ !mine ∨ !s.segOk cr.val pa right then .next s
  else if write then .next (s.outboundStore cr.val core pa data)
  else if !(s.hf ep.val (cr.val + 1)).bme then
    let s := s.modLg lg fun g => { g with aer := g.aer + 1 }
    match core with
    | some n => .next (s.takeMc n.val 3 5 pa)
    | none => .next (s.creelError cr.val 2 4 5 pa lg 0)
  else match s.freeTag lg (cr.val + 1) with
    | none => .next s
    | some t =>
      .next ((s.addReq lg { tag := t, port := cr.val + 1, what := if core.isSome then 6 else 3, core := (core.map (·.val)).getD 0, creel := cr.val, pa := pa,
                            due := s.clock + s.cto lg, abandoned := false }).sendRequest lg t pa data.length)

/-! ## Resets of the endpoint (R487) -/

/-- A function's host-visible state at its reset values. -/
def HostFn.hostReset (f : HostFn) : HostFn := { f with bme := false, msix := [], fmask := false, vfEnable := false, numVfs := 0 }
def State.resetFns (s : State) (ep : Nat) : State :=
  { s with hostFns := s.hostFns.map fun p => if p.1 / 65 = ep then (p.1, p.2.hostReset) else p }
/-- Outstanding requests are abandoned: no completion of theirs is taken any more. -/
def State.abandonReqs (s : State) (lg : Nat) (of : LgReq → Bool) : State :=
  s.modLg lg fun g => { g with reqs := g.reqs.map fun r => if of r then { r with abandoned := true } else r }
/-- PERST_N, or a hot reset by the host. -/
def execPerstN (ep : Fin 2) (s : State) : Out :=
  let lg := 8 + ep.val
  if !s.hostMode lg then .next s
  else .next (((s.resetFns ep.val).modLg lg fun g => { g with ctl := 1, cto := 0, linkUp := 0 }).abandonReqs lg fun _ => true)
/-- FUNCTION_LEVEL_RESET: of the PF as a hot reset with the link up; of a VF its own state. The creel of the VF receives no error:
its strict-window stores count as acknowledged, and their tags go into quarantine. -/
def execFunctionLevelReset (ep : Fin 2) (fn : Fin 65) (s : State) : Out :=
  let lg := 8 + ep.val
  if !s.hostMode lg then .next s
  else if fn.val = 0 then .next (((s.resetFns ep.val).modLg lg fun g => { g with ctl := 1, cto := 0 }).abandonReqs lg fun _ => true)
  else
    let s := (s.modHf ep.val fn.val HostFn.hostReset).abandonReqs lg fun r => r.port = fn.val
    let acks := (s.lg lg).reqs.filter fun r => r.port = fn.val && (r.what == 1 || r.what == 4 || r.what == 5)
    let s := s.modLg lg fun g => { g with
      reqs := g.reqs.filter fun r => !acks.contains r, quarantine := g.quarantine ++ acks.map fun r => (r.tag, s.clock + 2 * s.cto lg) }
    .next (acks.foldl (fun s r => s.strictAck lg r) s)

/-! ## Links (R479; 18/R528; 17/R499; 23/R609) -/

/-- LINK_STATE_CHANGE: a root port's link goes down and retrains. -/
def execLinkStateChange (lg : Fin 10) (port : Fin 4) (s : State) : Out :=
  let g := s.lg lg.val
  if port.val < g.ports ∧ g.linkUp.testBit port.val then
    .next ((s.setLg lg.val { g with ctl := 3, linkUp := g.linkUp - 2 ^ port.val,
                                    cxlUp := if g.cxlUp.testBit port.val then g.cxlUp - 2 ^ port.val else g.cxlUp }).linkNotice lg.val port.val)
  else .next s
/-- DPC_RELEASE: on stepping B1 the phase changes only if the link fell during the containment (23/R609). -/
def execDpcRelease (lg : Fin 10) (port : Fin 4) (linkFell : Bool) (s : State) : Out :=
  if port.val < (s.lg lg.val).ports ∧ linkFell then .next (s.modLg lg.val fun g => { g with ctl := 3 }) else .next s
/-- Creels with a queue on a line port are told of its link (17/R499). -/
def State.lineNotice (s : State) (port : Nat) : State :=
  (((s.lqs.filter fun p => p.2.port = port).map fun p => p.1 / 16).eraseDups).foldl (fun s c => s.notice c 7 7) s
def State.lport (s : State) (p : Nat) : LinePort := s.lports.get lportReset p
def State.setLport (s : State) (p : Nat) (x : LinePort) : State := { s with lports := s.lports.set p x }
/-- A link that trained narrower than its port runs degraded: a corrected error of the lane group (R472; 17/R507). -/
def State.laneDegraded (s : State) (lg port : Nat) : State :=
  let s := s.bankCorrected 4 lg
  match (s.lg lg).owner port with | some c => s.creelCorrected c | none => s
/-- LINK_TRAINED: a link that had been up since the last reset comes back in recovery. -/
def execLinkTrained (l : TrainedLink) (s : State) : Out :=
  match l with
  | .root lg port cxl narrow =>
    let g := s.lg lg.val
    if port.val < g.ports ∧ !g.linkUp.testBit port.val then
      let again := g.wasUp.testBit port.val
      let g' : Lg := { g with linkUp := g.linkUp ||| 2 ^ port.val, wasUp := g.wasUp ||| 2 ^ port.val,
                              perst := g.perst ||| 2 ^ port.val,
                              cxlUp := if cxl ∧ tbit g.cfg 3 then g.cxlUp ||| 2 ^ port.val else g.cxlUp, ctl := if again then 3 else g.ctl }
      let s := if narrow then s.laneDegraded lg.val port.val else s
      .next ((s.setLg lg.val g').linkNotice lg.val port.val)
    else .next s
  | .endpoint lg => if s.hostMode lg.val then .next (s.modLg lg.val fun g => { g with linkUp := 1 }) else .next s
  | .line port =>
    let x := s.lport port.val
    if fld x.set 2 0 ≠ 0 ∧ !x.up then .next ((s.setLport port.val { x with up := true, paused := 0, prios := [] }).lineNotice port.val) else .next s
/-- The level that the device gives LG_n_PERST_k_N: low until the port's first training after SYS_RESET_N; none where it drives nothing
(22/R599). -/
def State.perstPin (s : State) (lg k : Nat) : Option Bool := if s.hostMode lg then none else some ((s.lg lg).perst.testBit k)
def execLinePortLinkDown (port : Fin 8) (s : State) : Out :=
  let x := s.lport port.val
  if x.up then .next ((s.setLport port.val { x with up := false }).lineNotice port.val) else .next s

/-! ## The host's configuration writes and MSI-X (R476, R487, R488) -/

def ctoEncodings : List Nat := [0, 1, 2, 5, 6, 9, 10, 13, 14]
/-- VF Enable cleared: every VF is reset. -/
def State.resetVfs (s : State) (ep : Nat) : State :=
  let s : State := { s with hostFns := s.hostFns.map fun p => if p.1 / 65 = ep ∧ p.1 % 65 ≠ 0 then (p.1, p.2.hostReset) else p }
  s.abandonReqs (8 + ep) fun _ => true
def State.pfWrite (s : State) (ep : Nat) (w : HostCfg) : State :=
  match w with
  | .vfEnable on =>
    let s := if on then s else s.resetVfs ep
    s.modHf ep 0 fun f => { f with vfEnable := on }
  | .numVfs n => if n ≤ 64 ∧ !(s.hf ep 0).vfEnable then s.modHf ep 0 fun f => { f with numVfs := n } else s
  | .timeout enc => if ctoEncodings.contains enc.toNat then s.modLg (8 + ep) fun g => { g with cto := enc.toNat } else s
  | _ => s
def execHostConfigWrite (ep : Fin 2) (fn : Fin 65) (w : HostCfg) (s : State) : Out :=
  let e := ep.val
  let f := fn.val
  if !s.hostMode (8 + e) ∨ !s.laneUp (8 + e) 0 then .next s
  else if f ≠ 0 ∧ !((s.hf e 0).vfEnable && decide (f ≤ (s.hf e 0).numVfs)) then .next s
  else match w with
    | .busMaster on => .next (s.modHf e f fun x => { x with bme := on })
    | .functionMask on => .next (s.modHf e f fun x => { x with fmask := on })
    | .vector n a d m =>
      if n < (if f = 0 then 2048 else 64) then
        .next (s.modHf e f fun x => { x with msix := x.msix.set n { addr := a, data := d, mask := m, pend := (x.msix.get msixReset n).pend } })
      else .next s
    | w => .next (if f = 0 then s.pfWrite e w else s)
/-- MSI_X_MESSAGE: a pending vector whose masks are clear is sent, and its pending bit clears. -/
def execMsiXMessage (ep : Fin 2) (fn : Fin 65) (vec : Fin 2048) (s : State) : Out :=
  let f := s.hf ep.val fn.val
  let m := f.msix.get msixReset vec.val
  if s.laneUp (8 + ep.val) 0 ∧ s.vfLive ep.val fn.val ∧ f.bme ∧ !f.fmask ∧ !m.mask ∧ m.pend then
    .next ((s.setHf ep.val fn.val { f with msix := f.msix.set vec.val { m with pend := false } }).emit 4
      [ep.val, fn.val, m.addr.toNat, m.data.toNat])
  else .next s

end Sys2Proof.Machine
end

