-- ==== Sys2Proof/Machine/Frames.lean ====
section
/-!
DEFINITION. Frames of the line ports: reception and transmission (16/R489-R496).
-/
namespace Sys2Proof.Machine

/-! ## What a frame says (PRESUMED: IEEE 802.3, 802.1Q, IPv4, IPv6, UDP, TCP, IEEE 1588 formats) -/

def be16 (b : Bytes) (o : Nat) : Nat := (b.getD o 0).toNat * 256 + (b.getD (o + 1) 0).toNat
def macAt (b : Bytes) (o : Nat) : Nat := beNat ((b.drop o).take 6)
def frameTagged (b : Bytes) : Bool := be16 b 12 == 0x8100
def frameTci (b : Bytes) : Nat := if frameTagged b then be16 b 14 else 0
def frameType (b : Bytes) : Nat := if frameTagged b then be16 b 16 else be16 b 12
/-- Where the payload after the EtherType begins. -/
def frameL3 (b : Bytes) : Nat := if frameTagged b then 18 else 14
/-- IPv6 extension headers: no protocol matches when one comes first (R493). -/
def ipv6Ext : List Nat := [0, 43, 44, 50, 51, 60, 135]
def frameProto (b : Bytes) : Option Nat :=
  let o := frameL3 b
  if frameType b = 0x0800 then some (b.getD (o + 9) 0).toNat
  else if frameType b = 0x86DD then
    let n := (b.getD (o + 6) 0).toNat
    if ipv6Ext.contains n then none else some n
  else none
/-- Where the transport header begins: after an IPv4 header of a first fragment, or an IPv6 header. -/
def frameL4 (b : Bytes) : Nat :=
  if frameType b = 0x0800 then frameL3 b + 4 * ((b.getD (frameL3 b) 0).toNat % 16) else frameL3 b + 40
def frameFragment (b : Bytes) : Bool := frameType b == 0x0800 && be16 b (frameL3 b + 6) % 8192 != 0
def framePort (b : Bytes) : Option Nat :=
  match frameProto b with
  | some p => if (p = 6 ∨ p = 17) ∧ !frameFragment b then some (be16 b (frameL4 b + 2)) else none
  | none => none
/-- The PTP message a frame carries: where it begins (R492). -/
def framePtp (b : Bytes) : Option Nat :=
  if frameType b = 0x88F7 then some (frameL3 b)
  else match frameProto b, framePort b with
    | some 17, some 319 | some 17, some 320 => some (frameL4 b + 8)
    | _, _ => none
/-- Event messages of PTP: Sync, Delay_Req, Pdelay_Req, Pdelay_Resp. -/
def ptpEvent (b : Bytes) : Bool := match framePtp b with | some o => (b.getD o 0).toNat % 16 < 4 | none => false
def frameLenOk (n : Nat) : Bool := decide (60 ≤ n) && decide (n ≤ 9216)

/-! ## Flow control (R489: IEEE 802.3 Annex 31B, 802.1Q) -/

/-- The rate of a port in bit/s (R489). -/
def portRate (set : W64) : Nat := match fld set 2 0 with | 1 => 25000000000 | 2 => 50000000000 | 3 => 100000000000 | 4 => 200000000000 | _ => 400000000000
/-- A pause time of n quanta of 512 bit times on the device clock. -/
def quanta (set : W64) (n : Nat) : Nat := n * 512 * 2 ^ 32 / portRate set
def isControl (b : Bytes) : Bool := frameType b == 0x8808
/-- A MAC control frame is not delivered: a pause frame stops the port, a priority-based one the priorities it names, for as long as it
says, where the port honours them. -/
def LinePort.control (x : LinePort) (b : Bytes) (now : Nat) : LinePort :=
  if be16 b 14 = 1 ∧ tbit x.set 6 then { x with paused := now + quanta x.set (be16 b 16) }
  else if be16 b 14 = 0x0101 then
    let on := (List.range 8).filter fun i => tbit (w64 (be16 b 16)) i && tbit x.set (16 + i)
    { x with prios := on.foldl (fun m i => m.set i (now + quanta x.set (be16 b (18 + 2 * i)))) x.prios }
  else x
/-- The control frame that a port sends: opcode, and what follows it. -/
def pauseFrame (port : Nat) (ws : List Nat) : Bytes :=
  let head : Bytes := [0x01, 0x80, 0xC2, 0x00, 0x00, 0x01] ++ (Config.portMac port ++ zeros 6).take 6 ++ toBe 2 0x8808 ++ ws.flatMap (toBe 2)
  head ++ zeros (60 - head.length)
/-- A receive queue of the port has no buffer left: the port asks its peer to stop, all of it or the frame's priority (log entry 101). -/
def State.sendPause (s : State) (port : Nat) (b : Bytes) : State :=
  let set := (s.lport port).set
  let p := frameTci b / 8192
  let send := fun (ws : List Nat) => s.emit 5 (port :: (pauseFrame port ws).map (·.toNat))
  if tbit set 7 then send [1, 0xFFFF]
  else if tbit set (24 + p) then send ([0x0101, 2 ^ p] ++ (List.range 8).map fun i => if i = p then 0xFFFF else 0)
  else s

/-! ## Steering (R490, R491, R493) -/

/-- An address-table entry in use matches the frame's VLAN. -/
def vlanMatch (e : W64 × W64) (b : Bytes) : Bool := tbit e.2 12 || fld e.2 11 0 == frameTci b % 4096
def entryCreel (e : W64 × W64) : Nat := fld e.2 19 13
def entryMac (e : W64 × W64) : Nat := fld e.1 47 0
/-- A creel holds a line queue on a port. -/
def State.onPort (s : State) (cr port : Nat) : Bool := s.lqs.any fun p => p.1 / 16 == cr && p.2.port == port
/-- The creels a frame goes to: broadcast, multicast or unicast. -/
def State.frameCreels (s : State) (port : Nat) (b : Bytes) : List Nat :=
  let d := macAt b 0
  let es := ((s.lport port).addrs.map (·.2)).filter fun e => tbit e.1 63 && vlanMatch e b && s.onPort (entryCreel e) port
  if d = 0xFFFFFFFFFFFF then ((es.filter fun e => tbit e.2 20).map entryCreel).eraseDups
  else
    let m := (es.filter fun e => entryMac e == d).map entryCreel
    if tbit (w64 d) 40 then m.eraseDups else m.take 1
def ruleHit (w : W64) (b : Bytes) : Bool :=
  tbit w 20 && (!tbit w 21 || frameType b == fld w 39 24) && (!tbit w 22 || frameProto b == some (fld w 47 40)) &&
    (!tbit w 23 || framePort b == some (fld w 63 48))
/-- The slot of a frame in a creel, and the rule: 0 to 15, or 0xFF for RULE_DEFAULT. -/
def State.frameSlot (s : State) (cr : Nat) (b : Bytes) : Option (Nat × Nat) :=
  match (List.range 16).find? fun k => ruleHit (s.rule cr k) b with
  | some k => some (fld (s.rule cr k) 3 0, k)
  | none => if tbit (s.rule cr 16) 4 then some (fld (s.rule cr 16) 3 0, 0xFF) else none

/-! ## Completions of a line queue (R495, 15/R448) -/

/-- A record goes to the completion ring: at once, or at its commit point's release in a mirrored creel. -/
def State.lineComplete (s : State) (cr k : Nat) (tx : Bool) (ws : List W64) (irq : Bool) : State :=
  let x := s.lq k
  let r := if tx then x.tx else x.rx
  let a := r.cqBase + 32 * ((r.cqProd + s.linePending k tx) % r.size)
  let src := if irq && tbit x.ctl 2 then some (fld x.ctl 28 16) else none
  if !s.dmaOk cr a 32 true then
    let s := s.creelError cr 2 5 0x42 a x.port 0
    if r.fault ≠ 0 then s
    else
      let (s, r) := s.ringFault cr (if tx then ltxKind else lrxKind) x.port r 2
      s.setLq k (if tx then { s.lq k with tx := r } else { s.lq k with rx := r })
  else if s.role cr ≠ 1 then s.lineRecord cr k tx a (entryBytes ws) src
  else if asyncCfg (s.pairCfg cr) ∧ !s.lagHeld cr then (s.commit cr false .none).lineRecord cr k tx a (entryBytes ws) src
  else s.commit cr false (.line k tx a (entryBytes ws) src)

/-! ## Reception -/

def State.frameDrop (s : State) (cr : Nat) : State := s.ucAdd cr 0x80 1
def State.portDrop (s : State) (p : Nat) : State := s.setLport p { s.lport p with drops := (s.lport p).drops + 1 }
/-- Do a creel's queues take frames: it runs or moves, in a role that runs (R496, 15/R462)? -/
def State.lineRuns (s : State) (cr : Nat) : Bool :=
  ((s.creel cr).st == .running || (s.creel cr).st == .migrating) && s.runsRole cr
/-- A frame meets the receive queue of a creel. -/
def State.frameTo (s : State) (port : Nat) (b : Bytes) (cr : Nat) : State :=
  if !s.lineRuns cr then s.frameDrop cr else
  match s.frameSlot cr b with
  | none => s.frameDrop cr
  | some (slot, rule) =>
    let k := 16 * cr + slot
    let x := s.lq k
    if !s.lqs.has k ∨ x.port ≠ port ∨ !x.rx.ready (s.linePending k false) then s.frameDrop cr
    else match s.ringRead cr lrxKind x.rx with
      | .inl code =>
        let (s, r) := s.ringFault cr lrxKind port x.rx code
        (s.setLq k { x with rx := r }).frameDrop cr
      | .inr ws =>
        let buf := (ws.getD 0 0).toNat
        if fld (ws.getD 1 0) 31 0 < b.length then s.frameDrop cr
        else if !s.dmaOk cr buf b.length true then (s.creelError cr 2 5 0x30 buf port 0).frameDrop cr
        else
          let s := s.unitWrite cr buf b
          let s := s.setLq k { s.lq k with rx := x.rx.take }
          let w0 := w64 (x.rx.taken * 2 ^ 32 + b.length * 65536 + rule * 256 + b2n (ptpEvent b) * 2 + b2n (frameTagged b))
          let w2 := w64 (s.hoop.st % 4 * 2 ^ 32 + s.hoop.frac % 2 ^ 32)
          let s := (s.ucAdd cr 0x70 1).lineComplete cr k false [w0, w64 s.hoop.sec, w2, w64 (frameTci b)] true
          if (s.lq k).rx.prod = (s.lq k).rx.taken then s.sendPause port b else s
/-- A PTP message of the configured port and domain goes to the Stake (R492); what it does there is PTP_MESSAGE. -/
def State.stakePtp (s : State) (port : Nat) (b : Bytes) : Bool :=
  match framePtp b with
  | some o => fld (w64 s.stake.hoopCfg.ptp) 2 0 == port && (b.getD (o + 4) 0).toNat == fld (w64 s.stake.hoopCfg.ptp) 15 8
  | none => false
/-- FRAME_RECEIVE: a frame without its FCS. -/
def execFrameReceive (port : Fin 8) (b : Bytes) (fcsOk : Bool) (s : State) : Out :=
  let p := port.val
  if !(s.lport p).up then .next s
  else if !fcsOk ∨ !frameLenOk b.length then .next (s.portDrop p)
  else if isControl b then .next (s.setLport p ((s.lport p).control b s.clock))
  else if s.stakePtp p b then .next s
  else match s.frameCreels p b with
    | [] => .next (s.portDrop p)
    | l => .next (l.foldl (fun s c => s.frameTo p b c) s)

/-! ## Transmission -/

/-- Does flow control let the next frame of a queue go (R489)? -/
def State.mayTx (s : State) (port k : Nat) : Bool :=
  let prio := match s.ringRead (k / 16) ltxKind (s.lq k).tx with
    | .inr ws => frameTci (s.rdBytes (ws.getD 0 0).toNat (fld (ws.getD 1 0) 15 0)) / 8192
    | .inl _ => 0
  decide ((s.lport port).paused ≤ s.clock) && decide ((s.lport port).prios.get 0 prio ≤ s.clock)
/-- The frames' queues of a port that have one to send, in slot order. -/
def State.txReady (s : State) (port : Nat) : List Nat :=
  (mapKeys s.lqs).filter fun k => (s.lq k).port == port && (s.creel (k / 16)).st == .running && s.runsRole (k / 16) &&
    (s.lq k).tx.ready (s.linePending k true) && s.mayTx port k
/-- The status of a descriptor. -/
def State.txStatus (s : State) (cr port : Nat) (ws : List W64) : Nat :=
  let a := (ws.getD 0 0).toNat
  let n := fld (ws.getD 1 0) 15 0
  if ws.getD 2 0 ≠ 0 ∨ ws.getD 3 0 ≠ 0 then 0x0203
  else if !frameLenOk n then 0x0202
  else if !s.dmaOk cr a n false ∨ s.poisonedRange a n then 0x0109
  else if !((s.lport port).addrs.any fun e => tbit e.2.1 63 && entryCreel e.2 == cr && entryMac e.2 == macAt (s.rdBytes a n) 6) then 0x0204
  else if !(s.lport port).up then 0x0401
  else 0
/-- FRAME_TRANSMIT: the queues of a port are served in turn; each sends its frames in order. -/
def execFrameTransmit (port : Fin 8) (s : State) : Out :=
  let p := port.val
  let l := s.txReady p
  match (l.find? fun k => (s.lport p).turn < k + 1).or l.head? with
  | none => .next s
  | some k =>
    let cr := k / 16
    let s := s.setLport p { s.lport p with turn := k + 1 }
    let x := s.lq k
    match s.ringRead cr ltxKind x.tx with
    | .inl code =>
      let (s, r) := s.ringFault cr ltxKind p x.tx code
      .next (s.setLq k { x with tx := r })
    | .inr ws =>
      let st := s.txStatus cr p ws
      let s := s.setLq k { x with tx := x.tx.take }
      let s := if st = 0 then (s.emit 5 (p :: (s.rdBytes (ws.getD 0 0).toNat (fld (ws.getD 1 0) 15 0)).map (·.toNat))).ucAdd cr 0x78 1 else s
      let w0 := w64 (fld (ws.getD 1 0) 63 32 * 2 ^ 32 + st * 65536 + x.tx.taken % 65536)
      let stamp := if st = 0 then [w64 s.hoop.sec, w64 (s.hoop.st % 4 * 2 ^ 32 + s.hoop.frac % 2 ^ 32)]
        else [w64 (s.drawn .unstated), w64 (Config.free .unstated (s.free + 1))]
      let s := if st = 0 then s else { s with free := s.free + 2 }
      .next (s.lineComplete cr k true (w0 :: stamp ++ [0]) (tbit (ws.getD 1 0) 16))

end Sys2Proof.Machine
end

