-- ==== Sys2Proof/Machine/HKeys.lean ====
section
/-!
DEFINITION. The KEY and SESSION families of the Hamper (12/R352-R355, R614) and the X9.143 key blocks (11/R315, R316).
-/
namespace Sys2Proof.Machine

/-! ## ANSI X9.143 key blocks, version D (log entry 17) -/

def hexDigit (n : Nat) : Byte := BitVec.ofNat 8 (if n < 10 then 0x30 + n else 0x41 + n - 10)
def hexOf (b : Bytes) : Bytes := (nibblesOf b).map hexDigit
where nibblesOf (b : Bytes) : List Nat := b.flatMap fun x => [x.toNat / 16, x.toNat % 16]
def hexVal (b : Byte) : Option Nat :=
  let n := b.toNat
  if 0x30 ≤ n ∧ n ≤ 0x39 then some (n - 0x30) else if 0x41 ≤ n ∧ n ≤ 0x46 then some (n - 0x41 + 10) else none
def unhex : Bytes → Option Bytes
  | [] => some []
  | a :: b :: r => do let x ← hexVal a; let y ← hexVal b; let t ← unhex r; some (BitVec.ofNat 8 (16 * x + y) :: t)
  | [_] => none
/-- n decimal digits. -/
def decOf4 (n : Nat) : Bytes := [n / 1000 % 10, n / 100 % 10, n / 10 % 10, n % 10].map hexDigit
/-- A key derived from the block protection key: encryption (0) or authentication (1). -/
def kbpkDerive (k : Bytes) (use : Nat) : Bytes :=
  (([1, 2] : List Byte).flatMap fun i => cmac (aesCipher k) ([i] ++ toBe 2 use ++ [0, 0, 4, 1, 0])).take 32
/-- Key usage, algorithm and mode of the header. -/
def blockUsage (w : W64) : Bytes :=
  let u := attrUsage w
  let a := attrAlg w
  ascii (if u &&& 3 ≠ 0 then "D0" else if u = 4 then (if attrKek w then "K1" else "K0")
    else if u = 8 then (if a = 8 then "M3" else if a = 0x10 then "M7" else "M6") else if u = 0x10 then "P0" else if u = 0x20 then "B0" else "S0")
def blockAlg (a : Nat) : Bytes := ascii (if isAes a then "A" else if a = 8 then "T" else if a = 0x10 then "H" else if isRsa a then "R" else "E")
def blockMode (u : Nat) : Bytes :=
  ascii (if u = 1 then "E" else if u = 2 then "D" else if u = 3 ∨ u = 4 ∨ u = 0x10 then "B" else if u = 8 then "C" else if u = 0x20 then "X"
    else if u = 0x40 then "S" else if u = 0x80 then "V" else "T")
/-- The optional block with identifier 10: attribute words 0 to 3, creel, generation; then padding to the block size. -/
def blockOpt (k : KeyObj) (gen : Nat) : Bytes :=
  let d := hexOf (toBe 8 k.w0.toNat ++ toBe 8 k.notBefore.toNat ++ toBe 8 k.notAfter.toNat ++ toBe 8 k.useLimit.toNat ++
    toBe 1 (attrCreel k.w0) ++ toBe 4 gen)
  ascii "10" ++ hexOf (toBe 1 (d.length + 4)) ++ d ++ ascii "PB12" ++ List.replicate 14 0x30
def keyBlock (kek : Bytes) (k : KeyObj) (gen : Nat) (fill : Bytes) : Bytes :=
  let body := toBe 2 (8 * k.secret.length) ++ k.secret
  let body := body ++ fill.take ((16 - body.length % 16) % 16)
  let hdr := ascii "D" ++ decOf4 (16 + 96 + 2 * body.length + 32) ++ blockUsage k.w0 ++ blockAlg k.alg ++
    blockMode (attrUsage k.w0) ++ ascii "00" ++ ascii (if attrExport k.w0 = 2 then "E" else "N") ++ ascii "0200" ++ blockOpt k gen
  let mac := cmac (aesCipher (kbpkDerive kek 1)) (hdr ++ body)
  hdr ++ hexOf (cbcEnc (aesCipher (kbpkDerive kek 0)) mac body) ++ hexOf mac
/-- What a block gives: its key and, from the optional block 10, its attribute words, creel and generation. -/
structure BlockOut where
  secret : Bytes
  usage : Bytes
  alg : Byte
  attrs : Option (List W64 × Nat × Nat)
/-- Optional blocks in turn. -/
def findOpt (id : Bytes) : Nat → Bytes → Option Bytes
  | 0, _ => none
  | k + 1, b =>
    match unhex ((b.drop 2).take 2) with
    | some [n] => if b.take 2 = id then some ((b.take n.toNat).drop 4) else findOpt id k (b.drop n.toNat)
    | _ => none
def optLen : Nat → Bytes → Nat
  | 0, _ => 0
  | k + 1, b => match unhex ((b.drop 2).take 2) with | some [n] => n.toNat + optLen k (b.drop n.toNat) | _ => 0
/-- A block opened under a protection key; none: it does not authenticate. -/
def openBlock (kek : Bytes) (b : Bytes) : Option BlockOut :=
  match unhex ((b.drop 12).take 2) with
  | some [n] =>
    let hl := 16 + optLen n.toNat (b.drop 16)
    match unhex ((b.drop hl).take (b.length - hl - 32)), unhex (b.drop (b.length - 32)) with
    | some ct, some mac =>
      let body := cbcDec (aesCipher (kbpkDerive kek 0)) mac ct
      let bits := beNat (body.take 2)
      if b.headD 0 = 0x44 ∧ ct.length % 16 = 0 ∧ cmac (aesCipher (kbpkDerive kek 1)) (b.take hl ++ body) = mac ∧ bits / 8 + 2 ≤ body.length then
        let at_ := (findOpt (ascii "10") n.toNat (b.drop 16)).bind unhex
        some { secret := (body.drop 2).take (bits / 8), usage := (b.drop 5).take 2, alg := b.getD 7 0,
               attrs := at_.map fun d => ((List.range 4).map fun i => w64 (beNat ((d.drop (8 * i)).take 8)), beNat ((d.drop 32).take 1), beNat (d.drop 33)) }
      else none
    | _, _ => none
  | _ => none
/-- Attributes of a block without the optional block, from its usage and algorithm. -/
def attrsOfUsage (u : Bytes) (a : Byte) (n : Nat) : W64 :=
  let alg := if a = 0x54 then 8 else if a = 0x48 then 0x10 else if a = 0x41 then (if n = 16 then 1 else if n = 24 then 2 else if n = 32 then 3 else 0) else 0
  let us := if u = ascii "D0" then (if alg = 8 then 2 else 3) else if u = ascii "K0" ∨ u = ascii "K1" then 4
    else if u.headD 0 = 0x4D then 8 else if u = ascii "P0" then 0x10 else if u = ascii "B0" then 0x20 else 0
  w64 (alg * 2 ^ 56 + us * 2 ^ 48 + 2 ^ 44 + b2n (u == ascii "K1" && alg == 3) * 2 ^ 45)

/-- The storage key of a creel (11/R306). -/
def State.storageKey (s : State) (cr : Nat) : Bytes :=
  kdf s.bbkm.storageRoot (ascii "CSK") (Config.asciiNumber cr ++ Config.asciiNumber (s.bbkm.gens.get 0 cr)) 32

/-! ## KEY (12/R352-R354) -/

def tmplWords : List Nat := [9, 10, 11, 12]
/-- Check 1 of a template: must-be-zero fields, R314 and R316, and a limited key stays resident (11/R315). -/
def tmplCheck (c : HCmd) : Option (Nat × W64) :=
  let w := c.w 9
  if !templateMbz w then some (0x0203, 0)
  else if !attrOk w then some (0x0206, 0)
  else if c.w 12 ≠ 0 ∧ attrExport w ≠ 0 then some (0x0107, 0)
  else none
def needOut (c : HCmd) (n : Nat) : Option (Nat × W64) := if !c.outSeal && c.outCap < n then some (0x0202, w64 n) else none
/-- A new object from a command's template; the quota may be reached (0x0501). -/
def State.make (s : State) (c : HCmd) (w0 : W64) (sec pub : Bytes) (out : Bytes) : HWork :=
  match s.newObj c.creel w0 (c.w 10) (c.w 11) (c.w 12) sec pub with
  | some (t, h) => { s := t, result := some h, out := out, changes := true }
  | none => { s := s, status := 0x0501 }

/-- KEY_GEN; a key pair that fails its pairwise consistency test is not created (21/R579). -/
def keyGenSpec (consistent : Bool) : HSpec :=
  { useOut := true, params := tmplWords,
    fmt := fun c => tmplCheck c <|> (if c.outCap ≠ 0 ∧ isAsym (attrAlg (c.w 9)) then needOut c (pubLen (attrAlg (c.w 9))) else none),
    random := fun _ _ => true,
    work := fun s c _ =>
      let a := attrAlg (c.w 9)
      let (t, sec) := s.genSecret c.creel a (16 + s.drawn .unstated % 49)
      let pub := publicOf a sec
      if isAsym a ∧ !consistent then { s := t, status := 0x0701 }
      else t.make c (c.w 9) sec pub (if c.outCap = 0 then [] else pub) }
def execKeyGen (id : Nat) (consistent : Bool) (s : State) : Out := hamper 0x0101 id (keyGenSpec consistent) s

/-- The attributes that an opened block gives its object, if R314 allows them. -/
def State.importBlock (s : State) (c : HCmd) (b : BlockOut) (fromStore : Bool) : HWork :=
  let (w0, nb, na, lim) : W64 × W64 × W64 × W64 := match b.attrs with
    | some (l, _, _) => (l.getD 0 0, l.getD 1 0, l.getD 2 0, l.getD 3 0)
    | none => (attrsOfUsage b.usage b.alg b.secret.length, 0, BitVec.allOnes 64, 0)
  if !attrOk w0 ∨ !keyLenOk (attrAlg w0) b.secret.length then { s := s, status := 0x0206 }
  else if lim ≠ 0 ∧ attrExport w0 ≠ 0 then { s := s, status := 0x0107 }
  else if fromStore && (match b.attrs with | some (_, cr, g) => cr != c.creel || g != s.bbkm.gens.get 0 c.creel | none => true) then { s := s, status := 0x0601 }
  else match s.newObj c.creel w0 nb na lim b.secret (publicOf (attrAlg w0) b.secret) with
    | some (t, h) => { s := t, result := some h, changes := true }
    | none => { s := s, status := 0x0501 }
def keyImportSpec : HSpec :=
  { useIn := true, useK1 := true, params := 13 :: tmplWords, sealIn := fun c => fld (c.w 13) 1 0 == 0,
    fmt := fun c =>
      if 1 < fld (c.w 13) 1 0 then some (0x0204, 0)
      else if (c.w 13).toNat / 4 ≠ 0 then some (0x0203, 0)
      else if !c.inSeal ∧ (c.inLen = 0 ∨ 8192 < c.inLen) then some (0x0202, 0)
      else if fld (c.w 13) 1 0 = 0 then (if tmplWords.any fun i => c.w i != 0 then some (0x0203, 0) else none)
      else tmplCheck c <|> (if 1 < attrExport (c.w 9) then some (0x0206, 0) else none),
    may := fun c ks =>
      let k := ks.headD keyReset
      if fld (c.w 13) 1 0 = 0 then k.alg == 3 && attrKek k.w0 && k.may 50
      else (k.alg == 0x21 || k.alg == 0x22) && k.may 50 && k.secret != [],
    work := fun s c ks =>
      let k := ks.headD keyReset
      if fld (c.w 13) 1 0 = 0 then
        match openBlock k.secret (s.hIn c) with
        | some b => s.importBlock c b false
        | none => { s := s, status := 0x0601 }
      else match (if c.inLen = k.secret.length then oaepDecode (rsaPriv k.secret (s.hIn c)) else none) with
        | some sec =>
          if keyLenOk (attrAlg (c.w 9)) sec.length then s.make c (c.w 9) sec (publicOf (attrAlg (c.w 9)) sec) []
          else { s := s, status := 0x0206 }
        | none => { s := s, status := 0x0601 } }
def execKeyImport (id : Nat) (s : State) : Out := hamper 0x0102 id keyImportSpec s

def blockLen (k : KeyObj) : Nat := 16 + 96 + 2 * ((k.secret.length + 2 + 15) / 16 * 16) + 32
def keyExportSpec : HSpec :=
  { useOut := true, useK1 := true, useK2 := true,
    may := fun _ ks =>
      let k := ks.headD keyReset
      let e := ks.getD 1 keyReset
      attrExport k.w0 == 2 && k.secret != [] && e.alg == 3 && attrKek e.w0 && e.may 50,
    limits := fun c ks => needOut c (blockLen (ks.headD keyReset)),
    approval := fun _ ks => attrDual (ks.headD keyReset).w0, random := fun _ _ => true,
    work := fun s c ks =>
      let (t, f) := s.random c.creel 16
      { s := t, out := keyBlock (ks.getD 1 keyReset).secret (ks.headD keyReset) (s.bbkm.gens.get 0 c.creel) f } }
def execKeyExport (id : Nat) (s : State) : Out := hamper 0x0103 id keyExportSpec s
def keyStoreSpec : HSpec :=
  { useOut := true, useK1 := true, counts := false,
    may := fun _ ks => attrExport (ks.headD keyReset).w0 != 0 && (ks.headD keyReset).secret != [],
    limits := fun c ks => needOut c (blockLen (ks.headD keyReset)),
    approval := fun _ ks => attrDual (ks.headD keyReset).w0, random := fun _ _ => true,
    work := fun s c ks =>
      let (t, f) := s.random c.creel 16
      { s := t, out := keyBlock (s.storageKey c.creel) (ks.headD keyReset) (s.bbkm.gens.get 0 c.creel) f } }
def execKeyStore (id : Nat) (s : State) : Out := hamper 0x0104 id keyStoreSpec s
def keyLoadSpec : HSpec :=
  { useIn := true, fmt := fun c => if c.inLen = 0 ∨ 8192 < c.inLen then some (0x0202, 0) else none,
    work := fun s c _ => match openBlock (s.storageKey c.creel) (s.hIn c) with
      | some b => s.importBlock c b true
      | none => { s := s, status := 0x0601 } }
def execKeyLoad (id : Nat) (s : State) : Out := hamper 0x0105 id keyLoadSpec s

/-- The attribute block of an object (11/R313). -/
def attrBlock (k : KeyObj) : Bytes :=
  words8 [k.w0.toNat, k.notBefore.toNat, k.notAfter.toNat, k.useLimit.toNat, k.useCount.toNat, k.kcv * 2 ^ 40, k.version.toNat, k.handle.toNat]
def keyInfoSpec : HSpec :=
  { useOut := true, useK1 := true, counts := false, fmt := fun c => needOut c 64,
    work := fun s _ ks => { s := s, out := attrBlock (ks.headD keyReset) } }
def execKeyInfo (id : Nat) (s : State) : Out := hamper 0x0106 id keyInfoSpec s
/-- Does a change only narrow the key (11/R318)? -/
def narrows (k : KeyObj) (w0 nb na lim : W64) : Bool :=
  w0 &&& ~~~0x00FFE00000000000#64 == k.w0 &&& ~~~0x00FFE00000000000#64 && attrUsage w0 &&& attrUsage k.w0 == attrUsage w0 &&
    (!attrKek w0 || attrKek k.w0) && attrExport w0 ≤ attrExport k.w0 && k.notBefore.toNat ≤ nb.toNat && na.toNat ≤ k.notAfter.toNat &&
    (lim == k.useLimit || (lim != 0 && (k.useLimit == 0 || decide (lim.toNat < k.useLimit.toNat)) && k.useCount.toNat ≤ lim.toNat))
def keyModifySpec : HSpec :=
  { useK1 := true, params := tmplWords, counts := false,
    fmt := fun c => if fld (c.w 9) 41 38 ≠ 0 ∨ fld (c.w 9) 31 0 ≠ 0 then some (0x0203, 0) else none, approval := fun _ ks => attrDual (ks.headD keyReset).w0,
    work := fun s c ks =>
      let k := ks.headD keyReset
      if !attrOk (c.w 9) then { s := s, status := 0x0206 }
      else if !narrows k (c.w 9) (c.w 10) (c.w 11) (c.w 12) ∨ (c.w 12 ≠ 0 ∧ attrExport (c.w 9) ≠ 0) then { s := s, status := 0x0107 }
      else
        let k' : KeyObj := { k with w0 := c.w 9, notBefore := c.w 10, notAfter := c.w 11, useLimit := c.w 12, version := k.version + 1 }
        { s := (s.setObj k').uncache (handleIx k.handle), result := some k'.version, changes := true } }
def execKeyModify (id : Nat) (s : State) : Out := hamper 0x0107 id keyModifySpec s
def keyDestroySpec : HSpec :=
  { useK1 := true, counts := false, approval := fun _ ks => attrDual (ks.headD keyReset).w0,
    work := fun s _ ks => { s := s.destroy (ks.headD keyReset).handle, changes := true } }
def execKeyDestroy (id : Nat) (s : State) : Out := hamper 0x0108 id keyDestroySpec s
def keyPublicSpec : HSpec :=
  { useOut := true, useK1 := true, counts := false, may := fun _ ks => isAsym (ks.headD keyReset).alg,
    limits := fun c ks => needOut c (ks.headD keyReset).pub.length,
    work := fun s _ ks => { s := s, out := (ks.headD keyReset).pub } }
def execKeyPublic (id : Nat) (s : State) : Out := hamper 0x0109 id keyPublicSpec s
def keyImportPublicSpec : HSpec :=
  { useIn := true, params := tmplWords,
    fmt := fun c =>
      let a := attrAlg (c.w 9)
      let u := attrUsage (c.w 9)
      tmplCheck c <|> (if !isAsym a ∨ (u ≠ 0x80 ∧ u ≠ 4) ∨ (isRsa a ∧ u = 4) then some (0x0206, 0)
        else if c.inLen ≠ pubLen a then some (0x0202, 0) else none),
    work := fun s c _ => s.make c (c.w 9) [] (s.hIn c) [] }
def execKeyImportPublic (id : Nat) (s : State) : Out := hamper 0x010A id keyImportPublicSpec s

/-- KEY_COMBINE: the checks of R353 in their order, then the exclusive OR of the components. The algorithm of the template
is of class 0x02 and no key decides it, so it is checked with the format (12/R351). -/
def combineCheck (s : State) (c : HCmd) : Nat :=
  let a := attrAlg (c.w 9)
  let set := s.stake.comps.filter fun x => x.creel = c.creel ∧ x.set = fld (c.w 13) 15 0
  let len := match a with | 1 => 16 | 2 => 24 | 3 => 32 | _ => 16
  if set.length < 2 ∨ (set.map (·.card)).eraseDups.length ≠ set.length ∨ set.any (fun x => x.key.length ≠ len) then 0x0204
  else if set.any (fun x => kcvOf a x.key ≠ x.kcv) then 0x0601 else 0
def keyCombineSpec : HSpec :=
  { params := 13 :: tmplWords,
    fmt := fun c => if (c.w 13).toNat / 65536 ≠ 0 then some (0x0203, 0)
      else tmplCheck c <|> (if !isAes (attrAlg (c.w 9)) ∧ attrAlg (c.w 9) ≠ 8 then some (0x0206, 0) else none),
    work := fun s c _ =>
      let set := w64 (fld (c.w 13) 15 0)
      if (s.approvalIx c.creel set 0x010B).isNone then { s := s, status := 0x0106 }
      else
        let t := s.useApproval c.creel set 0x010B
        let st := combineCheck s c
        if st ≠ 0 then { s := t, status := st }
        else
          let parts := s.stake.comps.filter fun x => x.creel = c.creel ∧ x.set = set.toNat
          let key := (parts.drop 1).foldl (fun k x => xorBytes k x.key) ((parts.headD { creel := 0, set := 0, ix := 0, card := 0, key := [], kcv := 0 }).key)
          let t := t.modStake fun k => { k with comps := k.comps.filter fun x => !(x.creel == c.creel && x.set == set.toNat) }
          t.make c (setFld (c.w 9) 43 43 1) key [] [] }
def execKeyCombine (id : Nat) (s : State) : Out := hamper 0x010B id keyCombineSpec s

/-! ## SESSION (12/R355, R614) -/

def State.sessCount (s : State) (cr : Nat) : Nat := (s.vault.sess.filter fun p => p.2.creel = cr ∧ p.2.closed = 0).length
/-- The handles of an input of eight-byte words. -/
def handleList (b : Bytes) : List W64 := (chunks 8 b).map fun x => w64 (leNat x)
def sessionOpenSpec : HSpec :=
  { useIn := true, params := [9, 10, 11],
    fmt := fun c => if (c.w 9).toNat / 512 ≠ 0 then some (0x0203, 0)
      else if c.inLen % 8 ≠ 0 ∨ 128 < c.inLen then some (0x0202, 0) else none,
    work := fun s c _ =>
      let hs := handleList (s.hIn c)
      if hs.any fun h => h != 0 && (s.objOf c.creel h).isNone then { s := s, status := 0x0101 }
      else if s.quota c.creel 5 ≤ s.sessCount c.creel then { s := s, status := 0x0502 }
      else match (List.range 4096).find? fun n => (s.session n).closed ≠ 0 with
        | none => { s := s, status := 0x0502 }
        | some n =>
          let g := (s.session n).gen + 1
          let x : Sess :=
            { gen := g, creel := c.creel, slots := (hs.zipIdx.filter fun p => p.1 ≠ 0).map fun p => (p.2, p.1),
              families := fld (c.w 9) 8 0, expiry := c.w 10, maxCmd := fld (c.w 11) 63 32, maxFail := fld (c.w 11) 31 0,
              cmds := 0, fails := 0, closed := 0 }
          { s := s.setSession n x, result := some (w64 (sessHandle n g)), changes := true } }
def execSessionOpen (id : Nat) (s : State) : Out := hamper 0x0201 id sessionOpenSpec s
def ctxOf (c : HCmd) : Nat := fld (c.w 1) 43 32
def needSess (c : HCmd) : Option (Nat × W64) := if c.sess then none else some (0x0204, 0)
def sessionBindSpec : HSpec :=
  { params := [9, 10], fmt := fun c => needSess c <|> (if (c.w 9).toNat / 16 ≠ 0 then some (0x0203, 0) else none),
    work := fun s c _ =>
      if c.w 10 ≠ 0 ∧ (s.objOf c.creel (c.w 10)).isNone then { s := s, status := 0x0101 }
      else
        let x := s.session (ctxOf c)
        let sl := x.slots.erase (fld (c.w 9) 3 0)
        let x : Sess := { x with slots := if c.w 10 = 0 then sl else sl.set (fld (c.w 9) 3 0) (c.w 10) }
        { s := s.setSession (ctxOf c) x, changes := true } }
def execSessionBind (id : Nat) (s : State) : Out := hamper 0x0202 id sessionBindSpec s
def sessionCloseSpec : HSpec :=
  { fmt := needSess, work := fun s c _ => { s := s.setSession (ctxOf c) { s.session (ctxOf c) with closed := 1 }, changes := true } }
def execSessionClose (id : Nat) (s : State) : Out := hamper 0x0203 id sessionCloseSpec s
/-- The 192-byte context (12/R614). -/
def sessionBlock (n : Nat) (x : Sess) : Bytes :=
  words8 ([sessHandle n x.gen * 2 ^ 32 + x.creel, x.families, x.expiry.toNat, x.maxCmd * 2 ^ 32 + x.maxFail, x.cmds, x.fails, 0, 0] ++
    (List.range 16).map fun i => (x.slots.get 0 i).toNat)
def sessionInfoSpec : HSpec :=
  { useOut := true, fmt := fun c => needSess c <|> needOut c 192,
    work := fun s c _ => { s := s, out := sessionBlock (ctxOf c) (s.session (ctxOf c)) } }
def execSessionInfo (id : Nat) (s : State) : Out := hamper 0x0204 id sessionInfoSpec s
/-- SESSION_EXPIRY: an open session whose expiry has passed closes (11/R326). -/
def execSessionExpiry (n : Fin 4096) (s : State) : Out :=
  let x := s.session n
  if s.vault.sess.has n ∧ x.closed = 0 ∧ x.expiry ≠ BitVec.allOnes 64 ∧ x.expiry.toNat < s.hoop.sec then
    .next ((s.setSession n { x with closed := 2 }).vaultChange x.creel ((s.setSession n { x with closed := 2 }).sessMsg n))
  else .next s

end Sys2Proof.Machine
end

