-- ==== Sys2Proof/Machine/Pay.lean ====
section
/-!
DEFINITION. The payment methods the Hamper names (12/R359-R367): ISO 9564 PIN blocks, ANSI X9.24 DUKPT, EMV card and
session keys and cryptograms, card verification codes, FF1 of SP 800-38G. Log entry 13 lists what the manual leaves to
those standards.
-/
namespace Sys2Proof.Machine

/-! ## Digits and nibbles -/

def isDigit (b : Byte) : Bool := 0x30 ≤ b.toNat && b.toNat ≤ 0x39
def digitsOf (b : Bytes) : List Nat := b.map fun x => x.toNat - 0x30
def digitBytes (l : List Nat) : Bytes := l.map fun d => BitVec.ofNat 8 (0x30 + d)
def nibbles (b : Bytes) : List Nat := b.flatMap fun x => [x.toNat / 16, x.toNat % 16]
def fromNibbles : List Nat → Bytes
  | a :: b :: r => BitVec.ofNat 8 (16 * a + b) :: fromNibbles r
  | _ => []

/-! ## PIN blocks (12/R359) -/

/-- The PAN field of formats 0 and 3: four zeros and the twelve rightmost digits without the check digit. -/
def panField (pan : List Nat) : List Nat := [0, 0, 0, 0] ++ (pan.take (pan.length - 1)).drop (pan.length - 13)
def xorNibs (a b : List Nat) : List Nat := a.zipWith (· ^^^ ·) b
/-- The PIN of a clear 8-byte block of format 0, 1 or 3, if its fields are right. -/
def pinOf8 (fmt : Nat) (block : Bytes) (pan : List Nat) : Option (List Nat) :=
  let raw := nibbles block
  let n := if fmt = 1 then raw else xorNibs raw (panField pan)
  let len := n.getD 1 0
  let pin := (n.drop 2).take len
  let fill := n.drop (2 + len)
  let fillOk := if fmt = 0 then fill.all (· == 15) else if fmt = 3 then fill.all (10 ≤ ·) else true
  if n.getD 0 0 = fmt ∧ 4 ≤ len ∧ len ≤ 12 ∧ pin.all (· < 10) ∧ fillOk then some pin else none
/-- The PAN field of format 4: the length above 12, the digits, zeros. -/
def panField4 (pan : List Nat) : Bytes :=
  fromNibbles (((pan.length - 12) :: pan) ++ List.replicate (31 - pan.length) 0)
def pinOf16 (c : Cipher) (block : Bytes) (pan : List Nat) : Option (List Nat) :=
  let n := nibbles (c.dec (xorBytes (c.dec block) (panField4 pan)))
  let len := n.getD 1 0
  let pin := (n.drop 2).take len
  if n.getD 0 0 = 4 ∧ 4 ≤ len ∧ len ≤ 12 ∧ pin.all (· < 10) ∧ ((n.take 16).drop (2 + len)).all (· == 10) then some pin else none
/-- An enciphered format 4 block with eight bytes of random fill. -/
def pinBlock4 (c : Cipher) (pin pan : List Nat) (fill : Bytes) : Bytes :=
  let p := fromNibbles ([4, pin.length] ++ pin ++ List.replicate (14 - pin.length) 10) ++ fill
  c.enc (xorBytes (c.enc p) (panField4 pan))

/-! ## DUKPT (12/R361) -/

/-- What the working key is for. -/
inductive KeyUse where
  | pin | mac | data
  deriving DecidableEq, Repr
/-- Key bytes of an algorithm code (11/R314). -/
def symLen : Nat → Nat | 1 => 16 | 2 => 24 | 3 => 32 | 8 => 16 | _ => 0
def dukptAlg : Nat → Nat | 8 => 0 | 1 => 2 | 2 => 3 | _ => 4
/-- AES DUKPT derivation: usage, key length, and the eight bytes of identity. -/
def aesDerive (key : Bytes) (use alg : Nat) (ident : Bytes) : Bytes :=
  let len := symLen alg
  ((List.range ((len + 15) / 16)).flatMap fun i =>
    aesEnc key ([1] ++ toBe 1 (i + 1) ++ toBe 2 use ++ toBe 2 (dukptAlg alg) ++ toBe 2 (8 * len) ++ ident)).take len
def onesIn (n v : Nat) : Nat := ((List.range n).filter v.testBit).length
def aesDukptFrom (alg : Nat) (idLow : Bytes) (ctr : Nat) : Nat → Nat → Bytes → Bytes
  | 0, _, k => k
  | b + 1, work, k =>
    if ctr.testBit b then
      let work := work + 2 ^ b
      aesDukptFrom alg idLow ctr b work (aesDerive k 0x8000 alg (idLow ++ toBe 4 work))
    else aesDukptFrom alg idLow ctr b work k
/-- The working key of AES DUKPT: base key of algorithm `alg`, working algorithm `walg`, 12-byte serial number. -/
def aesDukpt (bdk : Bytes) (alg walg : Nat) (ksn : Bytes) (u : KeyUse) : Option Bytes :=
  let ctr := beNat (ksn.drop 8)
  if 16 < onesIn 32 ctr then none else
  let ik := aesDerive bdk 0x8001 alg (ksn.take 8)
  let idLow := (ksn.take 8).drop 4
  let tk := aesDukptFrom alg idLow ctr 32 0 ik
  some (aesDerive tk (match u with | .pin => 0x1000 | .mac => 0x2000 | .data => 0x3000) walg (idLow ++ toBe 4 ctr))
def xorKey (k : Bytes) (m : Nat) : Bytes := xorBytes k (toBe 16 m)
def c0mask : Nat := 0xC0C0C0C000000000C0C0C0C000000000
/-- The non-reversible key generation of legacy DUKPT. -/
def nrkg (k reg : Bytes) : Bytes :=
  let half := fun (k : Bytes) => xorBytes (desEnc (k.take 8) (xorBytes (k.drop 8) reg)) (k.drop 8)
  half (xorKey k c0mask) ++ half k
def tdeaDukptFrom (base : Nat) (ctr : Nat) : Nat → Nat → Bytes → Bytes
  | 0, _, k => k
  | b + 1, work, k =>
    if ctr.testBit b then
      let work := work + 2 ^ b
      tdeaDukptFrom base ctr b work (nrkg k (toBe 8 (base + work)))
    else tdeaDukptFrom base ctr b work k
def tdeaDukpt (bdk ksn : Bytes) (u : KeyUse) : Option Bytes :=
  let n := beNat ksn
  let ctr := n % 2 ^ 21
  if 10 < onesIn 21 ctr then none else
  let top := toBe 8 ((n - ctr) / 2 ^ 16)
  let ik := tdeaEnc bdk top ++ tdeaEnc (xorKey bdk c0mask) top
  let k := tdeaDukptFrom ((n - ctr) % 2 ^ 64) ctr 21 0 ik
  some (match u with
    | .pin => xorKey k 0x00000000000000FF00000000000000FF
    | .mac => xorKey k 0x000000000000FF00000000000000FF00
    | .data =>
      let v := xorKey k 0x0000000000FF00000000000000FF0000
      tdeaEnc v (v.take 8) ++ tdeaEnc v (v.drop 8))

/-! ## EMV (12/R362, R363) -/

def sha1H : List W32 := [0x67452301, 0xefcdab89, 0x98badcfe, 0x10325476, 0xc3d2e1f0]
def sha1W : Nat → List W32 → List W32
  | 0, l => l
  | n + 1, l => sha1W n ((l.getD 2 0 ^^^ l.getD 7 0 ^^^ l.getD 13 0 ^^^ l.getD 15 0).rotateLeft 1 :: l)
def sha1Round (h : List W32) (iw : Nat × W32) : List W32 :=
  match h with
  | [a, b, c, d, e] =>
    let (f, k) : W32 × W32 := match iw.1 / 20 with
      | 0 => ((b &&& c) ||| (~~~b &&& d), 0x5a827999)
      | 1 => (b ^^^ c ^^^ d, 0x6ed9eba1)
      | 2 => ((b &&& c) ||| (b &&& d) ||| (c &&& d), 0x8f1bbcdc)
      | _ => (b ^^^ c ^^^ d, 0xca62c1d6)
    [a.rotateLeft 5 + f + e + k + iw.2, a, b.rotateLeft 30, c, d]
  | _ => h
def sha1 (m : Bytes) : Bytes :=
  ((chunks 64 (shaPad 64 8 m)).foldl (fun h b =>
    let w := (sha1W 64 ((chunks 4 b).map fun x => BitVec.ofNat 32 (beNat x)).reverse).reverse
    h.zipWith (· + ·) (((List.range 80).zip w).foldl sha1Round h)) sha1H).flatMap fun x => toBe 4 x.toNat
/-- Sixteen decimal digits from a digest: its digits first, then its letters less ten (EMV Book 2, A1.4.2). -/
def decimalise (h : Bytes) : List Nat :=
  let n := nibbles h
  ((n.filter (· < 10)) ++ ((n.filter (10 ≤ ·)).map (· - 10))).take 16
def padLeft (n : Nat) (l : List Nat) : List Nat := List.replicate (n - l.length) 0 ++ l
/-- The key bits a cipher needs, as one or two blocks of outputs. -/
def twoBlocks (c : Cipher) (len : Nat) (a b : Bytes) : Bytes := (c.enc a ++ c.enc b).take len
/-- The card master key: option A or B for TDEA, option C for AES, from PAN and sequence number digits. -/
def cardKey (alg : Nat) (imk : Bytes) (pan psn : List Nat) : Bytes :=
  let x := pan ++ psn
  if alg = 8 then
    let y := if pan.length ≤ 16 then (padLeft 16 x).drop ((padLeft 16 x).length - 16)
      else decimalise (sha1 (fromNibbles (if x.length % 2 = 1 then 0 :: x else x)))
    let y := fromNibbles y
    twoBlocks (tdeaCipher imk) 16 y (y.map fun b => ~~~b)
  else
    let y := fromNibbles (padLeft 32 x)
    twoBlocks (aesCipher imk) (symLen alg) y (y.map fun b => ~~~b)
/-- The common session key derivation with the ATC (A1.3). -/
def sessionKey (alg : Nat) (mk : Bytes) (atc : Nat) : Bytes :=
  let r := fun (n : Nat) (x : Byte) => toBe 2 atc ++ [x] ++ List.replicate (n - 3) 0
  if alg = 8 then twoBlocks (tdeaCipher mk) 16 (r 8 0xF0) (r 8 0x0F)
  else if alg = 1 then (aesCipher mk).enc (r 16 0)
  else twoBlocks (aesCipher mk) (symLen alg) (r 16 0xF0) (r 16 0x0F)
/-- ISO/IEC 9797-1 padding method 2. -/
def pad80 (n : Nat) (m : Bytes) : Bytes := padTo n (m ++ [0x80])
/-- The eight bytes of the application cryptogram: MAC algorithm 3 for TDEA, CMAC for AES. -/
def emvMac (alg : Nat) (sk m : Bytes) : Bytes :=
  if alg = 8 then
    let t := (chunks 8 (pad80 8 m)).foldl (fun t b => desEnc (sk.take 8) (xorBytes t b)) (List.replicate 8 0)
    desEnc (sk.take 8) (desDec (sk.drop 8) t)
  else (cmac (aesCipher sk) m).take 8
/-- ARPC by method 1 and by method 2 (12/R363). -/
def arpc1 (alg : Nat) (sk arqc arc : Bytes) : Bytes :=
  let y := xorBytes arqc (arc ++ List.replicate 6 0)
  if alg = 8 then tdeaEnc sk y else ((aesCipher sk).enc (y ++ List.replicate 8 0)).take 8
def arpc2 (alg : Nat) (sk arqc csu prop : Bytes) : Bytes := (emvMac alg sk (arqc ++ csu ++ prop)).take 4

/-! ## Card verification code (12/R366) -/

def cvcOf (key : Bytes) (pan expiry service : List Nat) : List Nat :=
  let d := pan ++ expiry ++ service
  let b := fromNibbles (d ++ List.replicate (32 - d.length) 0)
  let x := desEnc (key.take 8) (xorBytes (desEnc (key.take 8) (b.take 8)) (b.drop 8))
  (decimalise (desEnc (key.take 8) (desDec (key.drop 8) x))).take 3

/-! ## FF1 (12/R367; SP 800-38G) -/

def numRadix (radix : Nat) (l : List Nat) : Nat := l.foldl (fun a d => radix * a + d) 0
def strRadix (radix : Nat) : Nat → Nat → List Nat
  | 0, _ => []
  | m + 1, x => strRadix radix m (x / radix) ++ [x % radix]
/-- The round value y of FF1 for one half. -/
def ff1Round (c : Cipher) (radix n : Nat) (tweak : Bytes) (i : Nat) (b : List Nat) : Nat :=
  let u := n / 2
  let v := n - u
  let bl := (Nat.log2 (radix ^ v - 1) + 1 + 7) / 8
  let d := 4 * ((bl + 3) / 4) + 4
  let p := [1, 2, 1] ++ toBe 3 radix ++ [10, BitVec.ofNat 8 u] ++ toBe 4 n ++ toBe 4 tweak.length
  let q := tweak ++ List.replicate ((16 - (tweak.length + bl + 1) % 16) % 16) 0 ++ [BitVec.ofNat 8 i] ++ toBe bl (numRadix radix b)
  let r := (chunks 16 (p ++ q)).foldl (fun t x => c.enc (xorBytes t x)) (List.replicate 16 0)
  let s := (r ++ (List.range ((d + 15) / 16 - 1)).flatMap fun j => c.enc (xorBytes r (toBe 16 (j + 1)))).take d
  beNat s
def ff1Enc (c : Cipher) (radix : Nat) (tweak : Bytes) (x : List Nat) : List Nat :=
  let n := x.length
  let u := n / 2
  let (a, b) := (List.range 10).foldl (fun (p : List Nat × List Nat) i =>
    let m := if i % 2 = 0 then u else n - u
    (p.2, strRadix radix m ((numRadix radix p.1 + ff1Round c radix n tweak i p.2) % radix ^ m))) (x.take u, x.drop u)
  a ++ b
def ff1Dec (c : Cipher) (radix : Nat) (tweak : Bytes) (x : List Nat) : List Nat :=
  let n := x.length
  let u := n / 2
  let (a, b) := (List.range 10).reverse.foldl (fun (p : List Nat × List Nat) i =>
    let m := if i % 2 = 0 then u else n - u
    let y := ff1Round c radix n tweak i p.1 % radix ^ m
    (strRadix radix m ((numRadix radix p.2 + radix ^ m - y) % radix ^ m), p.1)) (x.take u, x.drop u)
  a ++ b
/-- Characters of the radix: digits, then lower-case letters. -/
def charVal (b : Byte) : Nat :=
  if isDigit b then b.toNat - 0x30 else if 0x61 ≤ b.toNat ∧ b.toNat ≤ 0x7A then b.toNat - 0x61 + 10 else 99
def valChar (v : Nat) : Byte := BitVec.ofNat 8 (if v < 10 then 0x30 + v else 0x61 + v - 10)
/-- The Luhn digit that completes a string of digits. -/
def luhnDigit (l : List Nat) : Nat :=
  let s := ((List.range l.length).zip l.reverse).foldl (fun a p =>
    let d := if p.1 % 2 = 0 then 2 * p.2 else p.2
    a + d / 10 + d % 10) 0
  (10 - s % 10) % 10

end Sys2Proof.Machine
end

