-- ==== Sys2Proof/Machine/HSym.lean ====
section
/-!
DEFINITION. The SYM, HASH, RAND and PAY families of the Hamper (12/R356-R367).
-/
namespace Sys2Proof.Machine

/-! ## DUKPT key operands (12/R361) -/

def dukptMode (c : HCmd) : Nat := fld (c.w 13) 63 60
/-- Word 13 to 15 of a command that takes a key by DUKPT. -/
def dukptWords : List Nat := [13, 14, 15]
/-- Only decryption and verification take a key by DUKPT (12/R361). -/
def dukptOnly (c : HCmd) : Option (Nat × W64) :=
  if !tbit (c.w 9) 0 ∧ (c.w 13 ≠ 0 ∨ c.w 14 ≠ 0 ∨ c.w 15 ≠ 0) then some (0x0203, 0) else none
def dukptFmt (c : HCmd) : Option (Nat × W64) :=
  if fld (c.w 13) 55 0 ≠ 0 ∨ (dukptMode c ≠ 1 ∧ fld (c.w 13) 59 56 ≠ 0) ∨ (dukptMode c = 0 ∧ (c.w 14 ≠ 0 ∨ c.w 15 ≠ 0)) ∨
      fld (c.w 15) 63 32 ≠ 0 ∨ (dukptMode c = 2 ∧ fld (c.w 15) 31 16 ≠ 0) then some (0x0203, 0)
  else if 2 < dukptMode c ∨ (dukptMode c = 1 ∧ (algGroups (fld (c.w 13) 59 56)).length < 4) then some (0x0204, 0)
  else none
/-- The algorithm of the key that works: key1's own, or the working key's. -/
def workAlg (c : HCmd) (k : KeyObj) : Nat := match dukptMode c with | 1 => fld (c.w 13) 59 56 | 2 => 8 | _ => k.alg
/-- May key1 serve: with the usage bit when static, with derive and a base algorithm of the mode otherwise; the working
key no stronger than the base key. -/
def dukptMay (c : HCmd) (k : KeyObj) (bit : Nat) : Bool :=
  match dukptMode c with
  | 0 => k.may bit
  | 1 => k.may 53 && isAes k.alg && (workAlg c k == 8 || workAlg c k ≤ k.alg)
  | _ => k.may 53 && k.alg == 8
/-- The key that works; none: the counter has too many one bits. -/
def workKey (c : HCmd) (k : KeyObj) (u : KeyUse) : Option Bytes :=
  match dukptMode c with
  | 0 => some k.secret
  | 1 => aesDukpt k.secret k.alg (workAlg c k) (c.bytes 14 12) u
  | _ => tdeaDukpt k.secret (c.bytes 14 10) u

/-! ## SYM (12/R356, R357) -/

def decr (c : HCmd) : Bool := tbit (c.w 9) 0
def mib16 : Nat := 16 * 2 ^ 20
/-- In-lengths of a block mode: multiples of the block up to 16 MiB. -/
def blockLimits (c : HCmd) (ks : List KeyObj) : Option (Nat × W64) :=
  let blk := if workAlg c (ks.headD keyReset) = 8 then 8 else 16
  if c.inLen % blk ≠ 0 ∨ c.inLen < blk then some (0x0202, 0) else none
/-- The limits of a block mode that no key decides (12/R351). -/
def blockFmt (c : HCmd) : Option (Nat × W64) :=
  if !c.inSeal && (c.inLen % 8 != 0 || c.inLen == 0 || mib16 < c.inLen) then some (0x0202, 0) else needOut c c.inLen
/-- Encryption takes its input by seal handle (13/R401). -/
def encSeal (c : HCmd) : Bool := !tbit (c.w 9) 0
/-- Encryption needs an AES key with encrypt usage; decryption any block key with decrypt usage (or derive by DUKPT). -/
def symMay (c : HCmd) (k : KeyObj) : Bool :=
  if decr c then (isAes (workAlg c k) || workAlg c k == 8) && dukptMay c k 49
  else isAes k.alg && k.may 48
def word9Mbz (mask : Nat) (c : HCmd) : Option (Nat × W64) := if (c.w 9).toNat &&& (2 ^ 64 - 1 - mask) ≠ 0 then some (0x0203, 0) else none
def symEcbSpec : HSpec :=
  { useIn := true, useOut := true, useK1 := true, params := 9 :: dukptWords, inPlace := true,
    fmt := fun c => word9Mbz 1 c <|> dukptOnly c <|> dukptFmt c <|> blockFmt c, may := fun c ks => symMay c (ks.headD keyReset), limits := blockLimits,
    work := fun s c ks =>
      let k := ks.headD keyReset
      match workKey c k .data with
      | none => { s := s, status := 0x0204 }
      | some key =>
        let x := cipherOf (workAlg c k) key
        { s := s, out := ecb (if decr c then x.dec else x.enc) x.blk (s.hIn c) } }
def execSymEcb (id : Nat) (s : State) : Out := hamper 0x0301 id symEcbSpec s
def symCbcSpec : HSpec :=
  { useIn := true, useOut := true, useK1 := true, params := [9, 10, 11] ++ dukptWords, sealIn := encSeal, inPlace := true,
    fmt := fun c => word9Mbz 1 c <|> dukptOnly c <|> dukptFmt c <|> blockFmt c,
    may := fun c ks => symMay c (ks.headD keyReset),
    limits := fun c ks => blockLimits c ks <|> (if workAlg c (ks.headD keyReset) = 8 ∧ c.w 11 ≠ 0 then some (0x0203, 0) else none),
    work := fun s c ks =>
      let k := ks.headD keyReset
      match workKey c k .data with
      | none => { s := s, status := 0x0204 }
      | some key =>
        let x := cipherOf (workAlg c k) key
        let m := s.hIn c
        let o := if decr c then cbcDec x (c.bytes 10 x.blk) m else cbcEnc x (c.bytes 10 x.blk) m
        let last := if decr c then m else o
        { s := s, out := o, result := some (w64 (leNat ((last.drop (last.length - x.blk)).take 8))) } }
def execSymCbc (id : Nat) (s : State) : Out := hamper 0x0302 id symCbcSpec s
def symCtrSpec : HSpec :=
  { useIn := true, useOut := true, useK1 := true, params := [9, 10, 11], sealIn := encSeal, inPlace := true,
    fmt := fun c => word9Mbz 1 c <|> (if !c.inSeal && (c.inLen == 0 || mib16 < c.inLen) then some (0x0202, 0) else needOut c c.inLen),
    may := fun c ks => isAes (ks.headD keyReset).alg && (ks.headD keyReset).may (if decr c then 49 else 48),
    work := fun s c ks => { s := s, out := ctrMode (aesCipher (ks.headD keyReset).secret) (c.bytes 10 16) (s.hIn c) } }
def execSymCtr (id : Nat) (s : State) : Out := hamper 0x0303 id symCtrSpec s
def tagLen (c : HCmd) : Nat := fld (c.w 9) 12 8
def ivGen (c : HCmd) : Bool := tbit (c.w 9) 1
def symGcmSpec : HSpec :=
  { useIn := true, useOut := true, useAux := true, useK1 := true, params := [9, 10, 11], sealIn := encSeal, inPlace := true,
    fmt := fun c => word9Mbz 0x1F03 c <|>
      (if fld (c.w 11) 63 32 ≠ 0 ∨ (ivGen c ∧ (c.w 10 ≠ 0 ∨ c.w 11 ≠ 0)) then some (0x0203, 0)
       else if tagLen c < 12 ∨ 16 < tagLen c ∨ (ivGen c ∧ decr c) ∨ (ivGen c ∧ c.inAddr = c.outAddr ∧ c.inLen ≠ 0 ∧ !c.inSeal) then some (0x0204, 0)
       else if 65536 < c.auxLen ∨ mib16 + 16 < c.inLen ∨ (decr c ∧ c.inLen < tagLen c) ∨ (!decr c ∧ mib16 < c.inLen) then some (0x0202, 0)
       else needOut c (if decr c then c.inLen - tagLen c else c.inLen + tagLen c + (if ivGen c then 12 else 0))),
    may := fun c ks => isAes (ks.headD keyReset).alg && (ks.headD keyReset).may (if decr c then 49 else 48),
    random := fun c _ => ivGen c,
    work := fun s c ks =>
      let x := aesCipher (ks.headD keyReset).secret
      let (t, iv) := if ivGen c then s.random c.creel 12 else (s, c.bytes 10 12)
      let m := s.hIn c
      if decr c then
        let ct := m.take (m.length - tagLen c)
        if gcmTag x iv (s.hAux c) ct (tagLen c) = m.drop ct.length then { s := t, out := gcmCrypt x iv ct, result := some (w64 ct.length) }
        else { s := t, status := 1, wipe := true }
      else
        let ct := gcmCrypt x iv m
        { s := t, out := (if ivGen c then iv else []) ++ ct ++ gcmTag x iv (s.hAux c) ct (tagLen c) } }
def execSymGcm (id : Nat) (s : State) : Out := hamper 0x0304 id symGcmSpec s
def symXtsSpec : HSpec :=
  { useIn := true, useOut := true, useK1 := true, useK2 := true, params := [9, 10, 11], inPlace := true,
    fmt := fun c => word9Mbz 1 c <|> (if c.inLen < 16 ∨ mib16 < c.inLen then some (0x0202, 0) else needOut c c.inLen),
    may := fun c ks => ks.all fun k => k.alg == 3 && k.may (if decr c then 49 else 48),
    limits := fun _ ks => if (ks.headD keyReset).secret = (ks.getD 1 keyReset).secret then some (0x0204, 0) else none,
    work := fun s c ks =>
      { s := s, out := xts (aesCipher (ks.headD keyReset).secret) (aesCipher (ks.getD 1 keyReset).secret) (!decr c) (c.bytes 10 16) (s.hIn c) } }
def execSymXts (id : Nat) (s : State) : Out := hamper 0x0305 id symXtsSpec s
/-- A tag generated, or compared with aux; a mismatch completes with 0x0001, the output range zeroed (12/R357). -/
def tagWork (s : State) (verify : Bool) (tag expected : Bytes) : HWork :=
  if verify then { s := s, status := if tag = expected then 0 else 1, result := some 0, wipe := true } else { s := s, out := tag }
def symCmacSpec : HSpec :=
  { useIn := true, useOut := true, useAux := true, useK1 := true, params := 9 :: dukptWords,
    fmt := fun c => word9Mbz 0x1F01 c <|> dukptOnly c <|> dukptFmt c <|>
      (if tagLen c < 4 ∨ 16 < tagLen c then some (0x0204, 0)
       else if mib16 < c.inLen ∨ (decr c ∧ c.auxLen ≠ tagLen c) ∨ (!decr c ∧ c.auxLen ≠ 0) then some (0x0202, 0)
       else if decr c then none else needOut c (tagLen c)),
    may := fun c ks =>
      let k := ks.headD keyReset
      if decr c then (isAes (workAlg c k) || workAlg c k == 8) && dukptMay c k 51 else isAes k.alg && k.may 51,
    limits := fun c ks => if workAlg c (ks.headD keyReset) = 8 ∧ 8 < tagLen c then some (0x0204, 0) else none,
    work := fun s c ks =>
      let k := ks.headD keyReset
      match workKey c k .mac with
      | none => { s := s, status := 0x0204 }
      | some key => tagWork s (decr c) ((cmac (cipherOf (workAlg c k) key) (s.hIn c)).take (tagLen c)) (s.hAux c) }
def execSymCmac (id : Nat) (s : State) : Out := hamper 0x0306 id symCmacSpec s

/-! ## HASH and RAND (12/R358) -/

def mib64 : Nat := 64 * 2 ^ 20
def hashSpec : HSpec :=
  { useIn := true, useOut := true, params := [9],
    fmt := fun c => word9Mbz 0xF c <|> (match hashLen (fld (c.w 9) 3 0) with
      | none => some (0x0204, 0)
      | some n => if mib64 < c.inLen then some (0x0202, 0) else needOut c n),
    work := fun s c _ => { s := s, out := hashOf (fld (c.w 9) 3 0) (s.hIn c) } }
def execHash (id : Nat) (s : State) : Out := hamper 0x0601 id hashSpec s
def hmacSpec : HSpec :=
  { useIn := true, useOut := true, useAux := true, useK1 := true, params := [9],
    fmt := fun c =>
      let n := fld (c.w 9) 16 10
      let v := tbit (c.w 9) 8
      word9Mbz 0x1FD0F c <|> (match hashLen (fld (c.w 9) 3 0) with
        | none => some (0x0204, 0)
        | some h => if n < 16 ∨ h < n then some (0x0204, 0)
          else if mib64 < c.inLen ∨ (v ∧ c.auxLen ≠ n) ∨ (!v ∧ c.auxLen ≠ 0) then some (0x0202, 0) else if v then none else needOut c n),
    may := fun _ ks => (ks.headD keyReset).alg == 0x10 && (ks.headD keyReset).may 51,
    work := fun s c ks =>
      tagWork s (tbit (c.w 9) 8) ((hmac (fld (c.w 9) 3 0) (ks.headD keyReset).secret (s.hIn c)).take (fld (c.w 9) 16 10)) (s.hAux c) }
def execHmac (id : Nat) (s : State) : Out := hamper 0x0602 id hmacSpec s
def randSpec : HSpec :=
  { useOut := true, fmt := fun c => if c.outCap = 0 ∨ 65536 < c.outCap then some (0x0202, 0) else none, random := fun _ _ => true,
    work := fun s c _ => let (t, b) := s.random c.creel c.outCap; { s := t, out := b } }
def execRand (id : Nat) (s : State) : Out := hamper 0x0701 id randSpec s

/-! ## PIN (12/R359, R360) -/

def srcFmt (c : HCmd) : Nat := fld (c.w 9) 63 60
def panOf (b : Bytes) : Option (List Nat) := if 12 ≤ b.length ∧ b.length ≤ 19 ∧ b.all isDigit then some (digitsOf b) else none
def pinFmt (c : HCmd) (translate : Bool) : Option (Nat × W64) :=
  if fld (c.w 9) 55 0 ≠ 0 ∨ (!translate ∧ fld (c.w 9) 59 56 ≠ 0) then some (0x0203, 0)
  else dukptFmt c <|>
    (if !(([0, 1, 3, 4] : List Nat).contains (srcFmt c)) ∨ (translate ∧ fld (c.w 9) 59 56 ≠ 4) ∨ (!c.auxSeal ∧ (c.auxLen < 12 ∨ 19 < c.auxLen)) then some (0x0204, 0)
     else if !c.inSeal ∧ c.inLen ≠ (if srcFmt c = 4 then 16 else 8) then some (0x0202, 0) else if translate then needOut c 16 else none)
def pinMay (c : HCmd) (ks : List KeyObj) : Bool :=
  let k := ks.headD keyReset
  let k2 := ks.getD 1 keyReset
  (if srcFmt c = 4 then isAes (workAlg c k) else workAlg c k == 8) && dukptMay c k 52 && isAes k2.alg && k2.may 52
/-- The clear PIN of the incoming block, inside the engine. -/
def pinIn (s : State) (c : HCmd) (k : KeyObj) (pan : List Nat) : Option (List Nat) :=
  (workKey c k .pin).bind fun key =>
    if srcFmt c = 4 then pinOf16 (aesCipher key) (s.hIn c) pan else pinOf8 (srcFmt c) (tdeaDec key (s.hIn c)) pan
def pinTranslateSpec : HSpec :=
  { useIn := true, useOut := true, useAux := true, useK1 := true, useK2 := true, params := 9 :: dukptWords, sealIn := fun _ => true, sealAux := true,
    sealOut := true,
    fmt := fun c => pinFmt c true, may := pinMay, random := fun _ _ => true,
    work := fun s c ks => match panOf (s.hAux c) with
      | none => { s := s, status := 0x0204 }
      | some pan => match pinIn s c (ks.headD keyReset) pan with
        | none => { s := s, status := 0x0204 }
        | some pin =>
          let (t, f) := s.random c.creel 8
          { s := t, out := pinBlock4 (aesCipher (ks.getD 1 keyReset).secret) pin pan f } }
def execPinTranslate (id : Nat) (s : State) : Out := hamper 0x0401 id pinTranslateSpec s
def pinVerifySpec : HSpec :=
  { useIn := true, useAux := true, useK1 := true, useK2 := true, params := [9, 10, 11] ++ dukptWords, sealIn := fun _ => true,
    sealAux := true,
    fmt := fun c => pinFmt c false, may := pinMay,
    work := fun s c ks => match panOf (s.hAux c) with
      | none => { s := s, status := 0x0204 }
      | some pan =>
        match pinIn s c (ks.headD keyReset) pan, pinOf16 (aesCipher (ks.getD 1 keyReset).secret) (c.bytes 10 16) pan with
        | some a, some b => { s := s, status := if a = b then 0 else 1, result := some 0 }
        | _, _ => { s := s, status := 0x0204 } }
def execPinVerify (id : Nat) (s : State) : Out := hamper 0x0402 id pinVerifySpec s

/-! ## EMV (12/R362-R365) -/

/-- PAN digits and the two digits of the sequence number, as aux gives them (log entry 13). -/
def panPsn (b : Bytes) : Option (List Nat × List Nat) :=
  if 14 ≤ b.length ∧ b.length ≤ 21 ∧ b.all isDigit then some (digitsOf (b.take (b.length - 2)), digitsOf (b.drop (b.length - 2))) else none
def emvMay (ks : List KeyObj) : Bool := let k := ks.headD keyReset; (isAes k.alg || k.alg == 8) && k.may 51
def emvSession (k : KeyObj) (p : List Nat × List Nat) (atc : Nat) : Bytes := sessionKey k.alg (cardKey k.alg k.secret p.1 p.2) atc
def State.arqcTable (s : State) (cr : Nat) : List Arqc := (s.vault.arqc.get [] cr).filter fun e => s.now < e.since + secs 1
def arqcVerifySpec : HSpec :=
  { useIn := true, useAux := true, useK1 := true, params := [9, 10], sealAux := true,
    fmt := fun c => if fld (c.w 10) 63 16 ≠ 0 then some (0x0203, 0) else if c.inLen = 0 ∨ 256 < c.inLen then some (0x0202, 0) else none,
    may := fun _ ks => emvMay ks,
    work := fun s c ks =>
      let k := ks.headD keyReset
      match panPsn (s.hAux c) with
      | none => { s := s, status := 0x0204 }
      | some p =>
        let ok := emvMac k.alg (emvSession k p (fld (c.w 10) 15 0)) (s.hIn c) = c.bytes 9 8
        let e : Arqc := { key := k.handle, hash := sha256 (s.hAux c), atc := fld (c.w 10) 15 0, arqc := c.w 9, since := s.now }
        let t := if ok ∧ k.alg = 8 then s.modVault fun v => { v with arqc := v.arqc.set c.creel ((e :: v.arqc.get [] c.creel).take 8192) } else s
        { s := t, status := if ok then 0 else 1, result := some 0 } }
def execEmvArqcVerify (id : Nat) (s : State) : Out := hamper 0x0403 id arqcVerifySpec s
/-- EMV_ARPC: aux holds PAN and sequence number; with method 2 it holds the proprietary data too, and where the one ends
and the other begins is not stated (log entry 13). -/
def arpcParts (c : HCmd) (aux : Bytes) : Bytes × Bytes :=
  let n := if tbit (c.w 11) 0 then Config.arpcSplit aux else aux.length
  (aux.take n, aux.drop n)
def arpcSpec : HSpec :=
  { useOut := true, useAux := true, useK1 := true, params := [9, 10, 11, 12], sealAux := true,
    fmt := fun c =>
      let m2 := tbit (c.w 11) 0
      if fld (c.w 10) 63 16 ≠ 0 ∨ fld (c.w 11) 63 48 ≠ 0 ∨ fld (c.w 11) 15 1 ≠ 0 ∨ (!m2 ∧ (fld (c.w 11) 47 16 ≠ 0 ∨ fld (c.w 12) 63 16 ≠ 0)) ∨
          (m2 ∧ c.w 12 ≠ 0) then some (0x0203, 0)
      else if 29 < c.auxLen then some (0x0202, 0) else needOut c (if m2 then 4 else 8),
    may := fun _ ks => emvMay ks,
    work := fun s c ks =>
      let k := ks.headD keyReset
      let (ids, prop) := arpcParts c (s.hAux c)
      match panPsn ids with
      | none => { s := s, status := 0x0204 }
      | some p =>
        let atc := fld (c.w 10) 15 0
        let hit := (s.arqcTable c.creel).find? fun e => e.key = k.handle ∧ e.hash = sha256 ids ∧ e.atc = atc ∧ e.arqc = c.w 9
        if k.alg = 8 ∧ hit.isNone then { s := s, status := 0x010A }
        else if 8 < prop.length then { s := s, status := 0x0202 }
        else
          let t := match hit with
            | some e => if k.alg = 8 then s.modVault fun v => { v with arqc := v.arqc.set c.creel ((v.arqc.get [] c.creel).erase e) } else s
            | none => s
          let sk := emvSession k p atc
          { s := t, out := if tbit (c.w 11) 0 then arpc2 k.alg sk (c.bytes 9 8) (toLe 4 (fld (c.w 11) 47 16)) prop
              else arpc1 k.alg sk (c.bytes 9 8) (c.bytes 12 2) } }
def execEmvArpc (id : Nat) (s : State) : Out := hamper 0x0404 id arpcSpec s
/-- ARQC_ENTRY_EXPIRY: entries a second old leave a creel's table. -/
def execArqcEntryExpiry (cr : CreelId) (s : State) : Out :=
  .next (s.modVault fun v => { v with arqc := v.arqc.set cr (s.arqcTable cr) })

/-! ## Card verification codes (12/R366) -/

def cvcFmt (c : HCmd) (gen : Bool) : Option (Nat × W64) :=
  let e := c.bytes 9 7
  if fld (c.w 9) 63 56 ≠ 0 ∨ (!gen ∧ fld (c.w 10) 63 24 ≠ 0) then some (0x0203, 0)
  else if !e.all isDigit ∨ (!gen ∧ !(c.bytes 10 3).all isDigit) then some (0x0204, 0)
  else if !c.inSeal ∧ (c.inLen < 12 ∨ 19 < c.inLen) then some (0x0202, 0) else if gen then needOut c 3 else none
def cvcMay (ks : List KeyObj) : Bool := let k := ks.headD keyReset; k.alg == 8 && k.may 51
def cvcDigits (s : State) (c : HCmd) (ks : List KeyObj) : Option (List Nat) :=
  (panOf (s.hIn c)).map fun pan =>
    let e := digitsOf (c.bytes 9 7)
    cvcOf (ks.headD keyReset).secret pan (e.take 4) (e.drop 4)
def cvcGenerateSpec : HSpec :=
  { useIn := true, useOut := true, useK1 := true, params := [9], sealIn := fun _ => true, fmt := fun c => cvcFmt c true,
    may := fun _ ks => cvcMay ks,
    work := fun s c ks => match cvcDigits s c ks with
      | some d => { s := s, out := digitBytes d }
      | none => { s := s, status := 0x0204 } }
def execCvcGenerate (id : Nat) (s : State) : Out := hamper 0x0405 id cvcGenerateSpec s
def cvcVerifySpec : HSpec :=
  { useIn := true, useK1 := true, params := [9, 10], sealIn := fun _ => true, fmt := fun c => cvcFmt c false,
    may := fun _ ks => cvcMay ks,
    work := fun s c ks => match cvcDigits s c ks with
      | some d => { s := s, status := if digitBytes d = c.bytes 10 3 then 0 else 1, result := some 0 }
      | none => { s := s, status := 0x0204 } }
def execCvcVerify (id : Nat) (s : State) : Out := hamper 0x0406 id cvcVerifySpec s

/-! ## FF1 (12/R367) -/

def ffRadix (c : HCmd) : Nat := fld (c.w 9) 7 0
def keepHead (c : HCmd) : Nat := fld (c.w 9) 11 8
def keepTail (c : HCmd) : Nat := fld (c.w 9) 15 12
def luhnMode (c : HCmd) : Nat := fld (c.w 9) 17 16
def ffFmt (c : HCmd) : Option (Nat × W64) :=
  let r := ffRadix c
  let t := fld (c.w 9) 28 24
  let n := c.inLen - keepHead c - keepTail c - b2n (luhnMode c != 0)
  if fld (c.w 9) 23 18 ≠ 0 ∨ fld (c.w 9) 63 29 ≠ 0 ∨ ((c.bytes 10 24).drop t).any (· ≠ 0) then some (0x0203, 0)
  else if (r ≠ 10 ∧ r ≠ 36) ∨ 8 < keepHead c ∨ 4 < keepTail c ∨ luhnMode c = 3 ∨ (luhnMode c ≠ 0 ∧ r ≠ 10) ∨ 24 < t then some (0x0204, 0)
  else if !c.inSeal ∧ (c.inLen = 0 ∨ 56 < c.inLen) then some (0x0202, 0)
  else if !c.inSeal ∧ (r ^ n < 1000000) then some (0x0204, 0) else needOut c c.inLen
/-- The string after FF1 in one direction; with a Luhn mode the last character is not enciphered and is set anew. -/
def ffRun (key : Bytes) (c : HCmd) (enc : Bool) (b : Bytes) : Option Bytes :=
  let r := ffRadix c
  let v := b.map charVal
  let l := b2n (luhnMode c != 0)
  let n := v.length - keepHead c - keepTail c - l
  if v.any (r ≤ ·) ∨ v.length < keepHead c + keepTail c + l ∨ 56 < v.length ∨ r ^ n < 1000000 then none
  else
    let head := v.take (keepHead c)
    let mid := (v.drop (keepHead c)).take n
    let tail := (v.drop (keepHead c + n)).take (keepTail c)
    let x := aesCipher key
    let tw := c.bytes 10 (fld (c.w 9) 28 24)
    let o := head ++ (if enc then ff1Enc x r tw mid else ff1Dec x r tw mid) ++ tail
    let d := luhnDigit o
    some ((o ++ (if luhnMode c = 0 then [] else if enc ∧ luhnMode c = 2 then [(d + 1) % 10] else [d])).map valChar)
def ffSpec (enc : Bool) : HSpec :=
  { useIn := true, useOut := true, useK1 := true, params := [9, 10, 11, 12], sealIn := fun _ => true, sealOut := true, mustSeal := !enc,
    fmt := ffFmt,
    may := fun _ ks => isAes (ks.headD keyReset).alg && (ks.headD keyReset).may (if enc then 48 else 49),
    work := fun s c ks => match ffRun (ks.headD keyReset).secret c enc (s.hIn c) with
      | some o => { s := s, out := o }
      | none => { s := s, status := 0x0204 } }
def execFf1Tokenise (id : Nat) (s : State) : Out := hamper 0x0408 id (ffSpec true) s
def execFf1Detokenise (id : Nat) (s : State) : Out := hamper 0x0409 id (ffSpec false) s

end Sys2Proof.Machine
end

