-- ==== Sys2Proof/Machine/HAsym.lean ====
section
/-!
DEFINITION. The ASYM, AUDIT and ATTEST families of the Hamper (12/R368-R371), checkpoints (11/R335, R336), random-bit and
engine events (11/R329-R331, 21/R579), and the key cache (11/R323, R324).
-/
namespace Sys2Proof.Machine

/-! ## ASYM (12/R368, R369) -/

def sigLen (a : Nat) : Nat :=
  if isRsa a then rsaBytes a else match a with
    | 0x28 => 64 | 0x29 => 96 | 0x2A => 64 | 0x30 => 3309 | 0x31 => 4627 | 0x38 => 35664 | 0x39 => 29792 | _ => 0
def sigHash (c : HCmd) : Nat := fld (c.w 9) 3 0
def preHashed (c : HCmd) : Bool := tbit (c.w 9) 8
def rsaPkcs (c : HCmd) : Bool := fld (c.w 9) 11 10 == 1
def ctxLen (c : HCmd) : Nat := fld (c.w 9) 21 16
def ctxBytes (c : HCmd) : Bytes := c.bytes 10 (ctxLen c)
def sigFmt (c : HCmd) : Option (Nat × W64) :=
  if fld (c.w 9) 63 22 ≠ 0 ∨ fld (c.w 9) 15 12 ≠ 0 ∨ fld (c.w 9) 9 9 ≠ 0 ∨ fld (c.w 9) 7 4 ≠ 0 ∨
      (ctxLen c ≤ 48 ∧ ((c.bytes 10 48).drop (ctxLen c)).any (· ≠ 0)) then some (0x0203, 0)
  else if 1 < fld (c.w 9) 11 10 ∨ 48 < ctxLen c ∨ 6 < sigHash c then some (0x0204, 0)
  else if mib64 < c.inLen then some (0x0202, 0) else none
/-- Limits that depend on the algorithm: a hash for RSA and ECDSA, the digest's length when prehashed, no context for
Ed25519. -/
def sigLimits (sign : Bool) (c : HCmd) (ks : List KeyObj) : Option (Nat × W64) :=
  let a := (ks.headD keyReset).alg
  let hashed := isRsa a || a == 0x28 || a == 0x29
  if hashed && ((hashLen (sigHash c)).isNone || ctxLen c != 0) then some (0x0204, 0)
  else if !hashed && (sigHash c != 0 || preHashed c || fld (c.w 9) 11 10 != 0) then some (0x0204, 0)
  else if a == 0x2A && ctxLen c != 0 then some (0x0204, 0)
  else if preHashed c && c.inLen != (hashLen (sigHash c)).getD 0 then some (0x0202, 0)
  else if sign then needOut c (sigLen a) else none
def digestOf (c : HCmd) (m : Bytes) : Bytes := if preHashed c then m else hashOf (sigHash c) m
/-- A signature of a message under a secret, with fresh random bytes. -/
def signWith (a : Nat) (sec : Bytes) (c : HCmd) (m r : Bytes) : Bytes :=
  if isRsa a then
    let d := digestOf c m
    rsaPriv sec (if rsaPkcs c then pkcs1Encode (sigHash c) (rsaBytes a) d else pssEncode (sigHash c) (rsaBytes a) d (r.take d.length))
  else if a = 0x28 ∨ a = 0x29 then
    let cv := if a = 0x28 then p256 else p384
    let d := digestOf c m
    -- the per-signature value: DRBG output hedged with the digest
    ecdsaSign cv (beNat sec) (1 + beNat (hmac 3 r d ++ hmac 3 d r) % (cv.n - 1)) d
  else if a = 0x2A then edSign sec m
  else fitLen (sigLen a) (Config.pqSign a sec (ctxBytes c) m (if isMlDsa a then r else []))
def verifyWith (a : Nat) (pub : Bytes) (c : HCmd) (m sig : Bytes) : Bool :=
  if isRsa a then
    let p := rsaPubOf pub
    let d := digestOf c m
    sig.length == p.k && (if rsaPkcs c then rsaPubOp p sig == pkcs1Encode (sigHash c) p.k d else pssVerify (sigHash c) d (rsaPubOp p sig))
  else if a = 0x28 ∨ a = 0x29 then ecdsaVerify (if a = 0x28 then p256 else p384) pub (digestOf c m) sig
  else if a = 0x2A then edVerify pub m sig
  else sig.length == sigLen a && Config.pqVerify a pub (ctxBytes c) m sig
def sigWords : List Nat := [9, 10, 11, 12, 13, 14, 15]
def drawsToSign (c : HCmd) (a : Nat) : Bool := (isRsa a && !rsaPkcs c) || a == 0x28 || a == 0x29 || isMlDsa a
def signSpec : HSpec :=
  { useIn := true, useOut := true, useK1 := true, params := sigWords, fmt := sigFmt,
    may := fun _ ks => let k := ks.headD keyReset; isAsym k.alg && k.may 54 && k.secret != [],
    limits := sigLimits true, random := fun c ks => drawsToSign c (ks.headD keyReset).alg,
    work := fun s c ks =>
      let k := ks.headD keyReset
      let (t, r) := if drawsToSign c k.alg then s.random c.creel 64 else (s, [])
      { s := t, out := signWith k.alg k.secret c (s.hIn c) r } }
def execSign (id : Nat) (s : State) : Out := hamper 0x0501 id signSpec s
def verifySpec : HSpec :=
  { useIn := true, useAux := true, useK1 := true, params := sigWords, fmt := sigFmt,
    may := fun _ ks => let k := ks.headD keyReset; isAsym k.alg && k.may 55, limits := sigLimits false,
    work := fun s c ks =>
      let k := ks.headD keyReset
      { s := s, status := if verifyWith k.alg k.pub c (s.hIn c) (s.hAux c) then 0 else 1, result := some 0 } }
def execVerify (id : Nat) (s : State) : Out := hamper 0x0502 id verifySpec s
def kemCt (a : Nat) : Nat := if a = 0x34 then 1088 else 1568
def kemFmt (c : HCmd) : Option (Nat × W64) := tmplCheck c <|> (if attrAlg (c.w 9) ≠ 3 then some (0x0206, 0) else none)
def kemEncapSpec : HSpec :=
  { useOut := true, useK1 := true, params := tmplWords, fmt := kemFmt,
    may := fun _ ks => isKem (ks.headD keyReset).alg && (ks.headD keyReset).may 50,
    limits := fun c ks => needOut c (kemCt (ks.headD keyReset).alg), random := fun _ _ => true,
    work := fun s c ks =>
      let k := ks.headD keyReset
      let (t, r) := s.random c.creel 32
      let (ct, ss) := Config.kemEncap k.alg k.pub r
      t.make c (c.w 9) (fitLen 32 ss) [] (fitLen (kemCt k.alg) ct) }
def execKemEncap (id : Nat) (s : State) : Out := hamper 0x0503 id kemEncapSpec s
def kemDecapSpec : HSpec :=
  { useIn := true, useK1 := true, params := tmplWords, fmt := kemFmt,
    may := fun _ ks => let k := ks.headD keyReset; isKem k.alg && k.may 50 && k.secret != [],
    limits := fun c ks => if c.inLen ≠ kemCt (ks.headD keyReset).alg then some (0x0202, 0) else none,
    work := fun s c ks =>
      let k := ks.headD keyReset
      s.make c (c.w 9) (fitLen 32 (Config.kemDecap k.alg k.secret (s.hIn c))) [] [] }
def execKemDecap (id : Nat) (s : State) : Out := hamper 0x0504 id kemDecapSpec s

/-! ## AUDIT (12/R370) -/

def auditSetupSpec : HSpec :=
  { params := [9, 10, 11, 12],
    ranges := fun c => [((c.w 9).toNat, 128 * 2 ^ (c.w 10).toNat), ((c.w 11).toNat, 40960 * (c.w 12).toNat)],
    fmt := fun c => if (c.w 10).toNat / 32 ≠ 0 ∨ (c.w 12).toNat / 512 ≠ 0 then some (0x0203, 0)
      else if (c.w 10).toNat < 10 ∨ 24 < (c.w 10).toNat ∨ (c.w 12).toNat < 8 ∨ 256 < (c.w 12).toNat then some (0x0204, 0) else none,
    work := fun s c _ =>
      let a := s.audit c.creel
      let seq := (s.chain c.creel).seq
      -- records not consumed in a former ring stay there; held records come first into the new one
      let a : Audit := { a with ring := (c.w 9).toNat, log2n := (c.w 10).toNat, consumed := seq - a.held.length, area := (c.w 11).toNat,
                                slots := (c.w 12).toNat, cpUsed := (s.chain c.creel).cps - a.waiting.length, set := true }
      { s := (s.setAudit c.creel a).auditFlush c.creel a.held.length, result := some 0, changes := true } }
def execAuditSetup (id : Nat) (s : State) : Out := hamper 0x0801 id auditSetupSpec s
def auditConsumedSpec : HSpec :=
  { params := [9, 10],
    work := fun s c _ =>
      let a := s.audit c.creel
      let ch := s.chain c.creel
      if ch.seq < (c.w 9).toNat ∨ (c.w 9).toNat < a.consumed ∨ ch.cps ≤ (c.w 10).toNat ∧ c.w 10 ≠ 0 then { s := s, status := 0x0204 }
      else
        let a : Audit := { a with consumed := (c.w 9).toNat, cpUsed := max a.cpUsed ((c.w 10).toNat + b2n (ch.cps != 0)) }
        let t := (s.setAudit c.creel a).auditFlush c.creel a.held.length
        { s := t, result := some (w64 (a.consumed + 2 ^ a.log2n - ch.seq)), changes := true } }
def execAuditConsumed (id : Nat) (s : State) : Out := hamper 0x0802 id auditConsumedSpec s
def auditCheckpointSpec : HSpec :=
  { work := fun s c _ => { s := s.checkpoint c.creel, result := some (w64 (s.chain c.creel).cps), changes := true } }
def execAuditCheckpoint (id : Nat) (s : State) : Out := hamper 0x0803 id auditCheckpointSpec s
def auditHeadSpec : HSpec :=
  { useOut := true, fmt := fun c => needOut c 56,
    work := fun s c _ => { s := s, out := toLe 8 (s.chain c.creel).seq ++ (s.chain c.creel).head.take 48 } }
def execAuditHead (id : Nat) (s : State) : Out := hamper 0x0804 id auditHeadSpec s

/-! ## The device's own signatures (11/R306, R308, R335) -/

/-- A device RSA key from its seed, and the seed of its SLH-DSA companion. -/
def rsaFromSeed (seed : Bytes) : Bytes :=
  let (p, q) := Config.rsaPrimes 3072 (leNat seed)
  toBe 192 p ++ toBe 192 q
def State.akR (s : State) : Bytes := rsaFromSeed (kdf s.bbkm.ownerRoot (ascii "AK-R") [] 32)
def State.akS (s : State) : Bytes := kdf s.bbkm.ownerRoot (ascii "AK-S") [] 72
def State.dikR (s : State) : Bytes := rsaFromSeed (kdf s.bbkm.root (ascii "DIK-R") [] 32)
def State.dikS (s : State) : Bytes := kdf s.bbkm.root (ascii "DIK-S") [] 72
/-- Both signatures over a statement: RSASSA-PSS with SHA-384 and a 48-byte salt, and SLH-DSA-SHA2-192f. -/
def State.signBoth (s : State) (r sl m : Bytes) : State × Bytes :=
  let (t, salt) := s.random 64 48
  (t, rsaPriv r (pssEncode 2 384 (sha384 m) salt) ++ fitLen 35664 (Config.pqSign 0x38 sl [] m []))
/-- CHECKPOINT_SIGNED: the oldest waiting checkpoint of a creel is signed and written to its slot, with a record of kind
3, once the area has room (11/R335, R336; 12/R370). -/
def execCheckpointSigned (cr : CreelId) (s : State) : Out :=
  let a := s.audit cr
  match a.waiting with
  | [] => .next s
  | (n, cover) :: rest =>
    let slot := n % max 1 a.slots
    let at_ := a.area + 40960 * slot
    if !a.set ∨ a.cpUsed + a.slots ≤ n ∨ !s.dmaOk cr at_ 40960 true then .next s
    else
      let body := checkpointBody s cr n cover
      let (t, sig) := s.signBoth s.akR s.akS body
      let t := (t.unitWrite cr at_ (body ++ sig)).setAudit cr { a with waiting := rest }
      .next (t.auditAppend cr t.hoop.sec t.hoop.st t.hoop.frac (3 * 2 ^ 8) slot 0 0 0)

/-! ## ATTEST (12/R371, 11/R338) -/

/-- The 576-byte report body: the contents of R338 in order at their natural widths. -/
def reportBody (s : State) (c : HCmd) : Bytes :=
  let b := c.bytes 9 32 ++ ((List.range 8).flatMap fun i => s.stake.meas.get (zeros 48) i) ++ [BitVec.ofNat 8 s.bbkm.life] ++
    [BitVec.ofNat 8 s.mirrorCode] ++ toLe 8 s.hoop.sec ++ toLe 4 s.hoop.frac ++ [BitVec.ofNat 8 s.hoop.st] ++ (Config.serial ++ zeros 16).take 16 ++
    s.bbkm.ownerDigest ++ [BitVec.ofNat 8 c.creel] ++ (s.chain c.creel).head.take 48 ++ toLe 8 (s.chain c.creel).seq
  (b ++ zeros 576).take 576
def attestReportSpec : HSpec :=
  { useOut := true, params := [9, 10, 11, 12], fmt := fun c => needOut c 36624,
    work := fun s c _ =>
      let b := reportBody s c
      let (t, sig) := s.signBoth s.akR s.akS b
      { s := t, out := b ++ sig } }
def execAttestReport (id : Nat) (s : State) : Out := hamper 0x0901 id attestReportSpec s
/-- The attestation-key record with both DIK signatures (11/R307). -/
def State.akRecord (s : State) : Bytes :=
  let b := s.bbkm.ownerDigest ++ (Config.serial ++ zeros 16).take 16 ++ rsaPubBytes s.akR ++ fitLen 48 (Config.pqPublic 0x38 s.akS)
  b ++ (s.signBoth s.dikR s.dikS b).2
def attestIdentitySpec : HSpec :=
  { useOut := true,
    work := fun s _ _ =>
      let ak := s.akRecord
      { s := s, out := toLe 4 Config.identityRecord.length ++ Config.identityRecord ++ toLe 4 ak.length ++ ak } }
def execAttestIdentity (id : Nat) (s : State) : Out := hamper 0x0902 id attestIdentitySpec s

/-! ## Cache, random bits, engines -/

/-- KEY_CACHE_FILL: an object's material enters its creel's share (11/R323, R324); a line that fails its check or comes
poisoned makes its object unusable (11/R311). -/
def execKeyCacheFill (cr : CreelId) (h : W64) (line : LookupErr) (s : State) : Out :=
  match s.objOf cr h with
  | none => .next s
  | some k =>
    match line with
    | .none | .dataCorrected | .dirCorrected => .next (s.cacheTouch cr (handleIx h))
    | .dataUncorrectable => .next ((s.setObj { k with bad := true }).deferredTo (some cr.val) 6 0x41 0 0 (handleIx h))
    | _ => .next (((s.setObj { k with bad := true }).creelError cr 2 6 0x41 0 0 (handleIx h)).note 6 0 (handleIx h))
/-- DRBG_RESEED: an instance reseeds after 65,536 requests or one second of Hoop time (11/R330). -/
def execDrbgReseed (inst : Fin 65) (s : State) : Out :=
  let d := s.vault.drbg.get drbgReset inst
  if s.vault.entropy = 0 ∧ (65536 ≤ d.requests ∨ d.since + secs 1 ≤ s.now) then
    .next (s.modVault fun v => { v with drbg := v.drbg.set inst { requests := 0, since := s.now } })
  else .next s
/-- HEALTH_TEST_FAILURE: every instance stops, and the start-up tests run again (11/R331). -/
def execHealthTestFailure (s : State) : Out :=
  if s.vault.entropy = 0 then .next (s.modVault fun v => { v with entropy := 1, reruns := 0 }) else .next s
/-- HEALTH_TEST_RERUN: a pass reseeds every instance; the third failure in a row declares the source failed. -/
def execHealthTestRerun (passes : Bool) (s : State) : Out :=
  if s.vault.entropy ≠ 1 then .next s
  else if passes then
    .next (s.modVault fun v =>
      { v with entropy := 0, reruns := 0, drbg := (List.range 65).map fun i => (i, ({ requests := 0, since := s.now } : Drbg)) })
  else if s.vault.reruns + 1 < 3 then .next (s.modVault fun v => { v with reruns := v.reruns + 1 })
  else .next ((s.modVault fun v => { v with entropy := 2, reruns := 3 }).note 6 0 0)
/-- KNOWN_ANSWER_TEST: an engine that fails twice in a row is retired; a failure of the DRBG or of the key path makes
every command fail until the next start (21/R579). Engines 0 to 23 symmetric, 24 to 47 public-key, 48 to 55 hash, 56 to
67 sequencers, 68 the DRBG, 69 the key path. -/
def execKnownAnswerTest (engine : Fin 70) (passes : Bool) (s : State) : Out :=
  if passes then .next (s.modVault fun v => { v with engines := v.engines.erase engine })
  else if 68 ≤ engine.val then .next (s.modVault fun v => { v with broken := true })
  else
    let n := s.vault.engines.get 0 engine
    if n = 0 then .next (s.modVault fun v => { v with engines := v.engines.set engine 1 })
    else .next ((s.modVault fun v => { v with engines := v.engines.erase engine }).retireHamper engine 100)

end Sys2Proof.Machine
end

