-- ==== Sys2Proof/Machine/Integer.lean ====
section
/-!
DEFINITION. The meanings of the integer, immediate, compare, predicate-logic and branch instructions (02/R46-R70).
-/
namespace Sys2Proof.Machine

/-! ## Results (02/R50-R58) -/

def sextW (v : W64) : W64 := (v.truncate 32).signExtend 64
/-- The shift amount of a register operand (02/R49). -/
def amount (v : W64) : Nat := v.toNat % 64
def mulHighS (a b : W64) : W64 := BitVec.ofInt 64 (a.toInt * b.toInt / 2 ^ 64)
def mulHighU (a b : W64) : W64 := w64 (a.toNat * b.toNat / 2 ^ 64)
/-- Signed division: all ones for a zero divisor, the dividend on overflow, else toward zero (02/R52). -/
def divS (a b : W64) : W64 :=
  if b = 0 then BitVec.allOnes 64
  else if a = 0x8000000000000000 ∧ b = BitVec.allOnes 64 then 0x8000000000000000
  else BitVec.ofInt 64 (a.toInt.tdiv b.toInt)
def divU (a b : W64) : W64 := if b = 0 then BitVec.allOnes 64 else w64 (a.toNat / b.toNat)
def remS (a b : W64) : W64 :=
  if b = 0 then a
  else if a = 0x8000000000000000 ∧ b = BitVec.allOnes 64 then 0
  else BitVec.ofInt 64 (a.toInt - b.toInt * a.toInt.tdiv b.toInt)
def remU (a b : W64) : W64 := if b = 0 then a else w64 (a.toNat - b.toNat * (a.toNat / b.toNat))
def minS (a b : W64) : W64 := if a.toInt ≤ b.toInt then a else b
def maxS (a b : W64) : W64 := if a.toInt ≤ b.toInt then b else a
def minU (a b : W64) : W64 := if a.toNat ≤ b.toNat then a else b
def maxU (a b : W64) : W64 := if a.toNat ≤ b.toNat then b else a
/-- Zero bits above the most significant one; 64 for zero (02/R53). -/
def countLead (v : W64) : Nat := ((List.range 64).find? fun i => v.getLsbD (63 - i)).getD 64
def countTrail (v : W64) : Nat := ((List.range 64).find? fun i => v.getLsbD i).getD 64
def countOnes (v : W64) : Nat := ((List.range 64).filter fun i => v.getLsbD i).length
def byteSwap (v : W64) : W64 := w64 (leNat (toBe 8 v.toNat))
/-- The predicate image: bit n is pn, p0 reads 1 (02/R55). -/
def predImage (x : Ctx) : W64 :=
  w64 ((List.range 16).foldl (fun a n => a + b2n (x.rdp n) * 2 ^ n) 0)
def predLoad (x : Ctx) (v : W64) : Ctx := (List.range 16).foldl (fun x n => x.wrp n (v.getLsbD n)) x
def shi (old : W64) (imm : BitVec 15) : W64 := (old <<< 15) ||| imm.zeroExtend 64

/-! ## Register forms -/

/-- ADD; ADD g0, g0, g0 under p0 would be the word 0, a reserved encoding (02/R38). -/
def execAdd (a : Agent) (q : PReg) (d s1 s2 : Reg) (s : State) : Out :=
  form3 a q d s1 s2 false [] 3 (· + ·) s (legal := !(q == 0 && d == 0 && s1 == 0 && s2 == 0))
def execSub (a : Agent) (q : PReg) (d s1 s2 : Reg) (s : State) : Out := form3 a q d s1 s2 false [] 3 (· - ·) s
def execAnd (a : Agent) (q : PReg) (d s1 s2 : Reg) (s : State) : Out := form3 a q d s1 s2 false [] 3 (· &&& ·) s
def execOr (a : Agent) (q : PReg) (d s1 s2 : Reg) (s : State) : Out := form3 a q d s1 s2 false [] 3 (· ||| ·) s
def execXor (a : Agent) (q : PReg) (d s1 s2 : Reg) (s : State) : Out := form3 a q d s1 s2 false [] 3 (· ^^^ ·) s
def execAndn (a : Agent) (q : PReg) (d s1 s2 : Reg) (s : State) : Out :=
  form3 a q d s1 s2 false [] 3 (fun x y => x &&& ~~~ y) s
def execOrn (a : Agent) (q : PReg) (d s1 s2 : Reg) (s : State) : Out :=
  form3 a q d s1 s2 false [] 3 (fun x y => x ||| ~~~ y) s
def execXnor (a : Agent) (q : PReg) (d s1 s2 : Reg) (s : State) : Out :=
  form3 a q d s1 s2 false [] 3 (fun x y => ~~~ (x ^^^ y)) s
def execSll (a : Agent) (q : PReg) (d s1 s2 : Reg) (s : State) : Out :=
  form3 a q d s1 s2 false [] 3 (fun x y => x <<< amount y) s
def execSrl (a : Agent) (q : PReg) (d s1 s2 : Reg) (s : State) : Out :=
  form3 a q d s1 s2 false [] 3 (fun x y => x >>> amount y) s
def execSra (a : Agent) (q : PReg) (d s1 s2 : Reg) (s : State) : Out :=
  form3 a q d s1 s2 false [] 3 (fun x y => x.sshiftRight (amount y)) s
def execRol (a : Agent) (q : PReg) (d s1 s2 : Reg) (s : State) : Out :=
  form3 a q d s1 s2 false [] 3 (fun x y => x.rotateLeft (amount y)) s
def execRor (a : Agent) (q : PReg) (d s1 s2 : Reg) (s : State) : Out :=
  form3 a q d s1 s2 false [] 3 (fun x y => x.rotateRight (amount y)) s
def execAddw (a : Agent) (q : PReg) (d s1 s2 : Reg) (s : State) : Out :=
  form3 a q d s1 s2 false [] 3 (fun x y => sextW (x + y)) s
def execSubw (a : Agent) (q : PReg) (d s1 s2 : Reg) (s : State) : Out :=
  form3 a q d s1 s2 false [] 3 (fun x y => sextW (x - y)) s
def execMul (a : Agent) (q : PReg) (d s1 s2 : Reg) (s : State) : Out :=
  form3 a q d s1 s2 false [(0x0A, 1)] 6 (· * ·) s
def execMulhs (a : Agent) (q : PReg) (d s1 s2 : Reg) (s : State) : Out :=
  form3 a q d s1 s2 true [(0x0A, 1)] 3 mulHighS s
def execMulhu (a : Agent) (q : PReg) (d s1 s2 : Reg) (s : State) : Out :=
  form3 a q d s1 s2 true [(0x0A, 1)] 3 mulHighU s
def execDiv (a : Agent) (q : PReg) (d s1 s2 : Reg) (s : State) : Out := form3 a q d s1 s2 true [(0x0A, 1)] 3 divS s
def execDivu (a : Agent) (q : PReg) (d s1 s2 : Reg) (s : State) : Out := form3 a q d s1 s2 true [(0x0A, 1)] 3 divU s
def execRem (a : Agent) (q : PReg) (d s1 s2 : Reg) (s : State) : Out := form3 a q d s1 s2 true [(0x0A, 1)] 3 remS s
def execRemu (a : Agent) (q : PReg) (d s1 s2 : Reg) (s : State) : Out := form3 a q d s1 s2 true [(0x0A, 1)] 3 remU s
def execMin (a : Agent) (q : PReg) (d s1 s2 : Reg) (s : State) : Out := form3 a q d s1 s2 false [] 3 minS s
def execMax (a : Agent) (q : PReg) (d s1 s2 : Reg) (s : State) : Out := form3 a q d s1 s2 false [] 3 maxS s
def execMinu (a : Agent) (q : PReg) (d s1 s2 : Reg) (s : State) : Out := form3 a q d s1 s2 false [] 3 minU s
def execMaxu (a : Agent) (q : PReg) (d s1 s2 : Reg) (s : State) : Out := form3 a q d s1 s2 false [] 3 maxU s
def execClz (a : Agent) (q : PReg) (d s1 : Reg) (s : State) : Out := form2 a q d s1 (fun x => w64 (countLead x)) s
def execCtz (a : Agent) (q : PReg) (d s1 : Reg) (s : State) : Out := form2 a q d s1 (fun x => w64 (countTrail x)) s
def execPopc (a : Agent) (q : PReg) (d s1 : Reg) (s : State) : Out := form2 a q d s1 (fun x => w64 (countOnes x)) s
def execBswap (a : Agent) (q : PReg) (d s1 : Reg) (s : State) : Out := form2 a q d s1 byteSwap s
def execSextb (a : Agent) (q : PReg) (d s1 : Reg) (s : State) : Out :=
  form2 a q d s1 (fun x => (x.truncate 8).signExtend 64) s
def execSexth (a : Agent) (q : PReg) (d s1 : Reg) (s : State) : Out :=
  form2 a q d s1 (fun x => (x.truncate 16).signExtend 64) s
def execSextw (a : Agent) (q : PReg) (d s1 : Reg) (s : State) : Out := form2 a q d s1 sextW s
def execZextb (a : Agent) (q : PReg) (d s1 : Reg) (s : State) : Out :=
  form2 a q d s1 (fun x => (x.truncate 8).zeroExtend 64) s
def execZexth (a : Agent) (q : PReg) (d s1 : Reg) (s : State) : Out :=
  form2 a q d s1 (fun x => (x.truncate 16).zeroExtend 64) s
def execZextw (a : Agent) (q : PReg) (d s1 : Reg) (s : State) : Out :=
  form2 a q d s1 (fun x => (x.truncate 32).zeroExtend 64) s
/-- MOVPG writes the predicate image (02/R54, R55). -/
def execMovpg (a : Agent) (q : PReg) (d : Reg) (s : State) : Out :=
  runInstr { agent := a, guard := q, writes := [d.toNat] } (fun s x => .done (s.wrG a d.toNat (predImage x)) []) s
/-- MOVGP loads p1 to p15 from bits [15:1] (02/R54, R55). -/
def execMovgp (a : Agent) (q : PReg) (s1 : Reg) (s : State) : Out :=
  runInstr { agent := a, guard := q, reads := [s1.toNat] }
    (fun s x => .done (s.modCtx a fun y => predLoad y (x.rd s1.toNat)) []) s

/-! ## Immediate forms (02/R56-R59) -/

def execAddi (a : Agent) (q : PReg) (d s1 : Reg) (imm : BitVec 9) (s : State) : Out := formI a q d s1 imm (· + ·) s
def execAndi (a : Agent) (q : PReg) (d s1 : Reg) (imm : BitVec 9) (s : State) : Out := formI a q d s1 imm (· &&& ·) s
def execOri (a : Agent) (q : PReg) (d s1 : Reg) (imm : BitVec 9) (s : State) : Out := formI a q d s1 imm (· ||| ·) s
def execXori (a : Agent) (q : PReg) (d s1 : Reg) (imm : BitVec 9) (s : State) : Out := formI a q d s1 imm (· ^^^ ·) s
def execSlli (a : Agent) (q : PReg) (d s1 : Reg) (n : BitVec 6) (s : State) : Out :=
  formSh a q d s1 n (fun x k => x <<< k) s
def execSrli (a : Agent) (q : PReg) (d s1 : Reg) (n : BitVec 6) (s : State) : Out :=
  formSh a q d s1 n (fun x k => x >>> k) s
def execSrai (a : Agent) (q : PReg) (d s1 : Reg) (n : BitVec 6) (s : State) : Out :=
  formSh a q d s1 n (fun x k => x.sshiftRight k) s
def execRori (a : Agent) (q : PReg) (d s1 : Reg) (n : BitVec 6) (s : State) : Out :=
  formSh a q d s1 n (fun x k => x.rotateRight k) s
def execLdi (a : Agent) (q : PReg) (d : Reg) (imm : BitVec 15) (s : State) : Out :=
  runInstr { agent := a, guard := q, writes := [d.toNat] }
    (fun s _ => .done (s.wrG a d.toNat (imm.signExtend 64)) []) s
/-- SHI reads its destination (02/R58, R59). -/
def execShi (a : Agent) (q : PReg) (d : Reg) (imm : BitVec 15) (s : State) : Out :=
  runInstr { agent := a, guard := q, reads := [d.toNat], writes := [d.toNat] }
    (fun s x => .done (s.wrG a d.toNat (shi (x.rd d.toNat) imm)) []) s

/-! ## Compare and predicate logic (02/R61-R64) -/

def execCmpEq (a : Agent) (q pt pf : PReg) (s1 s2 : Reg) (s : State) : Out := formC a q pt pf s1 s2 (fun x y => x == y) s
def execCmpNe (a : Agent) (q pt pf : PReg) (s1 s2 : Reg) (s : State) : Out := formC a q pt pf s1 s2 (fun x y => x != y) s
def execCmpLt (a : Agent) (q pt pf : PReg) (s1 s2 : Reg) (u : Bool) (s : State) : Out :=
  formC a q pt pf s1 s2 (fun x y => if u then x.ult y else x.slt y) s
def execCmpGe (a : Agent) (q pt pf : PReg) (s1 s2 : Reg) (u : Bool) (s : State) : Out :=
  formC a q pt pf s1 s2 (fun x y => if u then !x.ult y else !x.slt y) s
def execCmpTst (a : Agent) (q pt pf : PReg) (s1 s2 : Reg) (s : State) : Out :=
  formC a q pt pf s1 s2 (fun x y => x &&& y != 0) s
def execPand (a : Agent) (q pt pf pa pb : PReg) (s : State) : Out := formP a q pt pf pa pb (fun x y => x && y) s
def execPor (a : Agent) (q pt pf pa pb : PReg) (s : State) : Out := formP a q pt pf pa pb (fun x y => x || y) s
def execPxor (a : Agent) (q pt pf pa pb : PReg) (s : State) : Out := formP a q pt pf pa pb (fun x y => x ^^ y) s
def execPandn (a : Agent) (q pt pf pa pb : PReg) (s : State) : Out := formP a q pt pf pa pb (fun x y => x && !y) s

/-! ## Branch, call, return and loop (02/R65-R70) -/

def dispTarget (pc : W64) (disp : BitVec 21) : W64 := pc + disp.signExtend 64 * 4
/-- A direct branch as prediction knows it; a displacement of 0 counts as not negative (04/R120; log entry 9). -/
def dispBranch (s : State) (a : Agent) (disp : BitVec 21) : Option (BrKind × Option W64) :=
  some (.direct (disp.getLsbD 20), some (dispTarget (s.ctx a).pc disp))
def execBr (a : Agent) (q : PReg) (disp : BitVec 21) (s : State) : Out :=
  runInstr { agent := a, guard := q, beats := 5, branch := dispBranch s a disp }
    (fun s x => s.branchTo a (.direct (disp.getLsbD 20)) (dispTarget x.pc disp) false) s
def execCall (a : Agent) (q : PReg) (disp : BitVec 21) (s : State) : Out :=
  runInstr { agent := a, guard := q, writes := [63], beats := 5, branch := dispBranch s a disp }
    (fun s x => s.branchTo a (.direct (disp.getLsbD 20)) (dispTarget x.pc disp) true) s
def execJmpr (a : Agent) (q : PReg) (s1 : Reg) (s : State) : Out :=
  runInstr { agent := a, guard := q, reads := [s1.toNat], beats := 5, branch := some (.indirect, none) }
    (fun s x => s.branchTo a .indirect (x.rd s1.toNat) false) s
def execCallr (a : Agent) (q : PReg) (s1 : Reg) (s : State) : Out :=
  runInstr { agent := a, guard := q, reads := [s1.toNat], writes := [63], beats := 5, branch := some (.indirect, none) }
    (fun s x => s.branchTo a .indirect (x.rd s1.toNat) true) s
def execRet (a : Agent) (q : PReg) (s1 : Reg) (s : State) : Out :=
  runInstr { agent := a, guard := q, reads := [s1.toNat], beats := 5, branch := some (.ret, none) }
    (fun s x => s.branchTo a .ret (x.rd s1.toNat) false) s
/-- LOOP: the counter steps down; while it is not zero the body of n instructions runs again (02/R69, R70). -/
def execLoop (a : Agent) (q : PReg) (d : Reg) (n : BitVec 9) (s : State) : Out :=
  runInstr { agent := a, guard := q, legal := decide (1 ≤ n.toNat) && decide (n.toNat ≤ 32) && d != 0,
             reads := [d.toNat], writes := [d.toNat], beats := 5, loopLen := some n.toNat,
             branch := some (.direct true, some ((s.ctx a).pc - 4 * w64 n.toNat)) }
    (fun s x =>
      let v := x.rd d.toNat - 1
      let t := x.pc - 4 * w64 n.toNat
      if v ≠ 0 then
        match s.targetExc a t with
        | some code => .exc s code none 0
        | none =>
          let (s, evs) := s.predictOn a (.direct true) x.pc t true none
          .jump (s.wrG a d.toNat v) t ((0x24, 1) :: evs)
      else
        let (s, evs) := s.predictOn a (.direct true) x.pc t false none
        .done (s.wrG a d.toNat v) evs) s

/-- A reserved encoding, or a core-only instruction reached on a sequencer: ILLEGAL_INSTRUCTION whatever its guard
(02/R37 to R39, R42, R45). The command names the word that was fetched; a word that is an instruction of the agent is no
such event, and nothing happens (log entry 134). -/
def execIllegalInstruction (a : Agent) (word : BitVec 32) (s : State) : Out :=
  match decodeWord a word with
  | some _ => .next s
  | none => runInstr { agent := a, guard := 0, legal := false } (fun s _ => .wait s) s

end Sys2Proof.Machine
end

