-- ==== Sys2Proof/Machine/LoadStore.lean ====
section
/-!
DEFINITION. The meanings of loads, stores, atomics, barriers and prediction control (03/R73-R82, 05).
-/
namespace Sys2Proof.Machine

/-- Loads accept the marks 0b00 and 0b01, stores 0b00 and 0b10 (03/R74). -/
def loadMark (m : Mark) : Bool := !m.getLsbD 1
def storeMark (m : Mark) : Bool := !m.getLsbD 0

def memLoad (a : Agent) (q : PReg) (data base : Reg) (off : BitVec 7) (mark : Mark) (size : Nat) (signed : Bool)
    (s : State) : Out :=
  runInstr { agent := a, guard := q, legal := loadMark mark, reads := [base.toNat], writes := [data.toNat],
             events := [(6, 1)], beats := 4, sharedExtra := 1 }
    (fun s x => s.loadBy a (effAddr x base off size) (.reg data.toNat size signed) mark false) s
def memStore (a : Agent) (q : PReg) (data base : Reg) (off : BitVec 7) (mark : Mark) (size : Nat) (s : State) : Out :=
  runInstr { agent := a, guard := q, legal := storeMark mark, reads := [base.toNat, data.toNat], events := [(7, 1)],
             beats := 4, sharedExtra := 1 }
    (fun s x => s.storeBy a (effAddr x base off size) (toLe size (x.rd data.toNat).toNat) mark false) s

def execLdb (a : Agent) (q : PReg) (data base : Reg) (off : BitVec 7) (mark : Mark) (s : State) : Out :=
  memLoad a q data base off mark 1 true s
def execLdbu (a : Agent) (q : PReg) (data base : Reg) (off : BitVec 7) (mark : Mark) (s : State) : Out :=
  memLoad a q data base off mark 1 false s
def execLdh (a : Agent) (q : PReg) (data base : Reg) (off : BitVec 7) (mark : Mark) (s : State) : Out :=
  memLoad a q data base off mark 2 true s
def execLdhu (a : Agent) (q : PReg) (data base : Reg) (off : BitVec 7) (mark : Mark) (s : State) : Out :=
  memLoad a q data base off mark 2 false s
def execLdw (a : Agent) (q : PReg) (data base : Reg) (off : BitVec 7) (mark : Mark) (s : State) : Out :=
  memLoad a q data base off mark 4 true s
def execLdwu (a : Agent) (q : PReg) (data base : Reg) (off : BitVec 7) (mark : Mark) (s : State) : Out :=
  memLoad a q data base off mark 4 false s
def execLdd (a : Agent) (q : PReg) (data base : Reg) (off : BitVec 7) (mark : Mark) (s : State) : Out :=
  memLoad a q data base off mark 8 false s
def execStb (a : Agent) (q : PReg) (data base : Reg) (off : BitVec 7) (mark : Mark) (s : State) : Out :=
  memStore a q data base off mark 1 s
def execSth (a : Agent) (q : PReg) (data base : Reg) (off : BitVec 7) (mark : Mark) (s : State) : Out :=
  memStore a q data base off mark 2 s
def execStw (a : Agent) (q : PReg) (data base : Reg) (off : BitVec 7) (mark : Mark) (s : State) : Out :=
  memStore a q data base off mark 4 s
def execStd (a : Agent) (q : PReg) (data base : Reg) (off : BitVec 7) (mark : Mark) (s : State) : Out :=
  memStore a q data base off mark 8 s
/-- LDP: 16 bytes into an even-odd pair (03/R73, R75). -/
def execLdp (a : Agent) (q : PReg) (data base : Reg) (off : BitVec 7) (mark : Mark) (s : State) : Out :=
  runInstr { agent := a, guard := q, legal := loadMark mark && !data.getLsbD 0, reads := [base.toNat],
             writes := [data.toNat, data.toNat + 1], events := [(6, 1)], beats := 5, sharedExtra := 1 }
    (fun s x => s.loadBy a (effAddr x base off 16) (.pair data.toNat) mark false) s
/-- STP: an even-odd pair as 16 bytes (03/R73, R75). -/
def execStp (a : Agent) (q : PReg) (data base : Reg) (off : BitVec 7) (mark : Mark) (s : State) : Out :=
  runInstr { agent := a, guard := q, legal := storeMark mark && !data.getLsbD 0,
             reads := [base.toNat, data.toNat, data.toNat + 1], events := [(7, 1)], beats := 5, sharedExtra := 1 }
    (fun s x => s.storeBy a (effAddr x base off 16)
      (toLe 8 (x.rd data.toNat).toNat ++ toLe 8 (x.rd (data.toNat + 1)).toNat) mark false) s

/-! ## Atomics (03/R78-R80) -/

def rmw (a : Agent) (q : PReg) (d s1 s2 : Reg) (mark : Mark) (f : W64 → W64 → W64) (s : State) : Out :=
  runInstr { agent := a, guard := q, reads := [s1.toNat, s2.toNat], writes := [d.toNat], events := [(8, 1)], beats := 7 }
    (fun s x =>
      let g := fun (o : Nat) => (f (w64 o) (x.rd s2.toNat)).toNat
      match a with
      | .core n => s.coreAtomic n (x.rd s1.toNat) 8 (markAcq mark) (markRel mark) g
          (fun s o => s.wrG a d.toNat (w64 o))
      | .seq z => s.seqAtomic z (x.rd s1.toNat) d.toNat g) s
def execSwap (a : Agent) (q : PReg) (d s1 s2 : Reg) (mark : Mark) (s : State) : Out := rmw a q d s1 s2 mark (fun _ b => b) s
def execAtomicAdd (a : Agent) (q : PReg) (d s1 s2 : Reg) (mark : Mark) (s : State) : Out := rmw a q d s1 s2 mark (· + ·) s
def execAtomicAnd (a : Agent) (q : PReg) (d s1 s2 : Reg) (mark : Mark) (s : State) : Out := rmw a q d s1 s2 mark (· &&& ·) s
def execAtomicOr (a : Agent) (q : PReg) (d s1 s2 : Reg) (mark : Mark) (s : State) : Out := rmw a q d s1 s2 mark (· ||| ·) s
def execAtomicXor (a : Agent) (q : PReg) (d s1 s2 : Reg) (mark : Mark) (s : State) : Out := rmw a q d s1 s2 mark (· ^^^ ·) s
def execAtomicMin (a : Agent) (q : PReg) (d s1 s2 : Reg) (mark : Mark) (s : State) : Out := rmw a q d s1 s2 mark minS s
def execAtomicMax (a : Agent) (q : PReg) (d s1 s2 : Reg) (mark : Mark) (s : State) : Out := rmw a q d s1 s2 mark maxS s
def execAtomicMinu (a : Agent) (q : PReg) (d s1 s2 : Reg) (mark : Mark) (s : State) : Out := rmw a q d s1 s2 mark minU s
def execAtomicMaxu (a : Agent) (q : PReg) (d s1 s2 : Reg) (mark : Mark) (s : State) : Out := rmw a q d s1 s2 mark maxU s
/-- CAS: on a match the new value is written; the expected register receives the old value (03/R79). -/
def execCas (a : Agent) (q : PReg) (data base : Reg) (off : BitVec 7) (mark : Mark) (s : State) : Out :=
  runInstr { agent := a, guard := q, legal := !data.getLsbD 0, reads := [base.toNat, data.toNat, data.toNat + 1],
             writes := [data.toNat], events := [(8, 1)], beats := 7 }
    (fun s x =>
      let g := fun (o : Nat) => if o = (x.rd data.toNat).toNat then (x.rd (data.toNat + 1)).toNat else o
      match a with
      | .core n => s.coreAtomic n (effAddr x base off 8) 8 (markAcq mark) (markRel mark) g
          (fun s o => s.wrG a data.toNat (w64 o))
      | .seq z => s.seqAtomic z (effAddr x base off 8) data.toNat g) s
/-- CAS16, on cores (03/R79). -/
def execCas16 (a : Agent) (q : PReg) (data base : Reg) (off : BitVec 7) (mark : Mark) (s : State) : Out :=
  runInstr { agent := a, guard := q, coreOnly := true, legal := !data.getLsbD 0 && !data.getLsbD 1, events := [(8, 1)] }
    (fun s x =>
      let r := data.toNat
      let pair := fun k => (x.rd k).toNat + 2 ^ 64 * (x.rd (k + 1)).toNat
      match a with
      | .core n => s.coreAtomic n (effAddr x base off 16) 16 (markAcq mark) (markRel mark)
          (fun o => if o = pair r then pair (r + 2) else o)
          (fun s o => (s.wrG a r (w64 o)).wrG a (r + 1) (w64 (o / 2 ^ 64)))
      | .seq _ => .wait s) s

/-! ## Barriers (03/R81, R82; 05/R154, R161) -/

/-- A barrier of a sequencer completes after the outstanding miss and every earlier shared store (04/R134). -/
def seqBarrier (s : State) (z : SeqId) : Res := if (s.seq (seqIx z)).missBusy then .wait s else .done s []
/-- FENCE.IO of a sequencer also waits for its device loads and its strict stores (05/R161, R170). -/
def seqBarrierIo (s : State) (z : SeqId) : Res := if (s.seq (seqIx z)).ioBusy then .wait s else .done s []
/-- A core's barrier is a commit point of its creel: it completes once the commit is released (15/R448). -/
def coreBarrier (s : State) (n : Nat) (done : State → Res) : Res :=
  match s.commitGate n with
  | (s, true) => done s
  | (s, false) => .wait s
/-- FENCE: earlier WB, WC and UC accesses are performed before later ones; the write-combining buffers drain. -/
def execFence (a : Agent) (q : PReg) (s : State) : Out :=
  runInstr { agent := a, guard := q, events := [(9, 1)] }
    (fun s _ => match a with
      | .core n => coreBarrier ((s.drainAll n).wcDrainAll n) n fun s => .done s []
      | .seq z => seqBarrier s z) s
/-- FENCE.IO also waits for the acknowledgement of every DEV-STRICT store (05/R161, R173, R174). -/
def execFenceIo (a : Agent) (q : PReg) (s : State) : Out :=
  runInstr { agent := a, guard := q, events := [(9, 1)] }
    (fun s _ => match a with
      | .core n =>
        let s := (s.drainAll n).wcDrainAll n
        if (s.core n).strict ≠ [] then .wait (s.modCore n fun c => { c with ioFence := true })
        else coreBarrier s n fun s => .done s []
      | .seq z => seqBarrierIo s z) s
/-- FENCE.ST: the write-combining buffers drain, nothing merges across it, and buffered WC stores leave their buffers
before any later store: an empty release-marked entry stands between (05/R151, R154). -/
def execFenceSt (a : Agent) (q : PReg) (s : State) : Out :=
  runInstr { agent := a, guard := q, events := [(9, 1)] }
    (fun s _ => match a with
      | .core n =>
        if s.mirrored n then coreBarrier ((s.drainAll n).wcDrainAll n) n fun s => .done s []
        else .done (((s.wcDrainAll n).sealSb n).modCore n fun c =>
          if c.sb = [] then c else { c with sb := c.sb ++ [{ mt := .wb, bytes := [], sealed := true, release := true, stores := 0 }] }) []
      | .seq z => seqBarrier s z) s
/-- FENCE.SPEC: instructions complete one at a time here, so every earlier one has completed (03/R81). -/
def execFenceSpec (a : Agent) (q : PReg) (s : State) : Out :=
  runInstr { agent := a, guard := q, events := [(9, 1)] } (fun s _ => .done s []) s
/-- ISYNC: system-register writes take effect (03/R97). -/
def execIsync (a : Agent) (q : PReg) (s : State) : Out :=
  runInstr { agent := a, guard := q, events := [(9, 1), (0x26, 1)] }
    (fun s _ => match a with
      | .core n => .done (s.modCore n Core.isync) []
      | .seq _ => .done s []) s
/-- PBAR advances the prediction epoch (04/R121). -/
def execPbar (a : Agent) (q : PReg) (s : State) : Out :=
  runInstr { agent := a, guard := q, events := [(0x25, 1)] }
    (fun s _ => match a with
      | .core n => .done (s.modCore n fun c => { c with pred := { c.pred with epoch := c.pred.epoch + 1 } }) []
      | .seq _ => .done s []) s
/-- PFLUSH empties the branch target buffer, the direction predictor and the return stack, at S (03/R82). -/
def execPflush (a : Agent) (q : PReg) (s : State) : Out :=
  runInstr { agent := a, guard := q, coreOnly := true, events := [(0x25, 1)] }
    (fun s _ => match a with
      | .core n =>
        if !(s.core n).priv then .exc s 2 none 0
        else .done (s.modCore n fun c => { c with pred := { c.pred with btb1 := [], btb2 := [], dir := [], hist := [], ras := [] } }) []
      | .seq _ => .wait s) s

end Sys2Proof.Machine
end

