-- ==== Sys2Proof/Machine/Pair.lean ====
section
/-!
DEFINITION. Pairing: the link, the ceremony, roles, commits as the partner applies them, loss, fence, witness and takeover,
resynchronisation and the pairing commands (15).
-/
namespace Sys2Proof.Machine

/-- n units of 0.1 µs. -/
def tenths (n : Nat) : Nat := n * 2 ^ 32 / 10000000
def popCount8 (n : Nat) : Nat := ((List.range 8).filter fun i => n.testBit i).length
def State.linkUp (s : State) : Bool := decide (4 ≤ popCount8 s.pair.up)
def paired (w : W64) : Bool := tbit w 0
def homeIx (w : W64) : Nat := b2n (tbit w 1)
def copyReset : Copy := { lines := [], handles := [], sess := [] }

/-! ## The link (R439-R441) -/

/-- The link goes down; the frames not acknowledged stay queued. -/
def State.linkFalls (s : State) : State := (s.modPair fun p => { p with up := 0 }).note 9 0 0x440
/-- LINK_REKEY: after 2^32 frames or 60 s of Hoop time (R441). -/
def execLinkRekey (s : State) : Out :=
  if s.linkUp ∧ (2 ^ 32 ≤ s.pair.sent ∨ s.pair.keyAt + secs 60 ≤ s.now) then
    .next (s.modPair fun p => { p with keys := p.keys + 1, keyAt := s.now, sent := 0 })
  else .next s
/-- BUNDLE_FAILURE: a lane of a bundle fails; its reserve lane takes over, or the bundle goes down and its frames are sent
again on the others (R440). -/
def State.laneFails (s : State) (b : Nat) : State :=
  if !s.pair.up.testBit b then s
  else if !s.pair.resv.testBit b then ((s.modPair fun p => { p with resv := p.resv + 2 ^ b }).retiredRec 4 b b
    fun c => s.pair.roles.get 0 c != 0)
  else
    let s := s.modPair fun p => { p with up := p.up - 2 ^ b }
    let s := s.pair.unacked.foldl (fun s f => s.emit 9 [f.cls, f.seq]) s
    if s.linkUp then s else s.linkFalls
def execBundleFailure (b : Fin 8) (s : State) : Out := .next (s.laneFails b)
/-- A command whose value the partner must hold as well completes once its frames are acknowledged (R464). -/
def State.partnerDone (s : State) : State :=
  if s.pair.unacked.any fun f => f.cls = 5 then s else s.finishRun (fun r => r.why == .pairing) 0 0
/-- FRAME_RETRANSMIT: frames older than 2 µs whose acknowledgement has not come, which the link decides, are sent again. -/
def execFrameRetransmit (s : State) : Out :=
  if !s.linkUp then .next s
  else
    let late := fun (f : TxFrame) => decide (f.sent + tenths 20 ≤ s.clock)
    let marked := s.pair.unacked.zipIdx.map fun (f : TxFrame × Nat) => (f.1, late f.1 && Config.free .unstated (s.free + f.2) % 2 == 0)
    let keep := (marked.filter fun f => !f.2).map fun f => if late f.1 then { f.1 with sent := s.clock } else f.1
    let again := (marked.filter fun f => !f.2 && late f.1).map (·.1)
    let s := { s with free := s.free + marked.length }
    let s := s.modPair fun p => { p with unacked := keep, sent := p.sent + again.length }
    .next (again.foldl (fun s f => s.emit 9 [f.cls, f.seq]) s).partnerDone

/-! ## Commits at the primary (R450-R452) -/

def State.commitOf (s : State) (id : Nat) : Option Commit := s.pair.commits.find? fun c => c.id = id
def State.ackCommit (s : State) (id : Nat) : State :=
  match s.commitOf id with
  | none => s
  | some c => ((s.release c false).moveTry c.creel).ucAdd c.creel 0x68 ((s.clock - c.since) * 1000000000 / 2 ^ 32)
def execCommitAcknowledgement (id : Nat) (s : State) : Out := .next (s.ackCommit id)
/-- COMMIT_DEADLINE: a synchronous commit waits on under stall and completes under continue; where tag failures took the link
down, that is a durability breach (R466). -/
def execCommitDeadline (id : Nat) (s : State) : Out :=
  match s.commitOf id with
  | none => .next s
  | some c =>
    let w := c.cfg
    if c.region && asyncCfg w ∨ c.late ∨ s.clock < c.since + tenths (fld w 31 16) then .next s
    else if stallCfg w then
      .next ((s.modPair fun p => { p with commits := p.commits.map fun d => if d.id = id then { d with late := true } else d }).pairCount c.creel 47 32)
    else .next (let s := (s.releaseUnmirrored c).pairBit c.creel 1; if s.pair.tagDown then s.breach c.creel 3 else s)
def execLagAlarm (cr : CreelId) (s : State) : Out :=
  if asyncCfg (s.pairCfg cr) ∧ s.lagging cr then .next (s.pairBit cr 2) else .next s

/-! ## What the standby applies (R449, R460) -/

/-- One change from the partner takes effect. -/
def State.applyMsg (s : State) (cr : Nat) : PairMsg → State
  | .line _ no b poison =>
    let s := s.hubWrite (64 * no.toNat) (b.take 64)
    if poison then s.markPoison no.toNat else s
  | .object _ a sec pub =>
    let h := a.getD 7 0
    let k : KeyObj := { w0 := a.getD 0 0, notBefore := a.getD 1 0, notAfter := a.getD 2 0, useLimit := a.getD 3 0, useCount := a.getD 4 0,
                        kcv := (a.getD 5 0).toNat, version := a.getD 6 0, handle := h, secret := sec, pub := pub, bad := false }
    let g := fld h 63 40
    ((s.uncache (handleIx h)).setObj k).modVault fun v => { v with recGen := v.recGen.set (handleIx h) (max g (v.recGen.get 0 (handleIx h))) }
  | .noObject _ h => s.destroy h
  | .session _ n w =>
    let x : Sess := { gen := (w.getD 0 0).toNat, creel := cr, families := (w.getD 1 0).toNat, expiry := w.getD 2 0, maxCmd := (w.getD 3 0).toNat,
                      maxFail := (w.getD 4 0).toNat, cmds := (w.getD 5 0).toNat, fails := (w.getD 6 0).toNat, closed := (w.getD 7 0).toNat,
                      slots := (List.range 16).map fun i => (i, w.getD (8 + i) 0) }
    s.setSession n x
  | .chain _ seq head => s.modBbkm fun b => { b with chains := b.chains.set cr { b.chains.get chainReset cr with seq := seq, head := head.take 48 } }
  | _ => s
def isMarker : PairMsg → Bool | .marker _ _ => true | _ => false
/-- COMMIT_APPLY: the next whole commit of a creel is applied and acknowledged; not during the pause of an update (18/R540). -/
def execCommitApply (cr : CreelId) (s : State) : Out :=
  let l := s.pair.inbox.get [] cr
  if (s.role cr ≠ 2 ∧ s.role cr ≠ 5) ∨ s.paused then .next s
  else match l.dropWhile fun m => !isMarker m with
    | .marker _ id :: rest =>
      let s := (l.takeWhile fun m => !isMarker m).foldl (fun s m => s.applyMsg cr m) s
      let s := s.modPair fun p => { p with inbox := p.inbox.set cr rest }
      .next (s.sendFrame 2 (.ack id))
    | _ => .next s
/-- MIRRORED is reached once no creel is being copied; the holder of the fence drives PFENCE_OUT low (R460). -/
def State.mirroredIfDone (s : State) : State :=
  if s.pair.st = 3 ∧ s.pair.copies.isEmpty ∧ (List.range 64).all fun c => s.role c ≠ 5 then
    s.modPair fun p => { p with st := 4, fenceOut := false, holds := false }
  else s
/-- A command that the partner's Stake forwards enters a free slot of port 67; none: the frame is not taken. -/
def State.deliverMail (s : State) (ws : List W64) : Option State :=
  match (List.range 16).find? fun k => !(s.port 67).owner.testBit k with
  | none => none
  | some k =>
    let s := (ws.take 24).zipIdx.foldl (fun s (w : W64 × Nat) => s.mbxSlotWrite 67 (24 * k + w.2) w.1) s
    some (s.mbxDoorbell 67 (w64 (2 ^ k)))
/-- A message between the Stakes: a released creel's generation counts up on both devices (R443); any other is a command of
slot 67. -/
def State.stakeMail (s : State) (ws : List W64) : Option State :=
  let cr := fld (ws.getD 1 0) 6 0
  if fld (ws.getD 0 0) 63 48 = 0x0203 then some (s.modBbkm fun b => { b with gens := b.gens.set cr (b.gens.get 0 cr + 1) })
  else s.deliverMail ws
/-- What a receiver needs of a creel. -/
def State.copyOf (s : State) (cr : Nat) : Copy :=
  { lines := (s.pair.marks.get [] cr).flatMap fun g => upto (32768 * g) 32768,
    handles := (s.vault.objs.filter fun p => attrCreel p.2.w0 = cr ∧ attrMirror p.2.w0).map fun p => p.2.handle,
    sess := (s.vault.sess.filter fun p => p.2.creel = cr).map (·.1) }
/-- The partner's Hoop time: the offset of the PAIR source (14/R429). -/
def State.partnerTime (s : State) (sec : W64) (frac : W32) : State :=
  s.hoopOffset 3 (((sec.toNat * 2 ^ 32 + frac.toNat : Nat) : Int) - (s.now : Int))
/-- A move that the partner begins, or that it has ended (R462). -/
def State.moveMsg (s : State) (cr : Nat) (final : Bool) : State :=
  if s.role cr ≠ 1 ∧ s.role cr ≠ 2 then s
  else if !final then (s.moveBegin cr).moveTry cr
  else if s.role cr = 2 then s.moveFlip cr true else s
/-- A frame is delivered in the order of its class. -/
def State.deliverFrame (s : State) (cls : Nat) (m : PairMsg) : Option State :=
  let queue := fun (cr : Nat) =>
    if s.role cr ≠ 2 ∧ s.role cr ≠ 5 then s
    else if cls = 6 then s.applyMsg cr m
    else s.modPair fun p => { p with inbox := p.inbox.set cr (p.inbox.get [] cr ++ [m]) }
  match m with
  | .line cr _ _ _ => some (queue cr)
  | .object cr _ _ _ => some (queue cr)
  | .noObject cr _ => some (queue cr)
  | .session cr _ _ => some (queue cr)
  | .chain cr _ _ => some (queue cr)
  | .marker cr _ => some (queue cr)
  | .ack id => some (s.ackCommit id)
  | .mailbox ws => s.stakeMail ws
  | .beat _ => some s
  | .time sec frac => some (if s.hoopQual 3 then (s.partnerTime sec frac).hoopEval else s)
  | .move cr final => some (s.moveMsg cr final)
  | .copyAgain cr => some (if s.pair.st = 3 ∧ s.role cr = 1 then s.modPair fun p => { p with copies := p.copies.set cr (s.copyOf cr) } else s)
  | .copyEnd cr => some (if s.role cr = 5 then (s.setRole cr 2).mirroredIfDone else s)
/-- LINK_FRAME: a frame that fails its tag is dropped; three such within 1 ms take the link down (R441). A repeat is
dropped, and one out of sequence waits to be sent again. -/
def execLinkFrame (cls : Fin 7) (seq : Nat) (tagOk : Bool) (msg : PairMsg) (s : State) : Out :=
  if !s.linkUp ∨ s.pair.st = 0 then .next s
  else if !tagOk then
    let l := (s.clock :: s.pair.tagFails).filter fun t => s.clock < t + tenths 10000
    let s := (s.modPair fun p => { p with tagFails := l }).note 9 0 0x441
    .next (if 3 ≤ l.length then (s.modPair fun p => { p with tagDown := true, tagFails := [] }).linkFalls else s)
  else if seq ≠ s.pair.rx.get 0 cls then .next s
  else match s.deliverFrame cls msg with
    | some s => .next (s.modPair fun p => { p with rx := p.rx.set cls (seq + 1) })
    | none => .next s

/-! ## Heartbeats and loss (R454, R461) -/

/-- HEARTBEAT_SEND: every 500 ns while the link is up; the partner's time goes with it in the Hoop class (log entry 146). -/
def execHeartbeatSend (s : State) : Out :=
  if !s.linkUp ∨ s.pair.st = 0 ∨ s.stake.debug ∨ s.clock < s.pair.hbSent + tenths 5 then .next s
  else
    let p := s.pair
    let ws := [p.hbSeq, s.hoop.sec, s.hoop.frac, s.hoop.st, s.hoop.src, p.st, b2n p.holds, s.bbkm.epoch, b2n p.advised]
    let s := s.modPair fun p => { p with hbSeq := p.hbSeq + 1, hbSent := s.clock }
    .next (((s.emit 8 ws).sendFrame 1 (.beat ws)).sendFrame 4 (.time (w64 s.hoop.sec) (BitVec.ofNat 32 s.hoop.frac)))
/-- A heartbeat, in its sequence (R439): the partner's state, its fence, the larger epoch, its recommendation; its time feeds the
PAIR source. -/
def execHeartbeat (seq : Nat) (sec : W64) (frac : W32) (hst src : BitVec 2) (pst : BitVec 3) (fence : Bool) (epoch : W64)
    (advised : Bool) (s : State) : Out :=
  if !s.linkUp ∨ s.pair.st = 0 ∨ seq ≠ s.pair.rx.get 0 1 then .next s
  else
    let s := s.modPair fun p => { p with rx := p.rx.set 1 (seq + 1), hbAt := s.clock, pst := pst.toNat, pfence := fence, padvised := advised }
    let s := s.modBbkm fun b => { b with epoch := max b.epoch epoch.toNat }
    if hst = 1 ∧ (src = 1 ∨ src = 2) then
      let s := s.partnerTime sec frac
      .next (if s.hoopQual 3 then s.hoopEval else s.hoopQualify 3)
    else if s.hoopQual 3 then .next (s.hoopLose 3)
    else .next s

/-- Every commit in progress completes without the partner (R450); where tag failures took the link down, security outranked
durability (R466). -/
def State.releaseAllCommits (s : State) : State :=
  let tag := s.pair.tagDown
  (s.pair.commits.foldl (fun s c => let s := s.releaseUnmirrored c; if tag then s.breach c.creel 3 else s) s).modPair fun p => { p with tagDown := false }
/-- A creel is FENCED and its cores stop as in CREEL_STOP (R445). -/
def State.fenceCreel (s : State) (c : Nat) : State :=
  let s := s.setRole c 4
  if (s.creel c).st = .running then s.creelReset c 1 else s
/-- SOLO: STANDBY creels drop incomplete commits and become SOLO, PRIMARY ones too; RECEIVING ones cannot be taken over
(R458, R461). -/
def State.goSolo (s : State) : State :=
  let s := (s.modPair fun p => { p with inbox := [], copies := [], st := 5, lost := none, wit := none, claimAt := none }).movesEnd
  let s := (List.range 64).foldl (fun s c =>
    match s.role c with
    | 1 => s.setRole c 3
    | 2 => s.setRole c 3
    | 5 => (s.fenceCreel c).note 9 c 0x461
    | _ => s) s
  s.releaseAllCommits.auditEvent
/-- PARTNER_LOSS: 4.0 µs without a heartbeat, or the link down. A device that still holds the fence stays SOLO. -/
def execPartnerLoss (s : State) : Out :=
  if s.pair.st < 2 ∨ s.pair.st = 5 ∨ s.pair.st = 6 ∨ s.pair.lost.isSome ∨ (s.linkUp ∧ s.clock < s.pair.hbAt + tenths 40) then .next s
  else
    let s := if s.hoopQual 3 then s.hoopLose 3 else s
    let s := (s.modPair fun p => { p with unacked := p.unacked.filter fun f => f.cls ≠ 5 }).partnerDone
    if s.pair.holds then .next s.goSolo
    else .next (s.modPair fun p => { p with lost := some s.clock, st := 1 })

/-! ## The fence (R455-R458) -/

/-- R457: paired creels are FENCED and stop; commits not acknowledged are abandoned with their completions. -/
def State.selfFence (s : State) : State :=
  let l := (List.range 64).filter fun c => s.role c ≠ 0
  let dead := s.pair.commits.filter fun c => l.contains c.creel
  let s := s.modVault fun v => { v with active := v.active.filter fun h => !(dead.any fun c => c.who == .hamper h.id) }
  let s := s.modPair fun p => { p with commits := p.commits.filter (fun c => !l.contains c.creel), st := 6, fenceOut := false, holds := false,
                                       claimAt := none, wit := none, lost := none, inbox := [], copies := [] }
  l.foldl State.fenceCreel s.movesEnd
/-- FENCE_CLAIM: PFENCE_OUT goes high, index 1 5 µs later; a device that finds PFENCE_IN high does not claim, and fences itself
(R455, R457). -/
def execFenceClaim (s : State) : Out :=
  match s.pair.lost with
  | none => .next s
  | some t =>
    if s.pair.fenceIn ∧ s.pair.claimAt.isNone ∧ !s.pair.holds then .next s.selfFence
    else if s.clock < t + tenths (50 * s.pair.index) ∨ s.pair.fenceOut ∨ s.pair.fenceIn then .next s
    else .next (s.modPair fun p => { p with fenceOut := true, claimAt := some s.clock })
/-- 1 µs after the claim: if both lines are high, index 1 gives way and then reads PFENCE_IN high without the fence. -/
def execFenceCheck (s : State) : Out :=
  match s.pair.claimAt with
  | none => .next s
  | some t =>
    if s.clock < t + tenths 10 then .next s
    else if !s.pair.fenceIn then .next (s.modPair fun p => { p with holds := true, claimAt := none })
    else if s.pair.index = 1 then .next (s.modPair fun p => { p with fenceOut := false, claimAt := none }).selfFence
    else .next s
/-- PFENCE_IN high while the device does not hold the fence, and is not itself claiming it, fences the device. -/
def execPfenceIn (level : Bool) (s : State) : Out :=
  let s := s.modPair fun p => { p with fenceIn := level, holds := p.holds && !level }
  if level ∧ s.pair.st ≠ 0 ∧ s.pair.st ≠ 6 ∧ s.pair.claimAt.isNone ∧ s.power = 2 then .next s.selfFence else .next s

/-! ## The witness (R456, R465) -/

/-- The part serial numbers in pair-index order. -/
def State.serials (s : State) : Bytes :=
  let me := (Config.serial ++ zeros 16).take 16
  let it := (s.pair.partner ++ zeros 16).take 16
  if s.pair.index = 0 then me ++ it else it ++ me
def claimBytes (s : State) (w : WitnessRun) : Bytes :=
  let b := toBe 4 1 ++ zeros 4 ++ sha256 s.serials ++ toBe 8 w.epoch ++ (Config.serial ++ zeros 16).take 16 ++ toBe 8 w.sec ++ toBe 4 w.frac ++
    toBe 4 w.st ++ zeros 16
  b ++ hmac 2 s.bbkm.witnessKey b
/-- The claim goes from UDP port 5209 to the configured address and port (R465). -/
def State.sendClaim (s : State) (w : WitnessRun) : State :=
  let c := s.stake.witness
  s.emit 10 ([5209, c.addr.1.toNat, c.addr.2.toNat, c.port] ++ (claimBytes s w).map (·.toNat))
/-- A claim at once, and again after each quarter of the timeout until it has passed. -/
def execWitnessClaim (s : State) : Out :=
  if !s.pair.holds ∨ !s.stake.witness.enable ∨ s.pair.lost.isNone then .next s
  else match s.pair.wit with
    | none =>
      let w : WitnessRun := { at_ := s.clock, sec := s.hoop.sec, frac := s.hoop.frac, st := s.hoop.st, epoch := s.bbkm.epoch + 1, sent := s.clock, granted := false }
      .next ((s.modPair fun p => { p with wit := some w }).sendClaim w)
    | some w =>
      let t := tenths (10 * s.stake.witness.timeout)
      if w.granted ∨ s.clock < w.sent + t / 4 ∨ w.at_ + t ≤ s.clock then .next s
      else .next ((s.modPair fun p => { p with wit := some { w with sent := s.clock } }).sendClaim w)
/-- An answer that verifies for this claim grants it, or leads to the self-fence. -/
def execWitnessGrant (m : Bytes) (s : State) : Out :=
  match s.pair.wit with
  | none => .next s
  | some w =>
    let c := claimBytes s w
    let part := fun (i n : Nat) => (m.drop i).take n
    let ok := m.length = 144 ∧ m.drop 96 = hmac 2 s.bbkm.witnessKey (m.take 96) ∧ beNat (m.take 4) = 2 ∧
      part 8 40 = (c.drop 8).take 40 ∧ part 64 16 = (c.drop 64).take 16
    if ¬ ok ∨ w.granted then .next s
    else if beNat (part 4 4) = 1 ∧ part 48 16 = (c.drop 48).take 16 then
      .next ((s.modPair fun p => { p with wit := some { w with granted := true } }).modBbkm fun b => { b with epoch := max b.epoch w.epoch })
    else .next s.selfFence
def execWitnessTimeout (s : State) : Out :=
  match s.pair.wit with
  | none => .next s
  | some w => if w.granted ∨ s.clock < w.at_ + tenths (10 * s.stake.witness.timeout) then .next s else .next s.selfFence
/-- TAKEOVER: the fence is held, the guard time has passed, a configured witness has granted, no update pause runs. -/
def execTakeover (s : State) : Out :=
  match s.pair.lost with
  | none => .next s
  | some t =>
    let granted : Bool := match s.pair.wit with | some w => w.granted | none => false
    if !s.pair.holds ∨ s.clock < t + tenths (170 + 50 * s.pair.index) ∨ (s.stake.witness.enable && !granted) ∨ s.paused then .next s
    else .next s.goSolo

/-! ## Start and resynchronisation (R459, R460) -/

/-- LINK_DOWN_TIMEOUT: no link within 2 s of the start; the device claims the fence. -/
def execLinkDownTimeout (s : State) : Out :=
  if s.pair.st = 1 ∧ !s.linkUp ∧ s.pair.lost.isNone ∧ s.pair.startAt + secs 2 ≤ s.clock then .next (s.modPair fun p => { p with lost := some s.clock })
  else .next s
/-- LINK_BRING_UP: new keys are derived, and the devices enter JOINING. -/
def execLinkBringUp (bundles : BitVec 8) (s : State) : Out :=
  if s.pair.st = 0 ∨ popCount8 bundles.toNat < 4 ∨ s.linkUp ∨ s.power ≠ 2 ∨ s.stake.debug then .next s
  else .next (s.modPair fun p =>
    { p with up := bundles.toNat, st := 2, keys := p.keys + 1, keyAt := s.now, sent := 0, tx := [], rx := [], unacked := [], tagFails := [], tagDown := false,
             hbAt := s.clock, lost := none })
/-- The device holds a creel's state (source) or receives it. -/
def State.joinCreel (s : State) (cr : Nat) (source : Bool) : State :=
  if source then (s.setRole cr 1).modPair fun p => { p with copies := p.copies.set cr (s.copyOf cr) } else s.setRole cr 5
/-- JOINING_END: the source is the device that holds the fence, failing that the home of the creel; the other device takes the
value of PAIR_CREEL_CFG that the source holds (`cfgs`: the partner's, by creel). -/
def execJoiningEnd (cfgs : List W64) (s : State) : Out :=
  if s.pair.st ≠ 2 ∨ !s.linkUp then .next s
  else
    let source := fun (c : Nat) => if s.pair.holds then true else if s.pair.pfence then false else homeIx (s.pairCfg c) == s.pair.index
    let join := fun (s : State) (c : Nat) =>
      let v := if source c then s.pairCfg c else cfgs.getD c (s.pairCfg c)
      let s := s.modPair fun p => { p with cfg := p.cfg.set c v }
      if paired v then s.joinCreel c (source c) else s.setRole c 0
    .next (((List.range 64).foldl join s).modPair fun p => { p with st := 3 }).mirroredIfDone
/-- RESYNC_LINE_COPY: the next line, object or session of a creel goes out in the resync class. -/
def execResyncLineCopy (cr : CreelId) (s : State) : Out :=
  if s.pair.st ≠ 3 ∨ !s.pair.copies.has cr ∨ !s.linkUp then .next s
  else
    let k := s.pair.copies.get copyReset cr
    let put := fun (k : Copy) (s : State) => s.modPair fun p => { p with copies := p.copies.set cr k }
    match k.lines, k.handles, k.sess with
    | l :: r, _, _ =>
      .next ((put { k with lines := r } s).sendFrame 6 (.line cr (BitVec.ofNat 46 l) (s.rdBytes (64 * l) 64) (s.poisoned l)))
    | [], h :: r, _ => .next ((s.objMsgs cr [h]).foldl (fun s m => s.sendFrame 6 m) (put { k with handles := r } s))
    | [], [], n :: r => .next ((put { k with sess := r } s).sendFrame 6 (s.sessMsg n))
    | [], [], [] => .next s
/-- RESYNC_COPY_END: nothing is left; the chain head and the end of the copy are sent, and the receiver becomes STANDBY. -/
def execResyncCopyEnd (cr : CreelId) (s : State) : Out :=
  let k := s.pair.copies.get copyReset cr
  if s.pair.st ≠ 3 ∨ !s.pair.copies.has cr ∨ k.lines ≠ [] ∨ k.handles ≠ [] ∨ k.sess ≠ [] then .next s
  else
    let s := (s.sendFrame 6 (s.chainMsg cr)).sendFrame 6 (.copyEnd cr)
    .next (s.modPair fun p => { p with copies := p.copies.erase cr }).mirroredIfDone

/-! ## Commands (R443, R464) -/

/-- The words 2 and 3 of PAIR_BEGIN name the partner's serial number. Boot images encrypted under a storage root that is
replaced can no longer be read (21/R571). -/
def execPairBegin (p : Slot) (k : Fin 16) (serial : Bytes) (verified : Bool) (shared storage : BitVec 256) (gens : List Nat) (s : State) : Out :=
  stakeRow p k 0x0601 (fun s c =>
    if s.pair.st ≠ 0 then s.done c 0x0303 s.pair.st
    else if !verified ∨ serial ≠ toLe 8 (c.n 2) ++ toLe 8 (c.n 3) then s.done c 0x0601
    else
      let lower := decide (leNat Config.serial < leNat serial)
      let s := s.modPair fun q =>
        { q with st := 2, index := if lower then 0 else 1, partner := serial, up := 0xFF, keys := q.keys + 1, keyAt := s.now, sent := 0, tx := [], rx := [],
                 unacked := [], hbAt := s.clock, lost := none, startAt := s.clock }
      let s := if lower then s else s.modStake fun m => { m with bootImgs := [] }
      let s := s.modBbkm fun b =>
        { b with pairSecret := kdf (toBe 32 shared.toNat) (ascii "PAIR") s.serials 32,
                 storageRoot := if lower then b.storageRoot else toBe 32 storage.toNat,
                 gens := if lower then b.gens else (gens.take 64).zipIdx.map fun (g : Nat × Nat) => (g.2, g.1) }
      s.done c 0) s
def execPairStatus (p : Slot) (k : Fin 16) (s : State) : Out :=
  stakeRow p k 0x0602 (fun s c =>
    let q := s.pair
    let w2 := q.st % 16 + q.index % 2 * 16 + b2n q.advised * 32 + b2n q.padvised * 64 + q.up % 256 * 256
    let roles := (List.range 4).map fun i => w64 ((List.range 16).foldl (fun a n => a + s.role (16 * i + n) % 16 * 16 ^ n) 0)
    s.done c 0 0 ([w64 w2, w64 s.bbkm.epoch] ++ roles)) s
/-- The forwarded command: the header of R279 with the length of its payload. -/
def mailOf (c : Cmd) (n : Nat) : PairMsg :=
  .mailbox ([w64 (c.op * 2 ^ 48 + 8 * n * 2 ^ 32 + c.tag % 2 ^ 32), w64 (0x10000 + c.creel % 128)] ++ c.words.take n)
/-- Both devices carry the command out: in MIRRORED and RESYNC, and it has not come from the partner. -/
def State.withPartner (s : State) (c : Cmd) : Bool := (s.pair.st == 3 || s.pair.st == 4) && c.port != 67
/-- In MIRRORED or RESYNC the value goes to the partner as well, and the command completes when both hold it. -/
def State.forBoth (s : State) (c : Cmd) (n : Nat) : State :=
  if s.withPartner c then (s.sendFrame 5 (mailOf c n)).waitFor c .pairing else s.done c 0
def execPairPolicy (p : Slot) (k : Fin 16) (s : State) : Out :=
  stakeRow p k 0x0603 (fun s c =>
    let old := s.pairCfg c.creel
    let v := c.w 3
    if (s.creel c.creel).st = .running ∧ fld old 1 0 ≠ fld v 1 0 then s.done c 0x0105
    else
      let s := s.modPair fun q => { q with cfg := q.cfg.set c.creel v }
      let s := if paired old ∧ !paired v then s.setRole c.creel 0
        else if !paired old ∧ paired v ∧ (s.pair.st = 3 ∨ s.pair.st = 4) then
          (s.joinCreel c.creel (homeIx v == s.pair.index)).modPair fun q => { q with st := 3 }
        else s
      s.forBoth c 2) s
/-- PAIR_REGION. `partnerOk`: the granules lie in the creel's grant on the partner as well, which a command that both devices
carry out must meet; more than 65,536 granules of one creel are refused (R447; log entry 147). -/
def execPairRegion (p : Slot) (k : Fin 16) (partnerOk : Bool) (s : State) : Out :=
  stakeRow p k 0x0604 (fun s c =>
    let lo := c.n 3
    if !s.inGrant c.creel lo (lo + c.n 4 * 0x200000) ∨ (!partnerOk ∧ s.withPartner c) then s.done c 0x0103
    else
      let gs := upto (lo / 0x200000) (c.n 4)
      let old := s.pair.marks.get [] c.creel
      let new := if tbit (c.w 2) 0 then old ++ gs.filter (fun g => !old.contains g) else old.filter fun g => !gs.contains g
      if 65536 < new.length then s.done c 0x0204 else
      (s.modPair fun q => { q with marks := q.marks.set c.creel new }).forBoth c 3) s
/-- PAIR_ROLE: the creel is MIGRATING on both devices until the old primary has completed every command it has taken. -/
def execPairRole (p : Slot) (k : Fin 16) (s : State) : Out :=
  stakeRow p k 0x0605 (fun s c =>
    if s.pair.st ≠ 4 ∨ (s.role c.creel ≠ 1 ∧ s.role c.creel ≠ 2) then s.done c 0x0303 s.pair.st
    else (((s.moveBegin c.creel).sendFrame 2 (.move (Fin.ofNat 64 c.creel) false)).waitFor c .moving).moveTry c.creel) s
def xorBytes32 (a b : Bytes) : Bytes := ((a ++ zeros 32).take 32).zipWith (· ^^^ ·) ((b ++ zeros 32).take 32)
/-- The witness key is the exclusive OR of the component set; a set that is not held is not permitted. -/
def execPairWitness (p : Slot) (k : Fin 16) (s : State) : Out :=
  stakeRow p k 0x0606 (fun s c =>
    let set := s.stake.comps.filter fun x => x.set = fld (c.w 5) 15 0
    let en := tbit (c.w 5) 16
    if en ∧ set = [] then s.done c 0x0105
    else
      let key := set.foldl (fun a x => xorBytes32 a x.key) (zeros 32)
      let s := if en then s.modBbkm fun b => { b with witnessKey := key } else s
      (s.modStake fun m => { m with witness := { addr := (c.w 2, c.w 3), port := fld (c.w 4) 15 0, timeout := fld (c.w 4) 47 16, enable := en } }).done c 0) s
def execPairDissolve (p : Slot) (k : Fin 16) (s : State) : Out :=
  stakeRow p k 0x0607 (fun s c =>
    let s := s.releaseAllCommits.movesEnd
    let s := (List.range 64).foldl (fun s n => s.setRole n 0) s
    let s := s.modBbkm fun b => { b with pairSecret := zeros 32, witnessKey := zeros 32, epoch := 0 }
    let s := s.modPair fun q => { pairReset with fenceIn := q.fenceIn, cfg := q.cfg, stat := q.stat, marks := q.marks, nextId := q.nextId }
    let s := s.partnerDone
    (if s.hoopQual 3 then s.hoopLose 3 else s).done c 0) s

end Sys2Proof.Machine
end

