-- ==== Sys2Proof/Machine/Plaiter.lean ====
section
/-!
DEFINITION. The Plaiter's units and queues (13): taking jobs, loading images, extraction, the doors as rows of their own,
completions.
-/
namespace Sys2Proof.Machine

/-! ## Queues (R381) -/

/-- PQ_DOORBELL, PQ_CTRL, PQ_CQ_CONS written by the creel that holds the queue (R381). -/
def execPqDoorbell (n : Fin 256) (v : W64) (s : State) : Out := .next (s.pqDoorbell n v)
def execPqCtrl (n : Fin 256) (v : W64) (s : State) : Out := .next (s.pqCtrl n v)
def execPqCqCons (n : Fin 256) (v : W64) (s : State) : Out := .next (s.pqCqCons n v)

/-! ## Completions (R384, R385) -/

/-- The words of a completion entry. -/
def State.jobEntryWords (s : State) (u k : Nat) (j : Job) (e : JobEnd) : List W64 :=
  let w0 := fld (j.words.getD 0 0) 31 0 * 2 ^ 32 + e.status % 65536 * 2 ^ 16 + j.index % 65536
  let ok := e.status = 0
  let ran := j.phase = .run
  [w64 w0, w64 s.hoop.sec, w64 (s.hoop.st * 2 ^ 32 + s.hoop.frac),
   w64 (if ok then e.outLen % 2 ^ 32 * 2 ^ 32 + e.result % 2 ^ 32 else 0),
   w64 (e.fault % 65536 * 2 ^ 48 + (if ok then 0 else e.pc % 65536) * 2 ^ 32 + j.calls % 65536 * 2 ^ 16 + j.seals.length % 65536),
   if ok then 0 else e.detail,
   if ran then (s.seq (plaiterSeq u k)).beats - j.beats0 else 0,
   w64 (u * 256 + k)]
/-- A job's completion is written, counted and its event raised. -/
def State.jobComplete (s : State) (u k : Nat) (j : Job) (e : JobEnd) : State :=
  let cr := s.unitCr u
  let ws := s.jobEntryWords u k j e
  let s := (s.ucAdd cr 0x48 1).ucAdd cr 0x50 (ws.getD 6 0).toNat
  if 256 ≤ j.queue then s.creelError cr 2 7 0x42 0 u 0 else
  let s := s.pqWith j.queue fun cr r =>
    let (s, r) := s.ringComplete cr pqKind u r (entryBytes ws)
    (s, r.settle (s.pqInFlight j.queue))
  let r := (s.pq j.queue).ring
  if tbit (j.words.getD 0 0) 33 ∧ tbit r.ctl 2 then s.unitEvent r.event cr 7 u else s

/-! ## Taking a job (R383, R388) -/

def jw (j : Job) (i : Nat) : W64 := j.words.getD i 0
def Job.prog (j : Job) : Nat := fld (jw j 0) 63 56
def Job.isLoad (j : Job) : Bool := j.prog == 0xFF
def Job.msgLen (j : Job) : Nat := fld (jw j 2) 63 32
def Job.outCap (j : Job) : Nat := fld (jw j 2) 31 0
def Job.ingests (j : Job) : Bool := jw j 5 != 0
/-- The message lengths of an entry's format (R383, R386, R395). -/
def Job.lengthOk (j : Job) (e : W64) : Bool :=
  let n := j.msgLen
  if j.ingests then decide (29 ≤ n) && decide (n ≤ 65564)
  else if fld e 55 48 = 3 ∨ fld e 55 48 = 4 then decide (1 ≤ n) && decide (n ≤ 0x1000000)
  else decide (1 ≤ n) && decide (n ≤ 65536)
def Job.loadLenOk (j : Job) : Bool := decide (0xA0 + 4 + 32 ≤ j.msgLen) && decide (j.msgLen ≤ 0xA0 + 65536 + 32768 + 65536 + 32)
/-- The checks of a job, in order: format, entry, lengths, ranges; 0: it passes. -/
def State.jobCheck (s : State) (u : Nat) (j : Job) : Nat :=
  let cr := s.unitCr u
  if fld (jw j 0) 55 35 ≠ 0 ∨ tbit (jw j 0) 32 ∨ jw j 6 ≠ 0 ∨ (j.isLoad ∧ (jw j 3 ≠ 0 ∨ j.outCap ≠ 0)) then 0x0203
  else
    let ent := (s.unit u).img.bind fun i => i.entries[j.prog]?
    let e := ent.getD 0
    if !j.isLoad ∧ (s.unit u).img.isNone then 0x0301
    else if !j.isLoad ∧ !tbit e 63 then 0x0201
    else if (if j.isLoad then !j.loadLenOk else !j.lengthOk e) then 0x0202
    else if !s.dmaOk cr (jw j 1).toNat j.msgLen false ∨ (j.outCap ≠ 0 ∧ !s.dmaOk cr (jw j 3).toNat j.outCap true) then 0x0109
    else 0
def State.idleSeq (s : State) (u : Nat) : Option Nat := (List.range 4).find? fun k => !s.hasJob u k
/-- May a queue give its unit a job now? -/
def State.pqReady (s : State) (u q : Nat) : Bool :=
  let r := (s.pq q).ring
  s.pqHolder.has q && s.pqHolder.get 64 q == s.unitCr u && (s.pq q).unit == u && r.ready (s.pqInFlight q) &&
    (match s.ringRead (s.unitCr u) pqKind r with
      | .inr ws => !(tbit (ws.getD 0 0) 34 && decide (0 < s.pqInFlight q))
      | .inl _ => true)
/-- A unit takes a job from the next queue in turn, onto its lowest idle sequencer. -/
def execJobTake (u : Fin 16) (s : State) : Out :=
  let x := s.unit u
  let cr := s.unitCr u
  if !s.unitCreel.has u ∨ (s.creel cr).st ≠ .running ∨ !s.runsRole cr ∨ x.leaving ∨ x.load.isSome ∨ s.paused then .next s else
  match s.idleSeq u, ((upto (x.turn + 1) 256).map (· % 256)).find? (s.pqReady u) with
  | some k, some q =>
    match s.ringRead cr pqKind (s.pq q).ring with
    | .inl code => .next (s.pqWith q fun cr r => s.ringFault cr pqKind u r code)
    | .inr ws =>
      let r := (s.pq q).ring
      let j : Job := { jobReset with queue := q, index := r.taken, words := ws, sec := s.hoop.sec, frac := s.hoop.frac, st := s.hoop.st }
      let st := s.jobCheck u j
      let j := if st = 0 then j else { j with ending := some (jobFailed st 0), phase := .ready }
      let s := (s.pqWith q fun _ r => (s, r.take)).modUnit u fun x => { x with turn := q }
      if j.isLoad then .next (s.modUnit u fun x => { x with load := some { j with phase := .load } })
      else .next (s.setJob u k j)
  | _, _ => .next s

/-- An image load, once every program of the unit has ended (R388). -/
def execImageLoad (u : Fin 16) (s : State) : Out :=
  match (s.unit u).load with
  | none => .next s
  | some j =>
    if (s.unit u).jobs ≠ [] then .next s
    else
      let m := (jw j 1).toNat
      let done := fun (s : State) (e : JobEnd) =>
        let s := s.modUnit u fun x => { x with load := none }
        Host.Outcome.next (s.jobComplete u 0 j e)
      match j.ending with
      | some e => done s e
      | none =>
        let b := s.rdBytes m j.msgLen
        if s.poisonedRange m j.msgLen then done (s.readFailed (s.unitCr u) m j.msgLen) (jobFailed 0x0603 0)
        else match imageFault b with
          | some o => done s (jobFailed 0x0204 o)
          | none =>
            if sha256 (b.take (b.length - 32)) ≠ b.drop (b.length - 32) then done s (jobFailed 0x0602 (b.length - 32))
            else
              let i := imageOf b
              let s := s.modUnit u fun x =>
                { x with img := some i, data := (List.range 4).foldl (fun d k => d.set k (dataWrite (d.get [] k) 0 i.data)) x.data }
              done s { jobFailed 0 0 with status := 0 }

/-! ## Ingest and extraction (R383, R392) -/

/-- The ingest DMA has the message decrypted by SYM_GCM through the vault port; that is a vault call of the job. -/
def execIngestDecryption (u : Fin 16) (k : Fin 4) (s : State) : Out :=
  let j := s.job u k
  if !s.hasJob u k ∨ j.phase ≠ .taken ∨ !j.ingests ∨ j.ending.isSome then .next s
  else
    let m := (jw j 1).toNat
    if s.poisonedRange m 12 then .next ((s.readFailed (s.unitCr u) m 12).modJob u k fun j => { j with ending := some (jobFailed 0x0603 0), phase := .ready })
    else
      let iv := s.rdBytes m 12
      let ws : List W64 := [w64 (0x0304 * 2 ^ 48), w64 (2 ^ 24), jw j 5, 0, w64 (m + 12), w64 ((j.msgLen - 12) * 2 ^ 32 + 65536),
        w64 (localBase + 0x20000), 0, 0, w64 (16 * 256 + 1), w64 (leNat (iv.take 8)), w64 (leNat (iv.drop 8))]
      let id := s.vault.nextId
      let s := s.hTake (.plaiter u k 64) (s.unitCr u) j.calls s.clock ws
      .next (s.modJob u k fun j => { j with calls := j.calls + 1, phase := .ingest id })
/-- What a program finds at its start (R405). -/
def startCtx (j : Job) (e : W64) (len entries : Nat) : Ctx :=
  { g := [(1, w64 len), (2, jw j 4), (3, jw j 7), (4, jw j 3), (5, w64 j.outCap), (6, w64 entries), (7, w64 (j.index % 2 ^ 32))],
    p := [], pc := w64 (fld e 15 0) }
def State.startProgram (s : State) (u k : Nat) (e : W64) : State :=
  let j := s.job u k
  let sealed := fld e 55 48 ≠ 0 ∧ (s.jobMap u e).seals
  let mode := w64 (b2n sealed + b2n (tbit (s.pq j.queue).ring.ctl 3) * 4)
  let i := plaiterSeq u k
  let z := s.seq i
  let s := s.setSeq i { z with
    x := startCtx j e j.msg.length j.entries, run := true, dfpc := 0, mode := mode, modeWritten := mode, modeQ := [], busy := [],
    poisoned := [], ops := [], loop := .empty, leftLoop := false, ended := none }
  s.modJob u k fun j => { j with phase := .run, since := s.now, beats0 := z.beats, sealed := sealed }
/-- The extractor parses and seals the message, then the program starts; a failure ends the job before it. -/
def execFieldExtraction (u : Fin 16) (k : Fin 4) (s : State) : Out :=
  let j := s.job u k
  if !s.hasJob u k ∨ j.ending.isSome ∨ !(j.phase = .ready ∨ (j.phase = .taken ∧ !j.ingests)) then .next s
  else
    let m := (jw j 1).toNat
    if !j.ingests ∧ s.poisonedRange m j.msgLen then .next ((s.readFailed (s.unitCr u) m j.msgLen).modJob u k fun j => { j with ending := some (jobFailed 0x0603 0) })
    else
      let s := if j.ingests then s else s.modJob u k fun x => { x with msg := s.rdBytes m j.msgLen }
      match s.jobEntry u k with
      | none => .next (s.modJob u k fun j => { j with ending := some (jobFailed 0x0201 0) })
      | some e =>
        match s.extract u k e with
        | .inl (s, je) => .next (s.modJob u k fun j => { j with ending := some je })
        | .inr s => .next (s.startProgram u k e)

/-! ## The doors as rows (R407-R413): an LDD of the door address -/

def doorRow (u k : Nat) (q : PReg) (dst : Reg) (addr : Nat) (s : State) : Out :=
  let a : Agent := .seq (.plaiter (Fin.ofNat 18 u) (Fin.ofNat 4 k))
  runInstr { agent := a, guard := q, writes := [dst.toNat], beats := 4 }
    (fun s _ => s.loadBy a (w64 addr) (.reg dst.toNat 8 false) 0 false) s
def execCallDoor (u : Fin 16) (k : Fin 4) (q : PReg) (dst : Reg) (p : BitVec 16) (s : State) : Out := doorRow u k q dst (0x80000 + p.toNat) s
def execConvert (u : Fin 16) (k : Fin 4) (q : PReg) (dst : Reg) (p : BitVec 16) (s : State) : Out := doorRow u k q dst (0x90000 + p.toNat) s
def execDecimal (u : Fin 16) (k : Fin 4) (q : PReg) (dst : Reg) (p : BitVec 16) (s : State) : Out := doorRow u k q dst (0xA0000 + p.toNat) s
def execEmit (u : Fin 16) (k : Fin 4) (q : PReg) (dst : Reg) (p : BitVec 16) (s : State) : Out := doorRow u k q dst (0xB0000 + p.toNat) s
def execNext (u : Fin 16) (k : Fin 4) (q : PReg) (dst : Reg) (s : State) : Out := doorRow u k q dst 0xC0000 s
def execCanon (u : Fin 16) (k : Fin 4) (q : PReg) (dst : Reg) (p : BitVec 16) (s : State) : Out := doorRow u k q dst (0xD0000 + p.toNat) s

/-- The first finished operation of a sequencer gives its destination the result (R407). -/
def execDoorOperationCompletion (u : Fin 16) (k : Fin 4) (s : State) : Out :=
  let j := s.job u k
  match j.ops.find? fun o => o.result.isSome with
  | none => .next s
  | some o =>
    let i := plaiterSeq u k
    let s := s.modJob u k fun j => { j with ops := j.ops.erase o }
    if o.dest = 0 then .next s
    else .next (s.modSeq i fun z => { z with x := z.x.wr o.dest (o.result.getD 0), busy := z.busy.erase o.dest })

/-! ## The end of a job (R400, R414, R417) -/

/-- A job whose program has ended completes once its operations and shared stores have, and its commit point is released
(15/R448); its sealed fields are zeroized first. -/
def execEnd (u : Fin 16) (k : Fin 4) (s : State) : Out :=
  let j := s.job u k
  let z := s.seq (plaiterSeq u k)
  if !s.hasJob u k ∨ j.ops ≠ [] ∨ (j.phase = .run ∧ (z.run ∨ z.miss.isSome ∨ z.ops ≠ [])) then .next s
  else match j.ending with
    | none => .next s
    | some e =>
      let (s, go) := s.commitPoint (s.unitCr u) (256 + 4 * u.val + k.val) (.job u k)
      if !go then .next s
      else
        let e := if e.status = 0 ∧ j.outCap < e.outLen then { jobFailed 0x0211 0 with fault := 0x23, pc := e.pc } else e
        let s := (s.sealDrop (4 * u.val + k.val)).modUnit u fun x => { x with jobs := x.jobs.erase k }
        .next ((s.jobComplete u k j e).moveTry (s.unitCr u))
/-- A job past its queue's limit is stopped at an instruction boundary (R417). -/
def execJobTimeLimit (u : Fin 16) (k : Fin 4) (s : State) : Out :=
  let j := s.job u k
  let lim := fld (s.pq j.queue).ring.ctl 63 48
  if s.hasJob u k ∧ j.phase = .run ∧ (s.seq (plaiterSeq u k)).run ∧ lim ≠ 0 ∧ lim * 2 ^ 32 < (s.now - j.since) * 1000000 then
    let i := plaiterSeq u k
    .next ((s.modSeq i fun z => { z with run := false, ended := some 0x22 }).modJob u k fun x =>
      { x with ending := some { jobFailed 0x0211 0 with fault := 0x22, pc := (s.seq i).x.pc.toNat % 65536 } })
  else .next s
/-- The reserve unit takes the number, image and local data once the last job has ended (R421). -/
def execPlaiterUnitReplacement (u : Fin 16) (s : State) : Out :=
  if (s.unit u).leaving ∧ (s.unit u).jobs = [] then .next (s.modUnit u fun x => { x with leaving := false }) else .next s

end Sys2Proof.Machine
end

