-- ==== Sys2Proof/Machine/Start.lean ====
section
/-!
DEFINITION. Starts and resets, firmware bundles and image slots, the configuration slots at a start, field update and its
commands (18/R520-R548).
-/
namespace Sys2Proof.Machine

/-! ## Bundles and image slots (R523-R527) -/

def bundleNat (b : Bytes) (off n : Nat) : Nat := leNat ((b.drop off).take n)
/-- Image entry i of a header: the image's bytes match its digest. -/
def imageDigest (b : Bytes) (i : Nat) : Bytes := (b.drop (0x20 + 64 * i + 16)).take 48
def imageOk (b : Bytes) (i : Nat) : Bool :=
  let e := 0x20 + 64 * i
  sha384 ((b.drop (bundleNat b (e + 4) 4)).take (bundleNat b (e + 8) 4)) == imageDigest b i
/-- R525: 0, or the ROM status of the check that fails: 2 signature, 3 security version, 4 image digest (R527). -/
def State.bundleCheck (s : State) (b : Bytes) : Nat :=
  if !Config.bundleSigned (b.take 30528) then 2
  else if bundleNat b 0x0E 2 < s.stake.floor then 3
  else if (List.range 5).all (imageOk b) then 0 else 4
def State.img (s : State) (i : Nat) : ImgSlot := s.stake.imgs.get imgReset i
def State.setImg (s : State) (i : Nat) (x : ImgSlot) : State := s.modStake fun m => { m with imgs := m.imgs.set i x }
def stStaged : Nat := 0xFF
def stTrial : Nat := 0x7F
def stConfirmed : Nat := 0x3F
def stRejected : Nat := 0
/-- The slots that a start may boot: verified and CONFIRMED (R526). -/
def State.bootable (s : State) (i : Nat) : Bool :=
  s.stake.imgs.has i && (s.img i).status == stConfirmed && s.bundleCheck (s.img i).bytes == 0
def State.bootSlot (s : State) : Option Nat :=
  if s.bootable 0 ∧ s.bootable 1 then some (if (s.img 0).seq < (s.img 1).seq then 1 else 0)
  else [0, 1].find? s.bootable
/-- Why no slot qualifies: the check that the CONFIRMED slot with the higher sequence fails; 1: there is none (R527). -/
def State.romStatus (s : State) : Nat :=
  let l := [0, 1].filter fun i => s.stake.imgs.has i && (s.img i).status == stConfirmed
  match l with
  | [] => 1
  | [i] => s.bundleCheck (s.img i).bytes
  | _ => s.bundleCheck (s.img (if (s.img 0).seq < (s.img 1).seq then 1 else 0)).bytes
/-- A measurement register is extended (11/R337). -/
def State.measure (s : State) (r : Nat) (digest : Bytes) : State :=
  s.modStake fun m => { m with meas := m.meas.set r (sha384 (m.meas.get (zeros 48) r ++ digest)) }
/-- The digest of what register 5 or 6 covers is not stated (R539; 11/R337). -/
def State.measureOpen (s : State) (r : Nat) : State := s.spend.measure r (toLe 48 (s.drawn .unstated))

/-! ## The configuration at a start (R534, R535) -/

def State.cfgSlot (s : State) (i : Nat) : CfgSlot := s.stake.cfgs.get cfgSlotReset i
/-- R534; the formats are those of the firmware that runs. -/
def State.cfgValid (s : State) (i : Nat) : Bool :=
  let c := s.cfgSlot i
  s.stake.cfgs.has i && decide (s.fwField 0x10 2 ≤ c.fmt) && decide (c.fmt ≤ s.fwField 0x12 3) && decide (1 ≤ c.bodyLen) &&
    decide (c.bodyLen ≤ 4190208) && c.macRoot == s.cfgRoot
def State.cfgSelect (s : State) : Option Nat :=
  if s.cfgValid 0 ∧ s.cfgValid 1 then some (if (s.cfgSlot 0).seq < (s.cfgSlot 1).seq then 1 else 0)
  else [0, 1].find? s.cfgValid
/-- A slot that fails its MAC is skipped and recorded as a security event. -/
def State.badMacs (s : State) : State :=
  [0, 1].foldl (fun s i => if s.stake.cfgs.has i ∧ (s.cfgSlot i).macRoot ≠ s.cfgRoot then s.note 0xA i 0x534 else s) s
/-- The converted record is written when the selected slot's format is not the one the firmware writes (R529, R544). -/
def State.cfgConvert (s : State) : State :=
  match s.cfgSelect with
  | some i => if (s.cfgSlot i).fmt = s.fmtWritten then s else s.cfgSave.1
  | none => s

/-- A creel as the record gives it: assigned, with grants, quotas, masks and its boot record. -/
def State.restoreCreel (s : State) (cr : Nat) (c : CreelCfg) : State :=
  let s := s.modStake fun m => { m with boots := match c.boot with | some b => m.boots.set cr b | none => m.boots }
  let s := s.modPair fun q => { q with cfg := q.cfg.set cr c.policy }
  let s := s.modCreel cr fun x => { x with grants := c.grants, quota := c.quota }
  if c.assigned then
    (s.assign cr c.cores c.units).modCreel cr fun x => { x with wayMask := c.wayMask, exclMask := c.exclMask }
  else s
def lgOf (d : DevCfg) (n : Nat) : Lg := { lgReset with cfg := d.lg.get lgReset.cfg n, hamask := d.hamask.get 0 n }
def lportOf (d : DevCfg) (p : Nat) : LinePort :=
  { lportReset with set := d.line.get lportReset.set p,
                    addrs := (d.addr.filter fun a => a.1 / 64 = p).map fun a => (a.1 % 64, a.2) }
/-- The record comes into force, but for its creels. -/
def State.applyCfg (s : State) (r : CfgRec) : State :=
  let s := s.modStake fun m =>
    { m with pat := r.pat, creds := r.creds, dev := r.dev, scrub := r.scrub, mitigation := r.mitigation, throttle := r.throttle,
             hoopCfg := r.hoop, witness := r.witness, upd := { m.upd with window := r.window, mode := r.mode } }
  { s with
    qosCfg := r.qos, lgs := (List.range 10).map fun n => (n, lgOf r.dev n), lports := (List.range 8).map fun p => (p, lportOf r.dev p),
    slices := r.waysOff.map fun p => (p.1, { sliceReset with off := p.2 }) }
/-- LINK_DOWN at a start: paired creels are STANDBY until their state is known (15/R445, R459). -/
def State.linkDownStart (s : State) : State :=
  let s := (List.range 64).foldl (fun s c => if paired (s.pairCfg c) then s.setRole c 2 else s) s
  s.modPair fun p => { p with st := 1, startAt := s.clock }
/-! ## The cold start (R528, R529) -/

/-! ### The memory population (08/R228-R230) -/

/-- The speed bins of a module type with so many modules per channel, in MT/s (08/R228). -/
def speedBins (mrdimm : Bool) (n : Nat) : List Nat :=
  match mrdimm, n with
  | false, 1 => [4800, 5600, 6400, 7200, 8000]
  | false, 2 => [4800, 5600, 6400]
  | true, 1 => [8000, 8800, 12800]
  | _, _ => []
/-- The modules of a channel, where all channels are alike (08/R229); a channel holds at most 512 GiB and 8 ranks (08/R230; log
entry 144). -/
def population (l : List (List MemModule)) : Option (Nat × MemModule) :=
  match l with
  | (m :: r) :: _ =>
    let n := r.length + 1
    if l.length = 16 ∧ l.all (· == List.replicate n m) ∧ m.x4 ∧ m.refresh ∧ (speedBins m.mrdimm 1).contains m.bin ∧
        speedBins m.mrdimm n ≠ [] ∧ 1 ≤ m.ranks ∧ n * m.ranks ≤ 8 ∧ n * m.capacity ≤ 2 ^ 39 then some (n, m) else none
  | _ => none
/-- The bins that a population can run at: those of the table up to the modules' own. -/
def runBins (n : Nat) (m : MemModule) : List Nat := (speedBins m.mrdimm n).filter (· ≤ m.bin)
/-- Installed capacity: the ranks of a channel without the reserve rank and the held-out rows, times 16, rounded down to 256 MiB. -/
def capacity (n : Nat) (m : MemModule) (reserve : Bool) : Nat :=
  let rank := m.capacity / m.ranks - m.banks * m.rowBytes
  16 * (rank * (n * m.ranks - b2n reserve)) / 2 ^ 28 * 2 ^ 28
/-- Rows 6 and 7 for the channels: trained at the configured bin, hard repairs applied where the module has a spare; the reserve
rank replaces a rank that fails training (08/R236, R237); another one that fails is fenced (log entry 144). -/
def State.trainChan (s : State) (i : StartIn) (bin lower total : Nat) (reserve : Bool) (ch : Nat) : State :=
  let c := s.chan ch
  let spare := fun (k : Nat) => Config.free .unstated (s.free + k) % 2 == 0
  let fixed := (c.repair.zipIdx.filter fun r => spare r.2).length
  let left := (c.repair.zipIdx.filter fun r => !spare r.2).map (·.1)
  let s := { s with free := s.free + c.repair.length, reserve := { s.reserve with rows := s.reserve.rows + fixed } }
  let mapped := if reserve then total - 1 else total
  let bad := fun (r : Nat) => wayBit (i.failed.getD ch 0).toNat r
  let fails := (List.range mapped).filter bad
  let swap := if reserve ∧ !bad mapped then fails.head? else none
  let fenced := (fails.filter fun r => some r ≠ swap).foldl (fun m r => m + 2 ^ r) 0
  let s := s.setChan ch
    { chanReset with st := if fenced = 0 then .service else .degraded, bin := bin, known := if lower = 0 then [bin] else [bin, lower], repair := left,
                     trained := (List.range total).map fun r => (r, s.clock, i.temp), fenced := fenced, ranks := mapped,
                     reserveRank := if reserve then mapped else 0, reserveFailed := reserve && bad mapped, outOfService := swap }
  match swap with | some r => s.retiredRec 5 r mapped fun _ => false | none => s
def State.trainMemory (s : State) (i : StartIn) (r : CfgRec) : State :=
  match population i.modules with
  | none => (s.modStake fun m => { m with popOk := false }).logRec 0 0xA 0x702 0 0 0
  | some (n, m) =>
    let bins := runBins n m
    let bin := if bins.contains r.bin then r.bin else bins.foldl max 0
    let lower := (bins.filter (· < bin)).foldl max 0
    let total := n * m.ranks
    let reserve := r.dev.reserveRank && decide (2 ≤ total)
    let s := (List.range 16).foldl (fun s ch => s.trainChan i bin lower total reserve ch) s
    let s := { s with installed := capacity n m reserve }
    let s := s.modVault fun v => { v with cap := r.dev.skmUnits * 2 ^ 18 }
    s.scramble 0 0x100000000000
/-- Row 6 in the Hamper: the self-tests of the DRBG and of the key path, entropy tests, and a restart record in every chain (11/R329,
R334; 21/R579). No creel is assigned yet, so no
creel sees a notice. -/
def State.hamperStart (s : State) (selfTestOk entropyOk : Bool) : State :=
  let s := s.modVault fun v => { v with entropy := if entropyOk then 0 else 1, broken := !selfTestOk }
  let s := (List.range 65).foldl (fun s n => s.auditAppend n s.hoop.sec s.hoop.st s.hoop.frac (2 * 2 ^ 8) 0 0 0 0) s
  { s with creels := [] }
/-- Row 2: lifecycle and border; a failed check counts as a trip (R528; 21/R569). The Stake's sequencer runs from the ROM's first
byte (10/R273; log entry 140). -/
def State.romStart (s : State) (i : StartIn) : State :=
  let s := if i.bbkmOk ∧ i.borderOk then s else (s.zeroize 6).note 0xB 0 0x569
  let s := s.modStake fun m => { m with tampered := m.tampered || s.bbkm.life == 6 }
  let s := s.modBbkm fun b => { b with life := if s.stake.retired then 7 else if s.stake.tampered then 6 else b.life, startCount := b.startCount + 1 }
  let s := s.setSeq 86 { seqReset with run := true }
  s.modVault fun v => { v with startKey := kdf s.bbkm.root (ascii "START") (Config.asciiNumber s.bbkm.startCount) 32 }
/-- Row 4: TRIAL slots become REJECTED, which is recorded; the update state follows the other slot. -/
def State.slotsStart (s : State) (run : Nat) : State :=
  let s := [0, 1].foldl (fun s i =>
    if s.stake.imgs.has i ∧ (s.img i).status = stTrial then (s.setImg i { s.img i with status := stRejected }).note 0xA i 0x526 else s) s
  let o := s.img (1 - run)
  let staged := s.stake.imgs.has (1 - run) ∧ o.status = stStaged ∧ s.bundleCheck o.bytes = 0
  s.modStake fun m => { m with upd := { updReset with running := run, st := if staged then 1 else 0, lowVbat := m.upd.lowVbat } }
/-- Rows 3 to 5: the measurements of the images. -/
def State.measureImages (s : State) (run : Nat) : State :=
  (List.range 5).foldl (fun s k =>
    let b := (s.img run).bytes
    let e := ((List.range 5).find? fun i => bundleNat b (0x20 + 64 * i) 4 = k).getD k
    s.measure k (imageDigest b e)) s
/-- Rows 4 to 8 with the slot that runs. -/
def State.firmwareStart (s : State) (i : StartIn) (run : Nat) : State :=
  let s := (s.measureImages run).slotsStart run
  let s := s.badMacs
  let ((s, r) : State × CfgRec) := match s.cfgSelect with
    | some k =>
      let s := s.measureOpen 5
      (s.modStake fun m => { m with cfgLast := k }, (s.cfgSlot k).body)
    | none => (s.note 0xA 2 0x534, cfgRecReset)
  let s := (s.applyCfg r).hamperStart i.selfTestOk i.entropyOk
  let s := s.trainMemory i r
  let s : State := { s with reserve := { s.reserve with baseOk := i.baselinesOk }, board := { s.board with fatalLow := false, governor := true } }
  let s := if i.baselinesOk then s else s.note 0xA 0 0x551
  let s := if s.stake.popOk ∧ s.bbkm.life < 6 then r.creels.foldl (fun s p => s.restoreCreel p.1 p.2) s else s
  let s := if s.bbkm.pairSecret = zeros 32 then s else s.linkDownStart
  let s := s.autostart 0
  let s : State := { (s.modStake fun m => { m with up := true, rom := 0 }) with power := 2 }
  s.cfgConvert
/-- COLD_START: SYS_RESET_N is released, or the ROM starts after a fatal reset. With no slot to boot, recovery (R527). -/
def execColdStart (i : StartIn) (s : State) : Out :=
  if s.power = 2 then .next s
  else
    let s := s.romStart i
    match s.bootSlot with
    | some run => .next (s.firmwareStart i run)
    | none => .next { (s.modStake fun m => { m with rom := s.romStatus }) with power := 2 }
/-- RECOVERY_BUNDLE: a bundle that verifies goes to slot A, CONFIRMED with sequence 1, and the ROM starts again. -/
def execRecoveryBundle (b : Bytes) (s : State) : Out :=
  if s.stake.rom = 0 ∨ s.power ≠ 2 ∨ s.stake.up then .next s
  else
    let r := s.bundleCheck b
    if r ≠ 0 then .next (s.modStake fun m => { m with rom := r })
    else .next { (s.setImg 0 { bytes := b, seq := 1, status := stConfirmed }).modStake (fun m => { m with rom := 0 }) with power := 1 }

/-! ## Resets (R520-R522; 22/R594; 17/R518) -/

/-- The flash write of the command that comes next is under way and is cut short: its slot is invalid (R521, R525, R534), the boot
image does not match its digest. -/
def State.cutWrite (s : State) : State :=
  match s.stake.accepted.head? with
  | some c =>
    match c.op with
    | 0x0501 => s.setImg (1 - s.stake.upd.running) { bytes := [], seq := (s.img s.stake.upd.running).seq + 1, status := stStaged }
    | 0x0101 => s.modStake fun m => { m with cfgs := [] }
    | 0x0103 | 0x0506 => s.cfgCut
    | 0x0508 => s.modStake fun m => { m with bootImgs := m.bootImgs.erase (c.n 2) }
    | _ => s
  | none => s
/-- SYS_RESET_N low for a time in ns: below 100 ignored, from 1 µs it takes effect, between them either. -/
def execSysResetN (ns : Nat) (cut : Bool) (s : State) : Out :=
  let low := fun (s : State) => (if cut && s.power == 2 then s.cutWrite else s).afterLoss false false
  if ns < 100 then .next s
  else if 1000 ≤ ns then .next (low s)
  else if s.drawn .unstated % 2 = 0 then .next (low s.spend)
  else .next s.spend
def execFatalDeviceError (unit : Fin 12) (code : BitVec 16) (s : State) : Out := .next (s.fatal unit code.toNat)

/-- R522, step 1: heartbeats stop, the fence line goes low, and the device is LINK_DOWN. -/
def State.warmPair (s : State) : State :=
  if s.pair.st = 0 then s
  else
    let s := if s.hoopQual 3 then s.hoopLose 3 else s
    let s := s.modPair fun p => { p with unacked := [], inbox := [], copies := [] }
    let s := s.partnerDone
    let s := s.modPair fun p => { p with up := 0, fenceOut := false, holds := false, claimAt := none, wit := none, lost := none, released := [] }
    s.linkDownStart
/-- Step 2: every creel that is assigned goes through rows 1 to 4 of 09/R266. -/
def State.warmCreel (s : State) (cr : Nat) : State :=
  match (s.creel cr).st with
  | .unassigned => s
  | .resetting => { s with resetting := s.resetting.set cr 2 }
  | _ => s.creelReset cr 2
/-- R522: steps 1 and 2, and the others once no strict-window store holds a creel's reset (05/R172). -/
def State.warmReset (s : State) : State :=
  (((List.range 64).foldl State.warmCreel s.warmPair).modStake fun m => { m with warm := true }).warmGo
def execWarmResetN (ns : Nat) (s : State) : Out :=
  if 1000 ≤ ns ∧ s.power = 2 ∧ s.stake.up then .next s.warmReset else .next s
/-- The completion is written before step 1. -/
def execWarmReset (p : Slot) (k : Fin 16) (s : State) : Out :=
  stakeRow p k 0x050B (fun s c => ((s.done c 0).mbxPost c.port).warmReset) s

/-- CREEL_RELEASE_BOOT: a creel that is due is released from its boot image; a debug unlock forbids it (21/R574), and no creel runs in
TAMPERED and RETIRED (10/R293). -/
def execCreelReleaseBoot (cr : CreelId) (reason : Fin 4) (s : State) : Out :=
  if !s.stake.due.has cr ∨ s.stake.due.get 0 cr ≠ reason.val ∨ (s.creel cr).st ≠ .stopped ∨ s.stake.debug ∨ 6 ≤ s.bbkm.life then .next s
  else .next ((s.modStake fun m => { m with due := m.due.erase cr }).bootRelease cr reason.val).1
/-- HELD_CORE_START: a core that waits for its first vector starts; the vector stays pending (R530). -/
def execHeldCoreStart (n : CoreId) (s : State) : Out :=
  let c := s.core n
  if c.run = .held ∧ (bankAny c.svec || bankAny c.upend) then .next (s.modCore n fun c => { c with run := .running }) else .next s

/-! ## Field update (R537-R546) -/

/-- UPDATE_STAGE reads the bundle as a hub unit of the creel does. -/
def execUpdateStage (p : Slot) (k : Fin 16) (s : State) : Out :=
  stakeRow p k 0x0501 (fun s c =>
    let st := s.stake.upd.st
    if st ≠ 0 ∧ st ≠ 1 then s.done c 0x0304 st
    else if 0x1FFF000 < c.n 4 then s.done c 0x0204
    else if !s.dmaOk (c.n 2) (c.n 3) (c.n 4) false then s.done c 0x0103
    else
      let b := s.rdBytes (c.n 3) (c.n 4)
      let r := s.bundleCheck b
      if r ≠ 0 then s.done c (if r = 2 then 0x0601 else if r = 3 then 0x0105 else 0x0602)
      else
        let run := s.stake.upd.running
        let s := s.setImg (1 - run) { bytes := b, seq := (s.img run).seq + 1, status := stStaged }
        (s.modStake fun m => { m with upd := { m.upd with st := 1 } }).done c 0) s

/-- Row 3 is over: every command and job taken is complete. -/
def State.quiet (s : State) : Bool :=
  s.vault.active.isEmpty && (List.range 16).all fun u => (s.unit u).jobs.isEmpty && (s.unit u).load.isNone
def State.pauseLate (s : State) (ms : Nat) : Bool := decide (s.stake.upd.began + ms * 2 ^ 32 / 1000 ≤ s.clock)
/-- A command or a job waits on its mirror commit. -/
def State.commitWaits (s : State) : Bool :=
  s.pair.commits.any fun c => match c.who with | .hamper _ | .job _ _ => true | _ => false
/-- Jobs that still run 40 ms into the pause end with 0x0211 and fault 0x22. -/
def State.endJobs (s : State) : State :=
  (List.range 64).foldl (fun s n =>
    let u := n / 4
    let k := n % 4
    if s.hasJob u k ∧ (s.job u k).phase = .run ∧ (s.job u k).ending.isNone then
      let i := plaiterSeq u k
      (s.modSeq i fun z => { z with run := false, ended := some 0x22 }).modJob u k fun x =>
        { x with ending := some { status := 0x0211, fault := 0x22, pc := (s.seq i).x.pc.toNat % 65536, result := 0, outLen := 0, detail := 0 } }
    else s) s
def State.setUpd (s : State) (f : Update → Update) : State := s.modStake fun m => { m with upd := f m.upd }
def State.updateEnds (s : State) (status : Nat) (result : Nat) : State :=
  s.finishRun (fun r => r.why == .activating) status (w64 result)

/-- Fall-back begins (R545). -/
def State.fallBackStart (s : State) : State := s.setUpd fun u => { u with st := 4, began := s.clock, retry := false, failed := false }
/-- Its end: the slot that ran before runs again, the trial slot is REJECTED, the event is recorded. -/
def State.fallBackEnd (s : State) : State :=
  let t := s.stake.upd.running
  let s := (s.setImg t { s.img t with status := stRejected }).setUpd fun u => { u with st := 0, running := 1 - t, retry := false }
  (((s.measureOpen 6).auditEvent).note 0xA t 0x545).updateEnds 0 0
def State.fallBackGo (s : State) : State :=
  if s.stake.upd.st ≠ 4 ∨ s.stake.upd.retry then s
  else if s.quiet then s.fallBackEnd
  else if s.pauseLate 50 ∧ s.commitWaits then s.setUpd fun u => { u with retry := true, began := s.clock }
  else if s.pauseLate 40 then s.endJobs
  else s
/-- Rows 4 to 7 of R539; a configuration that the new firmware cannot read starts fall-back (R542). -/
def State.activateEnd (s : State) : State :=
  let t := 1 - s.stake.upd.running
  let s := s.setImg t { s.img t with status := stTrial }
  let s := (s.setUpd fun u => { u with st := 3, running := t, began := s.clock, holds := s.clock, failed := false }).measureOpen 6
  let s := s.updateEnds 0 s.fwRelease
  if s.cfgSelect.isNone then s.fallBackStart.fallBackGo else s
def State.activateGo (s : State) : State :=
  if s.stake.upd.st ≠ 2 then s
  else if s.quiet then s.activateEnd
  else if s.pauseLate 50 ∧ s.commitWaits then (s.setUpd fun u => { u with st := 1 }).updateEnds 0x0401 0
  else if s.pauseLate 40 then s.endJobs
  else s
/-- ACTIVATE; the row takes a pause that waits for commands and jobs further. -/
def execActivate (p : Slot) (k : Fin 16) (s : State) : Out :=
  if s.stake.started.any fun r => r.cmd.port = p.val ∧ r.cmd.slot = k.val ∧ r.why = .activating then .next s.activateGo
  else stakeRow p k 0x0502 (fun s c =>
    if (List.range 64).any fun n => (s.creel n).st = .migrating then s.done c 0x0301 4
    else if s.pair.st = 3 then s.done c 0x0303 3
    else if s.stake.upd.st ≠ 1 then s.done c 0x0304 s.stake.upd.st
    else if s.stake.upd.lowVbat then s.done c 0x0304 8
    else ((s.setUpd fun u => { u with st := 2, began := s.clock }).waitFor c .activating).activateGo) s
/-- Confirmation (R544). -/
def State.confirm (s : State) : State :=
  let r := s.stake.upd.running
  let s := s.setImg r { s.img r with status := stConfirmed }
  let s := s.modStake fun m => { m with floor := max m.floor (bundleNat (s.img r).bytes 0x0E 2) }
  (s.cfgConvert.setUpd fun u => { u with st := 0 }).auditEvent
/-- The checks of R542 have held for 60 s. -/
def State.healthy (s : State) : Bool := !s.stake.upd.failed && decide (s.stake.upd.holds + secs 60 ≤ s.clock) && !s.stake.upd.lowVbat
def execUpdateConfirm (p : Slot) (k : Fin 16) (s : State) : Out :=
  stakeRow p k 0x0503 (fun s c =>
    if s.stake.upd.st ≠ 3 then s.done c 0x0304 s.stake.upd.st
    else if !s.healthy then s.done c 0x0401
    else s.confirm.done c 0) s
def execUpdateReject (p : Slot) (k : Fin 16) (s : State) : Out :=
  if s.stake.started.any fun r => r.cmd.port = p.val ∧ r.cmd.slot = k.val ∧ r.why = .activating then .next s.fallBackGo
  else stakeRow p k 0x0504 (fun s c =>
    if s.stake.upd.st ≠ 3 then s.done c 0x0304 s.stake.upd.st
    else (s.fallBackStart.waitFor c .activating).fallBackGo) s
/-- HEALTH_CONFIRMATION: the checks have held for 60 s; a check that has failed starts fall-back at once (R542, R543). -/
def execHealthConfirmation (s : State) : Out :=
  if s.stake.upd.st = 3 ∧ s.stake.upd.failed then .next s.fallBackStart.fallBackGo
  else if s.stake.upd.st = 3 ∧ !s.stake.upd.mode ∧ s.healthy then .next s.confirm else .next s
/-- The window ends unconfirmed; the row also takes a fall-back further. -/
def execHealthWindowExpiry (s : State) : Out :=
  let u := s.stake.upd
  if u.st = 3 ∧ u.began + secs (60 * u.window) ≤ s.clock then .next s.fallBackStart.fallBackGo else .next s.fallBackGo
def execHealthCheckFailure (s : State) : Out :=
  if s.stake.upd.st = 3 then .next s.fallBackStart.fallBackGo else .next s.fallBackGo
/-- Fall-back that could not complete runs again after 1 s. -/
def execFallBackRetry (s : State) : Out :=
  let u := s.stake.upd
  if u.st = 4 ∧ u.retry ∧ u.began + secs 1 ≤ s.clock then .next s.fallBackStart.fallBackGo else .next s.fallBackGo

/-! ## Commands (R547, R548) -/

/-- The reply's words stand in the order in which the table names them. -/
def execUpdateStatus (p : Slot) (k : Fin 16) (s : State) : Out :=
  stakeRow p k 0x0505 (fun s c =>
    let u := s.stake.upd
    let left := if u.st = 3 then (u.began + secs (60 * u.window) - s.clock) / 2 ^ 32 else 0
    s.done c 0 0 [w64 u.st, w64 u.running, w64 s.fwRelease, w64 (bundleNat (s.img u.running).bytes 0x0E 2), w64 (s.img 0).seq, w64 (s.img 0).status,
      w64 (s.img 1).seq, w64 (s.img 1).status, w64 s.stake.floor, w64 left]) s
def execConfigSave (p : Slot) (k : Fin 16) (flashFault : Bool) (s : State) : Out :=
  stakeRow p k 0x0506 (fun s c =>
    if flashFault then s.cfgFault.done c 0x0701
    else match s.cfgSave with | (s, seq) => s.done c 0 seq) s
/-- The header words of a slot; an erased flash block reads as ones. -/
def execConfigRead (p : Slot) (k : Fin 16) (s : State) : Out :=
  stakeRow p k 0x0507 (fun s c =>
    let x := s.cfgSlot (c.n 2)
    let h : List W64 := if s.stake.cfgs.has (c.n 2) then [0x314643383032414D, w64 x.seq, w64 (x.bodyLen * 2 ^ 32 + x.fmt)]
      else List.replicate 3 (w64 (2 ^ 64 - 1))
    s.done c 0 0 (h ++ [w64 (b2n (s.cfgValid (c.n 2)))])) s
/-- The image is read from the creel's grant and goes with its digest to the boot area and the record (R531). -/
def execCreelBootSet (p : Slot) (k : Fin 16) (s : State) : Out :=
  stakeRow p k 0x0508 (fun s c =>
    let cr := c.n 2
    let st := (s.creel cr).st
    let len := c.n 4
    if st ≠ .unassigned ∧ st ≠ .stopped then s.done c 0x0301 (creelCode st)
    else if s.installed < c.n 5 + len then s.done c 0x0204
    else if !s.inGrant cr (c.n 3) (c.n 3 + len) ∨ !s.inGrant cr (c.n 5) (c.n 5 + len) then s.done c 0x0103
    else
      let b := s.rdBytes (c.n 3) len
      let r : BootRec := { loadAddr := c.n 5, length := len, entry := c.n 6, digest := sha384 b, autostart := tbit (c.w 7) 0, retain := tbit (c.w 7) 1 }
      (s.modStake fun m => { m with boots := m.boots.set cr r, bootImgs := m.bootImgs.set cr b }).done c 0) s
/-- The working copy takes the item; a creel may stand in one LG_HAMASK entry only (16/R467). -/
def execDeviceConfig (p : Slot) (k : Fin 16) (s : State) : Out :=
  stakeRow p k 0x0509 (fun s c =>
    let d := s.stake.dev
    let ix := c.n 3
    let put := fun (d : DevCfg) => (s.modStake fun m => { m with dev := d }).done c 0
    match c.n 2 with
    | 1 => put { d with lg := d.lg.set ix (c.w 4) }
    | 2 => if c.w 4 &&& d.hamask.get 0 (17 - ix) ≠ 0 then s.done c 0x0204 else put { d with hamask := d.hamask.set ix (c.w 4) }
    | 3 => put { d with line := d.line.set ix (c.w 4) }
    | 4 => put { d with addr := d.addr.set ix (c.w 4, c.w 5) }
    | 5 => put { d with skmUnits := c.n 4 }
    | _ => put { d with reserveRank := tbit (c.w 4) 0 }) s
def execUpdateWindow (p : Slot) (k : Fin 16) (s : State) : Out :=
  stakeRow p k 0x050A (fun s c => (s.setUpd fun u => { u with window := c.n 2, mode := tbit (c.w 3) 0 }).done c 0) s

end Sys2Proof.Machine
end

