-- ==== Sys2Proof/Machine/Reserve.lean ====
section
/-!
DEFINITION. Reserve capacity and ageing (19/R549-R556). Kinds are those of the reserve report (R557): 1 core tile, 2 slice or
way, 3 bridge or wire group, 4 pairing bundle, 5 rank, 6 Hamper unit, 7 Plaiter unit, 8 flash block; 0 is the Stake sequencer.
-/
namespace Sys2Proof.Machine

def State.modReserve (s : State) (f : Reserve → Reserve) : State := { s with reserve := f s.reserve }
/-- The samples of a unit start anew. -/
def State.freshUnit (s : State) (kind unit : Nat) : State :=
  s.modReserve fun r => { r with samples := r.samples.erase (4096 * kind + unit), margins := r.margins.erase (4096 * kind + unit) }

/-! ## Core tiles (R552-R555) -/

/-- The lowest-numbered reserve tile of a die that no swap has taken. -/
def State.freeTile (s : State) (die : Nat) : Option Nat :=
  let n := s.reserve.tiles.get 0 die
  if n < 8 then some (56 * die + 48 + n) else none
/-- A core is removed from its creel, with a quota notice, once its buffered stores have drained (05/R171); its logical number
is skipped from then on (R555, 09/R263). -/
def State.removeCore (s : State) (n : Nat) : State :=
  let s := (s.drainAll n).wcDrainAll n
  let s := match s.creelOf n with
    | some c => if (s.creel c).st = CreelSt.running then s.notice c 1 6 else s
    | none => s
  let s := s.modCore n fun c => { coreReset with discarded := c.discarded }
  let s : State := { s with coreCreel := s.coreCreel.erase n, coreTile := s.coreTile.set n (224 + n) }
  s.modReserve fun r => { r with stopped := r.stopped + 1 }
/-- A core tile is to be replaced; with no free tile on its die it stays, or goes below 60 %. -/
def State.retireTile (s : State) (t margin : Nat) : State :=
  match s.coreAt t with
  | none => s
  | some n =>
    if s.reserve.replacing.contains (1, t) then s
    else if (s.freeTile (t / 56)).isSome then s.modReserve fun r => { r with replacing := r.replacing ++ [(1, t)] }
    else
      let s := s.exhausted fun c => s.creelOf n == some c
      if margin < 60 then (s.removeCore n).freshUnit 1 t else s
/-- CORE_SWAP: the state moves to the reserve tile; caches, translations and predictions start empty. It waits for a creel
reset, for the pause of an update, and for a device load already sent. -/
def execCoreSwap (n : CoreId) (s : State) : Out :=
  let c := s.core n
  let old := s.tileOf n
  let resetting : Bool := match s.creelOf n with | some k => (s.creel k).st == .resetting | none => false
  if s.reserve.replacing.head? ≠ some (1, old) ∨ resetting ∨ s.paused ∨ c.dev.isSome then .next s
  else match s.freeTile (old / 56) with
    | none => .next (s.modReserve fun r => { r with replacing := r.replacing.drop 1 })
    | some new =>
      let s := (s.drainAll n).wcDrainAll n
      let s := s.modCore n fun c => { c with parked := none, tlb := [], ptr := [], pred := predReset }
      let s : State := { s with coreTile := s.coreTile.set n new }
      let s := s.modReserve fun r =>
        { r with tiles := r.tiles.set (old / 56) (r.tiles.get 0 (old / 56) + 1), replacing := r.replacing.drop 1, oldTiles := r.oldTiles ++ [old] }
      .next ((s.freshUnit 1 old).retiredRec 1 old new fun k => s.creelOf n == some k)
/-- OLD_TILE_POWER_OFF: its lines are written back, and it is powered off. -/
def execOldTilePowerOff (t : Fin 224) (s : State) : Out :=
  if s.reserve.oldTiles.contains t.val then
    .next ((s.emptyTile t none).modReserve fun r => { r with oldTiles := setErase r.oldTiles t })
  else .next s

/-! ## The other units -/

/-- A Plaiter unit retires; with no reserve it stays, and below 60 % it is taken from its creel and goes out of service (R550). -/
def State.retirePlaiter (s : State) (u margin : Nat) : State :=
  let own := fun (c : Nat) => s.unitCreel.has u && s.unitCreel.get 64 u == c
  if (s.unit u).leaving ∨ 16 ≤ u then s
  else if s.reserve.plaiter < 2 then
    let k := s.reserve.plaiter
    let s := (s.modUnit u fun x => { x with leaving := true }).modReserve fun r => { r with plaiter := r.plaiter + 1 }
    s.retiredRec 7 u (16 + k) own
  else
    let s := s.exhausted own
    if margin < 60 then
      let s := ((List.range 64).filter fun c => own c && (s.creel c).st == .running).foldl (fun s c => s.notice c 1 6) s
      (s.unitTaken u).modReserve fun r => { r with out := r.out ++ [(7, u)] }
    else s
def execFlashBlockRetirement (flash : Fin 2) (blk : Nat) (s : State) : Out := .next (s.retireBlock flash blk)
/-- A unit is retired. A rank goes by a copy to the reserve rank; a slice gives up one of its ways. -/
def State.retireUnit (s : State) (kind unit margin : Nat) : State :=
  match kind with
  | 1 => s.retireTile unit margin
  | 3 => if unit < 32 then s.retireGroup unit else s
  | 4 => if unit < 8 then s.laneFails unit else s
  | 6 => s.retireHamper unit margin
  | 7 => s.retirePlaiter unit margin
  | _ => s.note 0xA kind unit

/-! ## Margins (R549-R551, R556) -/

def insertSorted (x : Nat) : List Nat → List Nat
  | [] => [x]
  | y :: r => if x ≤ y then x :: y :: r else y :: insertSorted x r
def sortNat (l : List Nat) : List Nat := l.foldr insertSorted []
/-- The median; of an even number of samples the mean of the two in the middle. -/
def median (l : List Nat) : Nat :=
  let m := sortNat l
  (m.getD ((m.length - 1) / 2) 0 + m.getD (m.length / 2) 0) / 2
/-- Units that have a slack monitor and are in service. -/
def State.monitored (s : State) (kind unit : Nat) : Bool :=
  !s.reserve.out.contains (kind, unit) && match kind with
  | 0 => unit == 0
  | 1 => (s.coreAt unit).isSome
  | 2 => decide (unit < 224)
  | 3 => decide (unit < 32)
  | 4 => decide (unit < 8)
  | 6 => decide (unit < 70)
  | 7 => decide (unit < 16)
  | _ => false
/-- SLACK_SAMPLE: the ratio in % of the unit's baseline. -/
def execSlackSample (kind : Fin 9) (unit : BitVec 12) (ratio : Nat) (s : State) : Out :=
  let k := kind.val
  let u := unit.toNat
  if s.power ≠ 2 ∨ !s.monitored k u then .next s
  else
    let key := 4096 * k + u
    let l := (ratio :: s.reserve.samples.get [] key).take 64
    let m := median l
    let s := s.modReserve fun r => { r with samples := r.samples.set key l, margins := r.margins.set key m }
    if !s.reserve.baseOk ∨ l.length < 64 ∨ 75 ≤ m then .next s
    else if k = 2 then
      .next (((s.retireWay u (s.drawn .unstated % 16)).spend).freshUnit 2 u)
    else if k = 1 then .next (s.retireTile u m)
    else .next ((s.retireUnit k u m).freshUnit k u)
/-- A core tile has had 64 corrected errors within 24 h (R550). -/
def State.tileErrors (s : State) (t : Nat) : Bool :=
  decide (64 ≤ ((s.reserve.errs.get [] t).filter fun at_ => s.clock < at_ + secs 86400).length)
/-- RETIREMENT_TRIGGER: the error-driven triggers of R550, by kind and unit: a way as 16 × slice + way, a rank as 8 × channel +
rank, a flash block as 2048 × flash + block. The trigger of a core tile is counted by the device. -/
def execRetirementTrigger (kind : Fin 9) (unit : BitVec 12) (s : State) : Out :=
  let u := unit.toNat
  match kind.val with
  | 2 => .next (if u < 3584 then s.retireWay (u / 16) (u % 16) else s)
  | 5 => .next (if u < 128 then s.modChan (u / 8) fun c => c.startCopy (u % 8) else s)
  | 1 => .next (if s.tileErrors u then s.retireTile u 100 else s)
  | 8 => .next (s.retireBlock (u / 2048) (u % 2048))
  | k => .next (s.retireUnit k u 100)

end Sys2Proof.Machine
end

