-- ==== Sys2Proof/Machine/Power.lean ====
section
/-!
DEFINITION. The border (21/R568, R569), the power governor and the pins (22/R590-R600), the log of the hub ports (20/R567).
-/
namespace Sys2Proof.Machine

def State.modBoard (s : State) (f : Board → Board) : State := { s with board := f s.board }

/-! ## The border -/

/-- Sensors: 0 mesh, 1 rail voltage, 2 temperature, 3 light, 4 fault injection, 5 VBAT, 6 enclosure; rail voltage and fault
injection are watched only while the device is powered. -/
def powered1 (sensor : Nat) : Bool := sensor == 1 || sensor == 4
/-- RETIRED is never left (10/R293). -/
def State.tripLife (s : State) : Nat := if s.bbkm.life = 7 then 7 else 6
/-- BORDER_TRIP: rows 1 and 2 at once; rows 3 to 5 while the device runs, and FATAL_N goes low (R600). -/
def execBorderTrip (sensor : Fin 7) (reading : W64) (onVbat : Bool) (s : State) : Out :=
  if onVbat then .next (if powered1 sensor.val then s else s.zeroize s.tripLife)
  else if s.power = 0 ∧ sensor.val = 1 then .next s
  else
    let s := (s.zeroize s.tripLife).modBoard fun b => { b with fatalLow := true }
    if s.power ≠ 2 then .next s
    else
      let s := (s.haltDevice.abandonAll).note 0xA sensor.val (reading.toNat % 2 ^ 48)
      .next (s.modStake fun m => { m with tampered := true })
/-- THERMTRIP: any die at 115 °C; nothing else is done (R600). -/
def execThermtrip (_die : Fin 9) (s : State) : Out := .next (s.modBoard fun b => { b with thermtrip := true })

/-! ## The governor (R595) -/

def State.setpoint (s : State) (d : Nat) : Nat := s.board.setp.get 800 d
/-- A setpoint of VCORE_d, in mV, goes out on AVS_d. -/
def State.setVcore (s : State) (d mv : Nat) : State :=
  if s.setpoint d = mv then s else (s.modBoard fun b => { b with setp := b.setp.set d mv }).emit 13 [d, mv]
def State.allLow (s : State) : State := (List.range 4).foldl (fun s d => s.setVcore d 665) s
/-- PWRBRAKE_N: low sends every setpoint to 0.665 V while the governor runs. -/
def execPwrbrakeN (level : Bool) (s : State) : Out :=
  if level then
    .next (if s.board.brake then s.modBoard fun b => { b with brake := false, brakeUp := s.clock } else s)
  else
    let s := s.modBoard fun b => { b with brake := true }
    .next (if s.board.governor then s.allLow else s)
/-- PWRBRAKE_N is low, or has been high for less than 1 ms since it was. -/
def State.braked (s : State) : Bool := s.board.brake || (s.board.brakeUp != 0 && decide (s.clock < s.board.brakeUp + 2 ^ 32 / 1000))
def mean (l : List Nat) : Nat := l.foldl (· + ·) 0 / max 1 l.length
/-- The setpoint of a die: the highest that keeps the limits is a measured value, between 0.665 V and 0.930 V in steps of
5 mV; not above the present one while a limit is broken; not below 0.800 V unless its temperature or its current asks for it. -/
def chooseSetpoint (now amps tj package k : Nat) : Nat :=
  let hot := decide (100 < tj) || decide (300 < amps)
  let lo := if hot then 665 else 800
  let hi := if hot || decide (900 < package) then max lo now else 930
  lo + 5 * (Config.free .measured k % ((hi - lo) / 5 + 1))
/-- GOVERNOR_TICK: package power readings (W) of the regulators, currents of VCORE_n (A), Tj of each compute die (°C). Averages
run over 10 ms, a hundred ticks. VBAT is sampled as well (18/R543). -/
def execGovernorTick (powers currents tj : List Nat) (s : State) : Out :=
  if !s.board.governor ∨ s.power ≠ 2 then .next s
  else
    let low := decide (s.drawn .measured % 2 = 1)
    let s := (s.spend).vbatRead low
    let l := (powers.foldl (· + ·) 0 :: s.board.powers).take 100
    let s := s.modBoard fun b => { b with powers := l }
    if s.braked then .next s.allLow
    else
      let s := (List.range 4).foldl (fun s d =>
        (s.setVcore d (chooseSetpoint (s.setpoint d) (currents.getD d 0) (tj.getD d 0) (mean l) s.free)).spend) s
      .next s

/-! ## Reference inputs and rails (R590, R597) -/

/-- The links of a lane group go down; the owners of its ports are told. -/
def State.lgDown (s : State) (n : Nat) : State :=
  let up := (List.range 4).filter fun k => (s.lg n).linkUp.testBit k
  let s := s.modLg n fun g => { g with linkUp := 0, cxlUp := 0 }
  if s.hostMode n then s else up.foldl (fun s k => s.linkNotice n k) s
def State.linesDown (s : State) : State :=
  (List.range 8).foldl (fun s p => let x := s.lport p; if x.up then (s.setLport p { x with up := false }).lineNotice p else s) s
/-- REFERENCE_CLOCK_LOSS, while SYS_RESET_N is high. -/
def execReferenceClockLoss (inp : RefClock) (s : State) : Out :=
  if s.power ≠ 2 then .next s
  else match inp with
    | .lg n => .next (s.lgDown n.val)
    | .pair => .next (if s.linkUp then s.linkFalls else s)
    | .linePorts => .next s.linesDown
    | .memory => .next ((List.range 16).foldl (fun s ch => if (s.chan ch).ranks = 0 then s else s.fence ch (2 ^ (s.chan ch).ranks - 1)) s)
    | .hoopXo => .next (s.fatalStop 0xB 0 true)
/-- RAIL_EXCURSION: a logic rail between 0.58 V and 0.65 V is recorded with its lowest reading. -/
def execRailExcursion (rail : Fin 6) (mv : Nat) (s : State) : Out :=
  if s.power = 2 ∧ 580 ≤ mv ∧ mv < 650 then .next (s.note 0xA rail.val mv) else .next s

/-- HUB_PORT_COUNT_LOG: the counts of ports 64 to 95, every 60 s of Hoop time (20/R567). -/
def execHubPortCountLog (s : State) : Out :=
  if s.power ≠ 2 ∨ s.hoop.sec < s.lastHubLog + 60 then .next s
  else .next ((upto 64 32).foldl (fun s p => s.note 0xA p (s.hubTraffic.get 0 p)) { s with lastHubLog := s.hoop.sec })

/-! ## Time with no command waiting -/

/-- The queue is empty: an interval of the environment passes. The Hoop stands still while SYS_RESET_N is low (18/R521). -/
def State.idle (s : State) : State :=
  let n := 1 + s.drawn .measured
  (if s.power = 0 then { s with clock := s.clock + n } else s.advance n).spend

end Sys2Proof.Machine
end

