-- ==== Sys2Proof/Machine/StakeMem.lean ====
section
/-!
DEFINITION. The Stake's commands for memory, caches, counters, reserves and the measured boot (10/R296; 07/R211-R214; 08/R231,
R235-R241, R247-R250; 19/R557).
-/
namespace Sys2Proof.Machine

def chanCode : ChanState → Nat
  | .untrained => 0 | .training => 1 | .service => 2 | .retrain => 3 | .speedChange => 4 | .fallback => 5 | .degraded => 6
def execMemStatus (p : Slot) (k : Fin 16) (s : State) : Out :=
  stakeRow p k 0x0301 (fun s c =>
    let x := s.chan (c.n 2)
    s.done c 0 0 [w64 (chanCode x.st), w64 x.bin, w64 x.fenced, w64 x.reserveRank]) s
/-- A bin without a known-good setting is refused; a change that meets training is deferred, one that meets a change in progress is
queued, one before training waits (08/R249, R250). The row takes a change in progress on by one channel. -/
def execMemSpeed (p : Slot) (k : Fin 16) (s : State) : Out :=
  match s.stake.started.find? fun r => r.cmd.port = p.val ∧ r.cmd.slot = k.val ∧ r.cmd.op = 0x0302 with
  | some r => match r.why with | .changing bin ch => .next (s.speedStep r bin ch) | _ => .next s
  | none =>
    stakeRow p k 0x0302 (fun s c =>
      let fresh := (List.range 16).any fun i => (s.chan i).st = .untrained
      match (List.range 16).find? fun i => (s.chan i).st = .fallback with
      | some i => s.done c 0x0302 (chanCode (s.chan i).st)
      | none =>
        if !fresh ∧ (List.range 16).any fun i => !(s.chan i).known.contains (c.n 2) then s.done c 0x0105
        else (s.waitFor c (.speed (c.n 2) s.clock)).deferredSpeed) s
/-- A second copy of the channel is refused; without a reserve rank that can serve, the value is not permitted (08/R238, R239). -/
def execRankCopy (p : Slot) (k : Fin 16) (s : State) : Out :=
  stakeRow p k 0x0303 (fun s c =>
    let x := s.chan (c.n 2)
    if x.copy.isSome ∨ !x.serves then s.done c 0x0302 (chanCode x.st)
    else
      let y := x.startCopy (c.n 3)
      if y.copy.isNone ∨ x.reserveRank = c.n 3 ∨ x.ranks < c.n 3 then s.done c 0x0105
      else (s.setChan (c.n 2) y).waitFor c (.rankCopy (c.n 2))) s
/-- Direction 0: address to channel and position; 1: back. A tenant sees its own grant only. -/
def execAddrDecode (p : Slot) (k : Fin 16) (s : State) : Out :=
  stakeRow p k 0x0304 (fun s c =>
    let pa := s.decodePa c
    if s.installed ≤ pa then s.done c 0x0204
    else if c.n 2 = 0 then s.done c 0 0 [w64 (channelOf (pa / 64)), Config.position (pa / 64)]
    else s.done c 0 0 [w64 pa]) s
def execScrubPeriod (p : Slot) (k : Fin 16) (s : State) : Out :=
  stakeRow p k 0x0305 (fun s c => (s.modStake fun m => { m with scrub := c.n 2 }).done c 0) s
def execDisturbSet (p : Slot) (k : Fin 16) (s : State) : Out :=
  stakeRow p k 0x0306 (fun s c => (s.modStake fun m => { m with mitigation := c.n 2, throttle := c.n 3 }).done c 0) s

/-- The slices a WAY_POWER names. -/
def powerSlices (n : Nat) : List Nat := if n = 0xFFFF then List.range 224 else [n]
/-- A power-down that leaves a creel with no powered way is refused; else the ways are cleaned, and the command waits
(07/R211, R212). A pair powered on again starts empty (R214), once no cleaning of it runs. -/
def State.wayPower (s : State) (c : Cmd) : State :=
  let sl := powerSlices (c.n 2)
  let pair := 3 * 4 ^ c.n 3
  let one := if c.n 2 = 0xFFFF then none else some (c.n 2)
  if c.n 4 = 1 then (sl.foldl (fun s i => let x := s.slice i; s.setSlice i { x with off := without x.off pair }) s).done c 0
  else if (List.range 64).any fun n => (s.creel n).st != .unassigned &&
      (s.noPowered (s.creel n).wayMask (fun i => if sl.contains i then pair else 0) ||
        (match s.heldWays n with | some h => s.noPowered h.1 (fun i => if sl.contains i then pair else 0) | none => false)) then s.done c 0x0105
  else
    let s := sl.foldl (fun s i => let x := s.slice i; s.setSlice i { x with powerCleaning := x.powerCleaning ||| without pair x.off }) s
    if s.slicesClean one then s.done c 0 else s.waitFor c (.cleaning one)
def execWayPower (p : Slot) (k : Fin 16) (s : State) : Out :=
  stakeRowW (fun s c => c.n 4 = 0 || (powerSlices (c.n 2)).all fun i => (s.slice i).powerCleaning &&& (3 * 4 ^ c.n 3) == 0) p.val k.val 0x0307
    State.wayPower s
def execQosCounterReset (p : Slot) (k : Fin 16) (s : State) : Out :=
  stakeRow p k 0x0308 (fun s c =>
    ((List.range 16).foldl (fun s i => s.modChan i fun x =>
      let q := x.qstat (c.n 2)
      { x with stat := x.stat.set (c.n 2) { q with misses := 0, hammer := 0 } }) s).done c 0) s

/-! ## The reserve report (19/R557) -/

def bitCount (n width : Nat) : Nat := ((List.range width).filter fun i => n.testBit i).length
def sumOver (n : Nat) (f : Nat → Nat) : Nat := (List.range n).foldl (fun a i => a + f i) 0
def satTo (w v : Nat) : Nat := min v (2 ^ w - 1)
def reportWord (r : Retired) : W64 :=
  w64 (r.kind % 256 * 2 ^ 56 + r.old % 4096 * 2 ^ 44 + r.new % 4096 * 2 ^ 32 + r.sec % 2 ^ 32)
/-- The lowest margin; a free value while no sample has been taken. -/
def State.minMargin (s : State) : Nat :=
  match s.reserve.margins with
  | [] => s.drawn .measured
  | (_, m) :: r => r.foldl (fun a p => min a p.2) m
def State.reserveWords (s : State) : List W64 :=
  let r := s.reserve
  let w0 := satTo 8 r.stopped * 2 ^ 32 + sumOver 4 fun d => satTo 8 ((s.coreTile.filter fun p => p.2 / 56 == d && 48 ≤ p.2 % 56).length) * 2 ^ (8 * d)
  let w1 := satTo 16 (sumOver 224 fun i => bitCount (s.slice i).retired 16) * 2 ^ 32 +
    satTo 16 (sumOver 224 fun i => b2n ((s.slice i).reserveUsed == 2)) * 2 ^ 16 + satTo 16 (sumOver 224 fun i => (s.slice i).reserveUsed)
  let w2 := satTo 8 (sumOver 32 fun b => b2n (decide (2 < s.bridges.get 0 b))) * 2 ^ 16 + satTo 16 (sumOver 32 fun b => min 2 (s.bridges.get 0 b))
  let w3 := satTo 32 r.rows * 2 ^ 32 + satTo 8 (sumOver 16 fun i => b2n (s.chan i).reserveFailed) * 2 ^ 24 +
    satTo 8 (sumOver 16 fun i => b2n (s.chan i).outOfService.isSome) * 2 ^ 16 + (if s.pair.st = 0 then 0 else 8 - bitCount s.pair.up 8) * 2 ^ 8 +
    bitCount s.pair.resv 8
  let w4 := satTo 16 (r.flash.get 0 1) * 2 ^ 40 + satTo 16 (r.flash.get 0 0) * 2 ^ 24 + satTo 4 r.plaiter * 2 ^ 16 +
    sumOver 4 fun c => satTo 4 (r.hamper.get 0 c) * 2 ^ (4 * c)
  let last := match r.recent with | [] => 0 | e :: _ => e.sec % 2 ^ 32
  let w5 := last * 2 ^ 32 + satTo 16 s.minMargin * 2 ^ 16 + satTo 8 ((r.margins.filter fun p => 75 ≤ p.2 ∧ p.2 ≤ 85).length) * 2 ^ 8 + b2n r.baseOk
  let rest := (List.range 16).map fun i => match r.recent[i]? with | some e => reportWord e | none => 0
  [w64 w0, w64 w1, w64 w2, w64 w3, w64 w4, w64 w5] ++ rest
def execReserveReport (p : Slot) (k : Fin 16) (s : State) : Out :=
  stakeRow p k 0x0401 (fun s c => s.spend.done c 0 0 s.reserveWords) s
def execCoreMap (p : Slot) (k : Fin 16) (s : State) : Out :=
  stakeRow p k 0x0402 (fun s c =>
    s.done c 0 (s.tileOf (c.n 2))) s
def execMeasureRead (p : Slot) (k : Fin 16) (s : State) : Out :=
  stakeRow p k 0x0800 (fun s c =>
    s.done c 0 0 ((Config.measureRecord ((List.range 8).map fun i => s.stake.meas.get (zeros 48) i)).take 22)) s

end Sys2Proof.Machine
end

