-- ==== Sys2Proof/Machine/System.lean ====
section
/-!
DEFINITION. The meanings of the system instructions (03/R95-R108, 20/R558), INTERRUPT_ENTRY and the returns.
-/
namespace Sys2Proof.Machine

/-! ## System registers -/

/-- The system registers a core has (03/R95, 20/R558). -/
def coreSys (n : Nat) : Bool :=
  decide (n ≤ 9) || (0x10 ≤ n && n ≤ 0x12) || (0x20 ≤ n && n ≤ 0x22) || n == 0x30 || n == 0x31 || n == 0x40 || n == 0x41 ||
    n == 0x80 || n == 0x81 || (0x88 ≤ n && n ≤ 0x99)
/-- The access at U that a core register allows (03/R95, 20/R558). -/
def coreSysU (c : Core) (n : Nat) (write : Bool) : Bool :=
  n == 0x11 || n == 0x30 || n == 0x31 || n == 0x98 || n == 0x99 ||
    (!write && tbit (c.sysr 0x80) 8 && (n == 0x81 || (0x88 ≤ n && n ≤ 0x97)))
def isPm (n : Nat) : Bool := 0x80 ≤ n && n ≤ 0x99
def State.coreSysRead (s : State) (n r : Nat) : W64 :=
  let c := s.core n
  match r with
  | 0x30 => w64 n
  | 0x31 => w64 ((s.creelOf n).getD 0)
  | 0x99 => w64 (c.leg.get 0 (c.sysr 0x98).toNat)
  | r => c.sysr r

/-- SYS_DFPC after a write: reserved rounding modes leave their field (03/R87, R88, R101). -/
def dfpcWrite (old v : W64) : W64 :=
  let v := setFld v 63 26 0
  let v := if fld v 2 0 = 7 then setFld v 2 0 (fld old 2 0) else v
  if 5 ≤ fld v 5 3 then setFld v 5 3 (fld old 5 3) else v
/-- SYS_IOFAULT after a write: pending and more are cleared by ones (03/R103). -/
def iofaultWrite (old v : W64) : W64 :=
  let w := setFld (setFld (setFld v 63 24 0) 15 11 0) 1 0 0
  setFld w 1 0 ((old &&& ~~~ v).toNat % 4)
/-- SYS_PMSEL_n after a write (20/R558). -/
def pmselWrite (n : Nat) (old v : W64) : W64 :=
  let w := setFld (setFld v 63 24 0) 19 8 0
  let w := if n = 7 then setFld w 23 23 0 else w
  if 0x3C ≤ fld v 7 0 then setFld w 7 0 (fld old 7 0) else w
/-- A write that takes effect at once, by the field maps (03/R99-R103, 17/R514, 20/R558). -/
def Core.sysWrite (c : Core) (r : Nat) (v : W64) : Core :=
  let old := c.sysr r
  if r = 1 then c.setSys 1 (setFld v 62 16 0)
  else if r = 4 then c.setSys 4 (setFld v 63 13 0)
  else if r = 0x10 then c.setSys r (setFld v 63 32 0)
  else if r = 0x11 then c.setSys r (dfpcWrite old v)
  else if r = 0x12 then c.setSys r (iofaultWrite old v)
  else if r = 0x41 then c.setSys r (setFld (setFld v 31 8 0) 4 4 0)
  else if r = 0x80 then c.setSys r (setFld (setFld (setFld v 63 32 0) 23 17 0) 15 9 0)
  else if r = 0x81 then c.setSys r (old &&& ~~~ v)
  else if 0x88 ≤ r ∧ r ≤ 0x8F then c.setSys r (pmselWrite (r - 0x88) old v)
  else if r = 0x98 then (if 48 ≤ fld v 5 0 then c else c.setSys r (w64 (fld v 5 0)))
  else if r = 0x30 ∨ r = 0x31 ∨ r = 0x99 then c
  else c.setSys r v
/-- The registers whose writes wait for ISYNC (03/R95). -/
def afterIsync (r : Nat) : Bool := r == 0 || r == 5 || (0x20 ≤ r && r ≤ 0x22)

def onPlaiter : SeqId → Bool | .plaiter _ _ => true | _ => false

/-- RDSYS (03/R95, R96). -/
def execRdsys (a : Agent) (q : PReg) (d : Reg) (n : BitVec 9) (s : State) : Out :=
  runInstr { agent := a, guard := q, writes := [d.toNat], events := [(0x0F, 1)], beats := 4 }
    (fun s _ =>
      let r := n.toNat
      match a with
      | .core k =>
        if !coreSys r then .exc s 1 none 0
        else if !(s.core k).priv && !coreSysU (s.core k) r false then .exc s 2 none 0
        else .done (s.wrG a d.toNat (s.coreSysRead k r)) []
      | .seq z =>
        let i := seqIx z
        let y := s.seq i
        if r = 0x11 then .done (s.wrG a d.toNat y.dfpc) []
        else if r = 0x31 ∧ onPlaiter z then .done (s.wrG a d.toNat (w64 ((s.seqCreel i).getD 0))) []
        else if r = 0x100 then .done (s.wrG a d.toNat y.modeWritten) []
        else if r = 0x101 then .done (s.wrG a d.toNat (match z with
            | .plaiter u k => w64 (u.val * 256 + k.val)
            | _ => Config.seqId i)) []
        else .exc s 1 none 0) s

/-- WRSYS (03/R95-R97, R105). The write of a counter register replaces a value that holds the events up to the WRSYS
itself (20/R561); a bit of SYS_PMOVF that the WRSYS's own events set is not lost to its clearing (00/R10). -/
def execWrsys (a : Agent) (q : PReg) (s1 : Reg) (n : BitVec 9) (s : State) : Out :=
  runInstr { agent := a, guard := q, reads := [s1.toNat], events := [(0x0F, 1)], beats := 4 }
    (fun s x =>
      let r := n.toNat
      let v := x.rd s1.toNat
      match a with
      | .core k =>
        if !coreSys r then .exc s 1 none 0
        else if !(s.core k).priv && !coreSysU (s.core k) r true then .exc s 2 none 0
        else if isPm r && r != 0x81 then
          let (s, sp) := s.specEvents []
          .counted (s.modCore k fun c => (c.count c.priv ((1, 1) :: (0x0F, 1) :: sp)).sysWrite r v)
        else if afterIsync r then
          .done (s.modCore k fun c => { c with pend := c.pend ++ [{ reg := r, val := v, mask := 0x1E }] }) []
        else .done (s.modCore k fun c => c.sysWrite r v) []
      | .seq z =>
        let i := seqIx z
        if r = 0x11 then .done (s.modSeq i fun y => { y with dfpc := dfpcWrite y.dfpc v }) []
        else if r = 0x100 then
          let w := setFld v 63 3 0
          let w := if isPlaiter i && s.hasJob (unitOf i) (seqLane i) && (s.job (unitOf i) (seqLane i)).sealed then setFld w 0 0 1 else w
          .done (s.modSeq i fun y => { y with modeWritten := w, modeQ := y.modeQ ++ [(3, w)] }) []
        else if r = 0x101 ∨ (r = 0x31 ∧ onPlaiter z) then .done s []
        else .exc s 1 none 0) s

/-! ## Traps, return and wait (03/R106, R110) -/

def execSyscall (a : Agent) (q : PReg) (s : State) : Out :=
  runInstr { agent := a, guard := q, coreOnly := true } (fun s _ => .exc s 0x0B none 0) s
def execBreak (a : Agent) (q : PReg) (s : State) : Out :=
  runInstr { agent := a, guard := q, coreOnly := true } (fun s _ => .exc s 0x0C none 0) s
/-- SYS_STATUS after ERET: priv = ppriv, ie = pie. -/
def eretStatus (st : W64) : W64 := setFld (setFld st 0 0 (fld st 2 2)) 1 1 (fld st 3 3)
/-- ERET, at S: pc = SYS_EPC with its low bits zero; level and ie are restored; nothing is checked at the target. A wait for
strict stores that an interrupt left goes on (05/R174). -/
def execEret (a : Agent) (q : PReg) (s : State) : Out :=
  runInstr { agent := a, guard := q, coreOnly := true, events := [(0x0F, 1)] }
    (fun s _ => match a with
      | .core n =>
        if !(s.core n).priv then .exc s 2 none 0
        else
          .jump (s.modCore n fun c =>
            { (c.overtake 0x1C).setSys 0 (eretStatus (c.sysr 0)) with ioFence := c.ioSaved, ioSaved := false })
            (vecTarget ((s.core n).sysr 2)) []
      | .seq _ => .wait s) s
/-- WAIT completes when any vector, S or U, is pending, whatever ie says; without one the core waits (03/R106, 17/R502). -/
def execWait (a : Agent) (q : PReg) (s : State) : Out :=
  runInstr { agent := a, guard := q, coreOnly := true, events := [(0x0F, 1)] }
    (fun s _ => match a with
      | .core n => if (s.core n).vecPending then .done s [] else .wait (s.modCore n fun c => { c with waiting := true })
      | .seq _ => .wait s) s
/-- An S vector pending at a running core with ie set is taken at an instruction boundary (17/R502, R503); a WAIT that has begun
completes first. -/
def execInterruptEntry (n : CoreId) (s : State) : Out :=
  let c := s.core n
  if c.run = .running ∧ c.parked = none ∧ c.dev = none then .next (if c.waiting then s.endWait n else s.boundary n)
  else .next s

/-! ## Keys, time, beats -/

def execWrpkey (a : Agent) (q : PReg) (s1 : Reg) (s : State) : Out :=
  runInstr { agent := a, guard := q, coreOnly := true, events := [(0x0F, 1), (0x23, 1)] }
    (fun s x => match a with
      | .core n => .done (s.modCore n fun c => c.setSys 0x10 ((x.rd s1.toNat).truncate 32 |>.zeroExtend 64)) []
      | .seq _ => .wait s) s
def execRdpkey (a : Agent) (q : PReg) (d : Reg) (s : State) : Out :=
  runInstr { agent := a, guard := q, coreOnly := true, events := [(0x0F, 1)] }
    (fun s _ => match a with
      | .core n => .done (s.wrG a d.toNat ((s.core n).sysr 0x10)) []
      | .seq _ => .wait s) s
/-- RDHOOP: seconds, then fraction and state, of one sample; d must be even (03/R106, R107). -/
def execRdhoop (a : Agent) (q : PReg) (d : Reg) (s : State) : Out :=
  runInstr { agent := a, guard := q, legal := !d.getLsbD 0, writes := [d.toNat, d.toNat + 1], events := [(0x0F, 1)], beats := 6 }
    (fun s _ =>
      let (s, sec, frac, st) := s.hoopRead
      .done ((s.wrG a d.toNat (w64 sec)).wrG a (d.toNat + 1) (w64 (frac % 2 ^ 32 + st % 4 * 2 ^ 32))) []) s
def execRdbeat (a : Agent) (q : PReg) (d : Reg) (s : State) : Out :=
  runInstr { agent := a, guard := q, writes := [d.toNat], events := [(0x0F, 1)] }
    (fun s _ => .done (s.wrG a d.toNat (match a with
      | .core n => (s.core n).beat
      | .seq z => (s.seq (seqIx z)).beats)) []) s

/-! ## Local invalidation (06/R192) -/

def tlbinv (a : Agent) (q : PReg) (keep : Ctx → TlbLeaf → Bool) (s : State) : Out :=
  runInstr { agent := a, guard := q, coreOnly := true, events := [(0x0F, 1)] }
    (fun s x => match a with
      | .core n => if !(s.core n).priv then .exc s 2 none 0 else .done (s.modCore n fun c => c.tlbinv (keep x)) []
      | .seq _ => .wait s) s
def execTlbinvAll (a : Agent) (q : PReg) (s : State) : Out := tlbinv a q (fun _ _ => false) s
def execTlbinvAsid (a : Agent) (q : PReg) (s1 : Reg) (s : State) : Out :=
  tlbinv a q (fun x e => pteG e.pte || e.asid != fld (x.rd s1.toNat) 15 0) s
def execTlbinvVa (a : Agent) (q : PReg) (s1 s2 : Reg) (s : State) : Out :=
  tlbinv a q (fun x e => !(e.covers (x.rd s1.toNat).toNat && (pteG e.pte || e.asid == fld (x.rd s2.toNat) 15 0))) s
def execTlbinvVaall (a : Agent) (q : PReg) (s1 : Reg) (s : State) : Out :=
  tlbinv a q (fun x e => !e.covers (x.rd s1.toNat).toNat) s

/-! ## Cache maintenance (03/R106, R108; 07/R219) -/

/-- The address is checked as a 1-byte load; a device region is left alone; buffered stores to the line drain first. `home`: a
.D form, which waits for a writeback of the line that is on its way to memory (R222). -/
def maint (a : Agent) (q : PReg) (s1 : Reg) (home : Bool) (f : State → Nat → Nat → Option Nat → State) (s : State) : Out :=
  runInstr { agent := a, guard := q, coreOnly := true, events := [(0x0F, 1)] }
    (fun s x => match a with
      | .core n =>
        let va := x.rd s1.toNat
        match s.translate n va .load false with
        | (s, .fault c, _) => .exc s 6 (some va) (einfoOf false 0 0 c)
        | (s, .poison pa, _) => .mc s 2 2 pa
        | (s, .ok _ _ (some c) _, _) => .exc s 6 (some va) (einfoOf false 0 0 c)
        | (s, .ok pa mt none _, _) =>
          if isDevType (s.effType pa mt) then .done s []
          else
            let s := s.drainOver n (upto (64 * lineOf pa) 64)
            if home && s.victimHeld (lineOf pa) then .wait (s.victimIssue (lineOf pa))
            else .done (f s (s.tileOf n) (lineOf pa) (s.creelOf n)) []
      | .seq _ => .wait s) s
def execCleanP (a : Agent) (q : PReg) (s1 : Reg) (s : State) : Out := maint a q s1 false (fun s t l cr => s.cleanTile t l false cr) s
def execFlushP (a : Agent) (q : PReg) (s1 : Reg) (s : State) : Out := maint a q s1 false (fun s t l cr => s.cleanTile t l true cr) s
def execCleanD (a : Agent) (q : PReg) (s1 : Reg) (s : State) : Out := maint a q s1 true (fun s _ l _ => s.cleanAll l false) s
def execFlushD (a : Agent) (q : PReg) (s1 : Reg) (s : State) : Out := maint a q s1 true (fun s _ l _ => s.cleanAll l true) s

end Sys2Proof.Machine
end

