-- ==== Sys2Proof/Machine/Vector.lean ====
section
/-!
DEFINITION. The meanings of the vector instructions and the cryptographic assists (03/R92-R94). They are core only.
-/
namespace Sys2Proof.Machine

/-! ## Lanes -/

def laneBits : VWidth → Nat | .b => 8 | .h => 16 | .w => 32 | .d => 64
/-- Lane i of a vector of lanes of w bits, as a number. -/
def lane (v : W256) (w i : Nat) : Nat := v.toNat / 2 ^ (w * i) % 2 ^ w
/-- The vector that lanes of w bits spell, lane 0 lowest. -/
def ofLanes (w : Nat) (l : List Nat) : W256 := BitVec.ofNat 256 (l.foldr (fun x a => x % 2 ^ w + 2 ^ w * a) 0)
def signOf (w x : Nat) : Int := if x < 2 ^ (w - 1) then x else (x : Int) - 2 ^ w
def mapLanes2 (w : Nat) (f : Nat → Nat → Nat) (a b : W256) : W256 :=
  ofLanes w ((List.range (256 / w)).map fun i => f (lane a w i) (lane b w i))
def mapLanes (w : Nat) (f : Nat → Nat) (a : W256) : W256 := mapLanes2 w (fun x _ => f x) a a
def maskOf (w : Nat) (b : Bool) : Nat := if b then 2 ^ w - 1 else 0

def State.vrd (s : State) (a : Agent) (r : VReg) : W256 :=
  match a with | .core n => (s.core n).vr r.toNat | .seq _ => 0
def State.vwr (s : State) (a : Agent) (r : VReg) (v : W256) : State :=
  match a with | .core n => s.modCore n fun c => { c with v := c.v.set r.toNat v } | .seq _ => s

/-- A vector instruction that writes v[d]. -/
def vop (a : Agent) (q : PReg) (legal : Bool) (d : VReg) (f : State → Ctx → W256) (s : State) : Out :=
  runInstr { agent := a, guard := q, coreOnly := true, legal := legal, events := [(0x0D, 1)] }
    (fun s x => .done (s.vwr a d (f s x)) []) s
def v2 (a : Agent) (q : PReg) (d s1 s2 : VReg) (f : W256 → W256 → W256) (s : State) : Out :=
  vop a q true d (fun s _ => f (s.vrd a s1) (s.vrd a s2)) s
def vl2 (a : Agent) (q : PReg) (e : VWidth) (d s1 s2 : VReg) (f : Nat → Nat → Nat → Nat) (s : State) : Out :=
  v2 a q d s1 s2 (mapLanes2 (laneBits e) (f (laneBits e))) s

def execVadd (a : Agent) (q : PReg) (e : VWidth) (d s1 s2 : VReg) (s : State) : Out := vl2 a q e d s1 s2 (fun _ x y => x + y) s
def execVsub (a : Agent) (q : PReg) (e : VWidth) (d s1 s2 : VReg) (s : State) : Out :=
  vl2 a q e d s1 s2 (fun w x y => x + (2 ^ w - y)) s
def execVmul (a : Agent) (q : PReg) (e : VWidth) (d s1 s2 : VReg) (s : State) : Out := vl2 a q e d s1 s2 (fun _ x y => x * y) s
def execVmin (a : Agent) (q : PReg) (e : VWidth) (d s1 s2 : VReg) (s : State) : Out :=
  vl2 a q e d s1 s2 (fun w x y => if signOf w x ≤ signOf w y then x else y) s
def execVmax (a : Agent) (q : PReg) (e : VWidth) (d s1 s2 : VReg) (s : State) : Out :=
  vl2 a q e d s1 s2 (fun w x y => if signOf w x ≤ signOf w y then y else x) s
def execVminu (a : Agent) (q : PReg) (e : VWidth) (d s1 s2 : VReg) (s : State) : Out :=
  vl2 a q e d s1 s2 (fun _ x y => if x ≤ y then x else y) s
def execVmaxu (a : Agent) (q : PReg) (e : VWidth) (d s1 s2 : VReg) (s : State) : Out :=
  vl2 a q e d s1 s2 (fun _ x y => if x ≤ y then y else x) s
def execVcmpeq (a : Agent) (q : PReg) (e : VWidth) (d s1 s2 : VReg) (s : State) : Out :=
  vl2 a q e d s1 s2 (fun w x y => maskOf w (x == y)) s
def execVand (a : Agent) (q : PReg) (d s1 s2 : VReg) (s : State) : Out := v2 a q d s1 s2 (· &&& ·) s
def execVor (a : Agent) (q : PReg) (d s1 s2 : VReg) (s : State) : Out := v2 a q d s1 s2 (· ||| ·) s
def execVxor (a : Agent) (q : PReg) (d s1 s2 : VReg) (s : State) : Out := v2 a q d s1 s2 (· ^^^ ·) s
def execVandn (a : Agent) (q : PReg) (d s1 s2 : VReg) (s : State) : Out := v2 a q d s1 s2 (fun x y => x &&& ~~~ y) s
/-- VSEL: the mask is in v[d]. -/
def execVsel (a : Agent) (q : PReg) (d s1 s2 : VReg) (s : State) : Out :=
  vop a q true d (fun s _ => (s.vrd a d &&& s.vrd a s1) ||| (~~~ (s.vrd a d) &&& s.vrd a s2)) s
def execVbcast (a : Agent) (q : PReg) (d : VReg) (s1 : Reg) (s : State) : Out :=
  vop a q true d (fun _ x => ofLanes 64 (List.replicate 4 (x.rd s1.toNat).toNat)) s
def execVins (a : Agent) (q : PReg) (d : VReg) (s1 : Reg) (l : BitVec 2) (s : State) : Out :=
  vop a q true d (fun s x => ofLanes 64 ((List.range 4).map fun i =>
    if i = l.toNat then (x.rd s1.toNat).toNat else lane (s.vrd a d) 64 i)) s
/-- A vector instruction that writes g[d]. -/
def vtoG (a : Agent) (q : PReg) (d : Reg) (f : State → Nat) (s : State) : Out :=
  runInstr { agent := a, guard := q, coreOnly := true, events := [(0x0D, 1)] }
    (fun s _ => .done (s.wrG a d.toNat (w64 (f s))) []) s
def execVext (a : Agent) (q : PReg) (d : Reg) (s1 : VReg) (l : BitVec 2) (s : State) : Out :=
  vtoG a q d (fun s => lane (s.vrd a s1) 64 l.toNat) s
def execVredaddD (a : Agent) (q : PReg) (d : Reg) (s1 : VReg) (s : State) : Out :=
  vtoG a q d (fun s => (List.range 4).foldl (fun t i => t + lane (s.vrd a s1) 64 i) 0) s
/-- The lane shifts: H, W and D lanes, amounts below the width; anything else is reserved (03/R92). -/
def vsh (a : Agent) (q : PReg) (e : VWidth) (d s1 : VReg) (n : BitVec 6) (f : Nat → Nat → Nat → Nat) (s : State) : Out :=
  vop a q (e != .b && decide (n.toNat < laneBits e)) d
    (fun s _ => mapLanes (laneBits e) (fun x => f (laneBits e) x n.toNat) (s.vrd a s1)) s
def execVslli (a : Agent) (q : PReg) (e : VWidth) (d s1 : VReg) (n : BitVec 6) (s : State) : Out :=
  vsh a q e d s1 n (fun _ x k => x * 2 ^ k) s
def execVsrli (a : Agent) (q : PReg) (e : VWidth) (d s1 : VReg) (n : BitVec 6) (s : State) : Out :=
  vsh a q e d s1 n (fun _ x k => x / 2 ^ k) s
def execVsrai (a : Agent) (q : PReg) (e : VWidth) (d s1 : VReg) (n : BitVec 6) (s : State) : Out :=
  vsh a q e d s1 n (fun w x k => ((signOf w x / 2 ^ k) % 2 ^ w).toNat) s
def execVpermB (a : Agent) (q : PReg) (d s1 s2 : VReg) (s : State) : Out :=
  v2 a q d s1 s2 (fun x y => mapLanes 8 (fun k => if 128 ≤ k then 0 else lane x 8 (k % 32)) y) s
def execVcmpgtD (a : Agent) (q : PReg) (d s1 s2 : VReg) (s : State) : Out :=
  v2 a q d s1 s2 (mapLanes2 64 fun x y => maskOf 64 (decide (signOf 64 y < signOf 64 x))) s
/-- VLD, VST: 32 bytes at g[s1] + g[s2] (03/R92, R93). -/
def execVld (a : Agent) (q : PReg) (d : VReg) (s1 s2 : Reg) (s : State) : Out :=
  runInstr { agent := a, guard := q, coreOnly := true, events := [(6, 1), (0x0D, 1)] }
    (fun s x => s.loadBy a (x.rd s1.toNat + x.rd s2.toNat) (.vec d.toNat) 0 true) s
def execVst (a : Agent) (q : PReg) (d : VReg) (s1 s2 : Reg) (s : State) : Out :=
  runInstr { agent := a, guard := q, coreOnly := true, events := [(7, 1), (0x0D, 1)] }
    (fun s x => s.storeBy a (x.rd s1.toNat + x.rd s2.toNat) ((List.range 32).map fun i => BitVec.ofNat 8 (lane (s.vrd a d) 8 i)) 0 true) s

/-! ## Floating-point lanes: the flags of all lanes together (03/R92) -/

def vf (a : Agent) (q : PReg) (w : Nat) (d : VReg) (op : Nat → State → Nat → Nat × Nat) (s : State) : Out :=
  runInstr { agent := a, guard := q, coreOnly := true, events := [(0x0D, 1)] }
    (fun s _ =>
      let rs := (List.range (256 / w)).map (op (brm (s.dfpc a)) s)
      s.fpDone a binaryFlags (rs.foldl (fun t r => t ||| r.2) 0) fun s => s.vwr a d (ofLanes w (rs.map (·.1)))) s
def vf2 (a : Agent) (q : PReg) (f : FpFmt) (d s1 s2 : VReg) (op : BinFmt → Nat → Nat → Nat → Nat × Nat) (s : State) : Out :=
  let w := (fmtOf f).width
  vf a q w d (fun rm s i => op (fmtOf f) rm (lane (s.vrd a s1) w i) (lane (s.vrd a s2) w i)) s
def execVfadd (a : Agent) (q : PReg) (f : FpFmt) (d s1 s2 : VReg) (s : State) : Out := vf2 a q f d s1 s2 binAdd s
def execVfsub (a : Agent) (q : PReg) (f : FpFmt) (d s1 s2 : VReg) (s : State) : Out := vf2 a q f d s1 s2 binSub s
def execVfmul (a : Agent) (q : PReg) (f : FpFmt) (d s1 s2 : VReg) (s : State) : Out := vf2 a q f d s1 s2 binMul s
def execVfdiv (a : Agent) (q : PReg) (f : FpFmt) (d s1 s2 : VReg) (s : State) : Out := vf2 a q f d s1 s2 binDiv s
def execVfma (a : Agent) (q : PReg) (f : FpFmt) (d s1 s2 : VReg) (s : State) : Out :=
  let w := (fmtOf f).width
  vf a q w d (fun rm s i => binFma (fmtOf f) rm (lane (s.vrd a s1) w i) (lane (s.vrd a s2) w i) (lane (s.vrd a d) w i)) s
def execVfmin (a : Agent) (q : PReg) (f : FpFmt) (d s1 s2 : VReg) (s : State) : Out :=
  vf2 a q f d s1 s2 (fun t _ x y => binMinMax t false x y) s
def execVfmax (a : Agent) (q : PReg) (f : FpFmt) (d s1 s2 : VReg) (s : State) : Out :=
  vf2 a q f d s1 s2 (fun t _ x y => binMinMax t true x y) s
def execVfcmplt (a : Agent) (q : PReg) (f : FpFmt) (d s1 s2 : VReg) (s : State) : Out :=
  vf2 a q f d s1 s2 (fun t _ x y =>
    let r := quietCmp 2 (t.decode x) (t.decode y)
    (maskOf t.width (r.1 == 1), r.2)) s
def vf1 (a : Agent) (q : PReg) (w : Nat) (d s1 : VReg) (op : Nat → Nat → Nat × Nat) (s : State) : Out :=
  vf a q w d (fun rm s i => op rm (lane (s.vrd a s1) w i)) s
def execVcvtSW (a : Agent) (q : PReg) (d s1 : VReg) (s : State) : Out :=
  vf1 a q 32 d s1 (fun rm x => binFromInt b32 rm (signOf 32 x)) s
def execVcvtWS (a : Agent) (q : PReg) (d s1 : VReg) (s : State) : Out := vf1 a q 32 d s1 (fun rm x => binToInt b32 rm 32 x) s
def execVcvtDL (a : Agent) (q : PReg) (d s1 : VReg) (s : State) : Out :=
  vf1 a q 64 d s1 (fun rm x => binFromInt b64 rm (signOf 64 x)) s
def execVcvtLD (a : Agent) (q : PReg) (d s1 : VReg) (s : State) : Out := vf1 a q 64 d s1 (fun rm x => binToInt b64 rm 64 x) s

/-! ## Cryptographic assists (03/R94) -/

def cop (a : Agent) (q : PReg) (d s1 s2 : VReg) (f : W256 → W256 → W256) (s : State) : Out :=
  runInstr { agent := a, guard := q, coreOnly := true, events := [(0x0E, 1)] }
    (fun s _ => .done (s.vwr a d (f (s.vrd a s1) (s.vrd a s2))) []) s
/-- An AES transform of each 128-bit half: the bytes of a half in order from its lowest. -/
def aesHalves (f : Bytes → Bytes → Bytes) (x k : W256) : W256 :=
  let half := fun (v : W256) (h : Nat) => (List.range 16).map fun i => BitVec.ofNat 8 (lane v 8 (16 * h + i))
  ofLanes 8 ((f (half x 0) (half k 0) ++ f (half x 1) (half k 1)).map (·.toNat))
def execAese (a : Agent) (q : PReg) (d s1 s2 : VReg) (s : State) : Out :=
  cop a q d s1 s2 (aesHalves fun x k => xorBytes (mixColumns (shiftRows (x.map sbox))) k) s
def execAesel (a : Agent) (q : PReg) (d s1 s2 : VReg) (s : State) : Out :=
  cop a q d s1 s2 (aesHalves fun x k => xorBytes (shiftRows (x.map sbox)) k) s
def execAesd (a : Agent) (q : PReg) (d s1 s2 : VReg) (s : State) : Out :=
  cop a q d s1 s2 (aesHalves fun x k => xorBytes (mixColumnsInv (shiftRowsInv (x.map sboxInv))) k) s
def execAesdl (a : Agent) (q : PReg) (d s1 s2 : VReg) (s : State) : Out :=
  cop a q d s1 s2 (aesHalves fun x k => xorBytes (shiftRowsInv (x.map sboxInv)) k) s
def execAesimc (a : Agent) (q : PReg) (d s1 : VReg) (s : State) : Out :=
  cop a q d s1 s1 (aesHalves fun x _ => mixColumnsInv x) s
/-- The carry-less product. -/
def clmul (a b : W64) : Nat :=
  (List.range 64).foldl (fun t i => if b.getLsbD i then t ^^^ (a.toNat <<< i) else t) 0
def cg (a : Agent) (q : PReg) (d s1 s2 : Reg) (f : W64 → W64 → W64) (s : State) : Out :=
  form3 a q d s1 s2 true [(0x0E, 1)] 3 f s
def execClmul (a : Agent) (q : PReg) (d s1 s2 : Reg) (s : State) : Out := cg a q d s1 s2 (fun x y => w64 (clmul x y)) s
def execClmulh (a : Agent) (q : PReg) (d s1 s2 : Reg) (s : State) : Out :=
  cg a q d s1 s2 (fun x y => w64 (clmul x y / 2 ^ 64)) s
/-- The small sigma functions (FIPS 180-4). -/
def sigma256 (r1 r2 sh : Nat) (x : W32) : W32 := x.rotateRight r1 ^^^ x.rotateRight r2 ^^^ (x >>> sh)
def sigma512 (r1 r2 sh : Nat) (x : W64) : W64 := x.rotateRight r1 ^^^ x.rotateRight r2 ^^^ (x >>> sh)
def ms256 (r1 r2 sh : Nat) : W256 → W256 → W256 := mapLanes2 32 fun x y => x + (sigma256 r1 r2 sh (BitVec.ofNat 32 y)).toNat
def ms512 (r1 r2 sh : Nat) : W256 → W256 → W256 := mapLanes2 64 fun x y => x + (sigma512 r1 r2 sh (BitVec.ofNat 64 y)).toNat
def execSha256ms0 (a : Agent) (q : PReg) (d s1 s2 : VReg) (s : State) : Out := cop a q d s1 s2 (ms256 7 18 3) s
def execSha256ms1 (a : Agent) (q : PReg) (d s1 s2 : VReg) (s : State) : Out := cop a q d s1 s2 (ms256 17 19 10) s
def execSha512ms0 (a : Agent) (q : PReg) (d s1 s2 : VReg) (s : State) : Out := cop a q d s1 s2 (ms512 1 8 7) s
def execSha512ms1 (a : Agent) (q : PReg) (d s1 s2 : VReg) (s : State) : Out := cop a q d s1 s2 (ms512 19 61 6) s

end Sys2Proof.Machine
end

