-- ==== Sys2Proof/Machine/Dispatch.lean ====
section
/-!
DEFINITION. The meaning of every command: one arm per constructor of `Instr`, each a call of its meaning.
-/
namespace Sys2Proof.Machine

def exec (i : Instr) (s : State) : Host.Outcome State Fault Refusal :=
  match i with
  | .add a q d s1 s2 => Sys2Proof.Machine.execAdd a q d s1 s2 s
  | .sub a q d s1 s2 => Sys2Proof.Machine.execSub a q d s1 s2 s
  | .and a q d s1 s2 => Sys2Proof.Machine.execAnd a q d s1 s2 s
  | .or a q d s1 s2 => Sys2Proof.Machine.execOr a q d s1 s2 s
  | .xor a q d s1 s2 => Sys2Proof.Machine.execXor a q d s1 s2 s
  | .andn a q d s1 s2 => Sys2Proof.Machine.execAndn a q d s1 s2 s
  | .orn a q d s1 s2 => Sys2Proof.Machine.execOrn a q d s1 s2 s
  | .xnor a q d s1 s2 => Sys2Proof.Machine.execXnor a q d s1 s2 s
  | .sll a q d s1 s2 => Sys2Proof.Machine.execSll a q d s1 s2 s
  | .srl a q d s1 s2 => Sys2Proof.Machine.execSrl a q d s1 s2 s
  | .sra a q d s1 s2 => Sys2Proof.Machine.execSra a q d s1 s2 s
  | .rol a q d s1 s2 => Sys2Proof.Machine.execRol a q d s1 s2 s
  | .ror a q d s1 s2 => Sys2Proof.Machine.execRor a q d s1 s2 s
  | .addw a q d s1 s2 => Sys2Proof.Machine.execAddw a q d s1 s2 s
  | .subw a q d s1 s2 => Sys2Proof.Machine.execSubw a q d s1 s2 s
  | .mul a q d s1 s2 => Sys2Proof.Machine.execMul a q d s1 s2 s
  | .mulhs a q d s1 s2 => Sys2Proof.Machine.execMulhs a q d s1 s2 s
  | .mulhu a q d s1 s2 => Sys2Proof.Machine.execMulhu a q d s1 s2 s
  | .div a q d s1 s2 => Sys2Proof.Machine.execDiv a q d s1 s2 s
  | .divu a q d s1 s2 => Sys2Proof.Machine.execDivu a q d s1 s2 s
  | .rem a q d s1 s2 => Sys2Proof.Machine.execRem a q d s1 s2 s
  | .remu a q d s1 s2 => Sys2Proof.Machine.execRemu a q d s1 s2 s
  | .min a q d s1 s2 => Sys2Proof.Machine.execMin a q d s1 s2 s
  | .max a q d s1 s2 => Sys2Proof.Machine.execMax a q d s1 s2 s
  | .minu a q d s1 s2 => Sys2Proof.Machine.execMinu a q d s1 s2 s
  | .maxu a q d s1 s2 => Sys2Proof.Machine.execMaxu a q d s1 s2 s
  | .clz a q d s1 => Sys2Proof.Machine.execClz a q d s1 s
  | .ctz a q d s1 => Sys2Proof.Machine.execCtz a q d s1 s
  | .popc a q d s1 => Sys2Proof.Machine.execPopc a q d s1 s
  | .bswap a q d s1 => Sys2Proof.Machine.execBswap a q d s1 s
  | .sextb a q d s1 => Sys2Proof.Machine.execSextb a q d s1 s
  | .sexth a q d s1 => Sys2Proof.Machine.execSexth a q d s1 s
  | .sextw a q d s1 => Sys2Proof.Machine.execSextw a q d s1 s
  | .zextb a q d s1 => Sys2Proof.Machine.execZextb a q d s1 s
  | .zexth a q d s1 => Sys2Proof.Machine.execZexth a q d s1 s
  | .zextw a q d s1 => Sys2Proof.Machine.execZextw a q d s1 s
  | .movpg a q d => Sys2Proof.Machine.execMovpg a q d s
  | .movgp a q s1 => Sys2Proof.Machine.execMovgp a q s1 s
  | .addi a q d s1 imm => Sys2Proof.Machine.execAddi a q d s1 imm s
  | .andi a q d s1 imm => Sys2Proof.Machine.execAndi a q d s1 imm s
  | .ori a q d s1 imm => Sys2Proof.Machine.execOri a q d s1 imm s
  | .xori a q d s1 imm => Sys2Proof.Machine.execXori a q d s1 imm s
  | .slli a q d s1 n => Sys2Proof.Machine.execSlli a q d s1 n s
  | .srli a q d s1 n => Sys2Proof.Machine.execSrli a q d s1 n s
  | .srai a q d s1 n => Sys2Proof.Machine.execSrai a q d s1 n s
  | .rori a q d s1 n => Sys2Proof.Machine.execRori a q d s1 n s
  | .ldi a q d imm => Sys2Proof.Machine.execLdi a q d imm s
  | .shi a q d imm => Sys2Proof.Machine.execShi a q d imm s
  | .cmpEq a q pt pf s1 s2 => Sys2Proof.Machine.execCmpEq a q pt pf s1 s2 s
  | .cmpNe a q pt pf s1 s2 => Sys2Proof.Machine.execCmpNe a q pt pf s1 s2 s
  | .cmpLt a q pt pf s1 s2 u => Sys2Proof.Machine.execCmpLt a q pt pf s1 s2 u s
  | .cmpGe a q pt pf s1 s2 u => Sys2Proof.Machine.execCmpGe a q pt pf s1 s2 u s
  | .cmpTst a q pt pf s1 s2 => Sys2Proof.Machine.execCmpTst a q pt pf s1 s2 s
  | .pand a q pt pf pa pb => Sys2Proof.Machine.execPand a q pt pf pa pb s
  | .por a q pt pf pa pb => Sys2Proof.Machine.execPor a q pt pf pa pb s
  | .pxor a q pt pf pa pb => Sys2Proof.Machine.execPxor a q pt pf pa pb s
  | .pandn a q pt pf pa pb => Sys2Proof.Machine.execPandn a q pt pf pa pb s
  | .br a q disp => Sys2Proof.Machine.execBr a q disp s
  | .call a q disp => Sys2Proof.Machine.execCall a q disp s
  | .jmpr a q s1 => Sys2Proof.Machine.execJmpr a q s1 s
  | .callr a q s1 => Sys2Proof.Machine.execCallr a q s1 s
  | .ret a q s1 => Sys2Proof.Machine.execRet a q s1 s
  | .loop a q d n => Sys2Proof.Machine.execLoop a q d n s
  | .illegalInstruction a word => Sys2Proof.Machine.execIllegalInstruction a word s
  | .ldb a q data base off mark => Sys2Proof.Machine.execLdb a q data base off mark s
  | .ldbu a q data base off mark => Sys2Proof.Machine.execLdbu a q data base off mark s
  | .ldh a q data base off mark => Sys2Proof.Machine.execLdh a q data base off mark s
  | .ldhu a q data base off mark => Sys2Proof.Machine.execLdhu a q data base off mark s
  | .ldw a q data base off mark => Sys2Proof.Machine.execLdw a q data base off mark s
  | .ldwu a q data base off mark => Sys2Proof.Machine.execLdwu a q data base off mark s
  | .ldd a q data base off mark => Sys2Proof.Machine.execLdd a q data base off mark s
  | .stb a q data base off mark => Sys2Proof.Machine.execStb a q data base off mark s
  | .sth a q data base off mark => Sys2Proof.Machine.execSth a q data base off mark s
  | .stw a q data base off mark => Sys2Proof.Machine.execStw a q data base off mark s
  | .std a q data base off mark => Sys2Proof.Machine.execStd a q data base off mark s
  | .ldp a q data base off mark => Sys2Proof.Machine.execLdp a q data base off mark s
  | .stp a q data base off mark => Sys2Proof.Machine.execStp a q data base off mark s
  | .swap a q d s1 s2 mark => Sys2Proof.Machine.execSwap a q d s1 s2 mark s
  | .atomicAdd a q d s1 s2 mark => Sys2Proof.Machine.execAtomicAdd a q d s1 s2 mark s
  | .atomicAnd a q d s1 s2 mark => Sys2Proof.Machine.execAtomicAnd a q d s1 s2 mark s
  | .atomicOr a q d s1 s2 mark => Sys2Proof.Machine.execAtomicOr a q d s1 s2 mark s
  | .atomicXor a q d s1 s2 mark => Sys2Proof.Machine.execAtomicXor a q d s1 s2 mark s
  | .atomicMin a q d s1 s2 mark => Sys2Proof.Machine.execAtomicMin a q d s1 s2 mark s
  | .atomicMax a q d s1 s2 mark => Sys2Proof.Machine.execAtomicMax a q d s1 s2 mark s
  | .atomicMinu a q d s1 s2 mark => Sys2Proof.Machine.execAtomicMinu a q d s1 s2 mark s
  | .atomicMaxu a q d s1 s2 mark => Sys2Proof.Machine.execAtomicMaxu a q d s1 s2 mark s
  | .cas a q data base off mark => Sys2Proof.Machine.execCas a q data base off mark s
  | .cas16 a q data base off mark => Sys2Proof.Machine.execCas16 a q data base off mark s
  | .fence a q => Sys2Proof.Machine.execFence a q s
  | .fenceIo a q => Sys2Proof.Machine.execFenceIo a q s
  | .fenceSt a q => Sys2Proof.Machine.execFenceSt a q s
  | .fenceSpec a q => Sys2Proof.Machine.execFenceSpec a q s
  | .isync a q => Sys2Proof.Machine.execIsync a q s
  | .pbar a q => Sys2Proof.Machine.execPbar a q s
  | .pflush a q => Sys2Proof.Machine.execPflush a q s
  | .fadd a q f d s1 s2 => Sys2Proof.Machine.execFadd a q f d s1 s2 s
  | .fsub a q f d s1 s2 => Sys2Proof.Machine.execFsub a q f d s1 s2 s
  | .fmul a q f d s1 s2 => Sys2Proof.Machine.execFmul a q f d s1 s2 s
  | .fdiv a q f d s1 s2 => Sys2Proof.Machine.execFdiv a q f d s1 s2 s
  | .fma a q f d s1 s2 => Sys2Proof.Machine.execFma a q f d s1 s2 s
  | .fmin a q f d s1 s2 => Sys2Proof.Machine.execFmin a q f d s1 s2 s
  | .fmax a q f d s1 s2 => Sys2Proof.Machine.execFmax a q f d s1 s2 s
  | .fsqrt a q f d s1 => Sys2Proof.Machine.execFsqrt a q f d s1 s
  | .fcmp a q f d s1 s2 => Sys2Proof.Machine.execFcmp a q f d s1 s2 s
  | .fcvtDL a q f d s1 => Sys2Proof.Machine.execFcvtDL a q f d s1 s
  | .fcvtLD a q f d s1 => Sys2Proof.Machine.execFcvtLD a q f d s1 s
  | .fcvtDS a q d s1 => Sys2Proof.Machine.execFcvtDS a q d s1 s
  | .fcvtSD a q d s1 => Sys2Proof.Machine.execFcvtSD a q d s1 s
  | .fclass a q f d s1 => Sys2Proof.Machine.execFclass a q f d s1 s
  | .dadd a q f d s1 s2 => Sys2Proof.Machine.execDadd a q f d s1 s2 s
  | .dsub a q f d s1 s2 => Sys2Proof.Machine.execDsub a q f d s1 s2 s
  | .dmul a q f d s1 s2 => Sys2Proof.Machine.execDmul a q f d s1 s2 s
  | .ddiv a q f d s1 s2 => Sys2Proof.Machine.execDdiv a q f d s1 s2 s
  | .dqua a q f d s1 s2 => Sys2Proof.Machine.execDqua a q f d s1 s2 s
  | .drint a q f d s1 => Sys2Proof.Machine.execDrint a q f d s1 s
  | .dcmp a q f d s1 s2 => Sys2Proof.Machine.execDcmp a q f d s1 s2 s
  | .dfromi a q f d s1 => Sys2Proof.Machine.execDfromi a q f d s1 s
  | .dtoi a q f d s1 => Sys2Proof.Machine.execDtoi a q f d s1 s
  | .dgetexp a q f d s1 => Sys2Proof.Machine.execDgetexp a q f d s1 s
  | .dwiden a q d s1 => Sys2Proof.Machine.execDwiden a q d s1 s
  | .dnarrow a q d s1 => Sys2Proof.Machine.execDnarrow a q d s1 s
  | .vadd a q e d s1 s2 => Sys2Proof.Machine.execVadd a q e d s1 s2 s
  | .vsub a q e d s1 s2 => Sys2Proof.Machine.execVsub a q e d s1 s2 s
  | .vmul a q e d s1 s2 => Sys2Proof.Machine.execVmul a q e d s1 s2 s
  | .vmin a q e d s1 s2 => Sys2Proof.Machine.execVmin a q e d s1 s2 s
  | .vmax a q e d s1 s2 => Sys2Proof.Machine.execVmax a q e d s1 s2 s
  | .vminu a q e d s1 s2 => Sys2Proof.Machine.execVminu a q e d s1 s2 s
  | .vmaxu a q e d s1 s2 => Sys2Proof.Machine.execVmaxu a q e d s1 s2 s
  | .vcmpeq a q e d s1 s2 => Sys2Proof.Machine.execVcmpeq a q e d s1 s2 s
  | .vand a q d s1 s2 => Sys2Proof.Machine.execVand a q d s1 s2 s
  | .vor a q d s1 s2 => Sys2Proof.Machine.execVor a q d s1 s2 s
  | .vxor a q d s1 s2 => Sys2Proof.Machine.execVxor a q d s1 s2 s
  | .vandn a q d s1 s2 => Sys2Proof.Machine.execVandn a q d s1 s2 s
  | .vsel a q d s1 s2 => Sys2Proof.Machine.execVsel a q d s1 s2 s
  | .vbcast a q d s1 => Sys2Proof.Machine.execVbcast a q d s1 s
  | .vins a q d s1 lane => Sys2Proof.Machine.execVins a q d s1 lane s
  | .vext a q d s1 lane => Sys2Proof.Machine.execVext a q d s1 lane s
  | .vslli a q e d s1 n => Sys2Proof.Machine.execVslli a q e d s1 n s
  | .vsrli a q e d s1 n => Sys2Proof.Machine.execVsrli a q e d s1 n s
  | .vsrai a q e d s1 n => Sys2Proof.Machine.execVsrai a q e d s1 n s
  | .vpermB a q d s1 s2 => Sys2Proof.Machine.execVpermB a q d s1 s2 s
  | .vredaddD a q d s1 => Sys2Proof.Machine.execVredaddD a q d s1 s
  | .vcmpgtD a q d s1 s2 => Sys2Proof.Machine.execVcmpgtD a q d s1 s2 s
  | .vld a q d s1 s2 => Sys2Proof.Machine.execVld a q d s1 s2 s
  | .vst a q d s1 s2 => Sys2Proof.Machine.execVst a q d s1 s2 s
  | .vfadd a q f d s1 s2 => Sys2Proof.Machine.execVfadd a q f d s1 s2 s
  | .vfsub a q f d s1 s2 => Sys2Proof.Machine.execVfsub a q f d s1 s2 s
  | .vfmul a q f d s1 s2 => Sys2Proof.Machine.execVfmul a q f d s1 s2 s
  | .vfdiv a q f d s1 s2 => Sys2Proof.Machine.execVfdiv a q f d s1 s2 s
  | .vfma a q f d s1 s2 => Sys2Proof.Machine.execVfma a q f d s1 s2 s
  | .vfmin a q f d s1 s2 => Sys2Proof.Machine.execVfmin a q f d s1 s2 s
  | .vfmax a q f d s1 s2 => Sys2Proof.Machine.execVfmax a q f d s1 s2 s
  | .vfcmplt a q f d s1 s2 => Sys2Proof.Machine.execVfcmplt a q f d s1 s2 s
  | .vcvtSW a q d s1 => Sys2Proof.Machine.execVcvtSW a q d s1 s
  | .vcvtWS a q d s1 => Sys2Proof.Machine.execVcvtWS a q d s1 s
  | .vcvtDL a q d s1 => Sys2Proof.Machine.execVcvtDL a q d s1 s
  | .vcvtLD a q d s1 => Sys2Proof.Machine.execVcvtLD a q d s1 s
  | .aese a q d s1 s2 => Sys2Proof.Machine.execAese a q d s1 s2 s
  | .aesel a q d s1 s2 => Sys2Proof.Machine.execAesel a q d s1 s2 s
  | .aesd a q d s1 s2 => Sys2Proof.Machine.execAesd a q d s1 s2 s
  | .aesdl a q d s1 s2 => Sys2Proof.Machine.execAesdl a q d s1 s2 s
  | .aesimc a q d s1 => Sys2Proof.Machine.execAesimc a q d s1 s
  | .clmul a q d s1 s2 => Sys2Proof.Machine.execClmul a q d s1 s2 s
  | .clmulh a q d s1 s2 => Sys2Proof.Machine.execClmulh a q d s1 s2 s
  | .sha256ms0 a q d s1 s2 => Sys2Proof.Machine.execSha256ms0 a q d s1 s2 s
  | .sha256ms1 a q d s1 s2 => Sys2Proof.Machine.execSha256ms1 a q d s1 s2 s
  | .sha512ms0 a q d s1 s2 => Sys2Proof.Machine.execSha512ms0 a q d s1 s2 s
  | .sha512ms1 a q d s1 s2 => Sys2Proof.Machine.execSha512ms1 a q d s1 s2 s
  | .rdsys a q d n => Sys2Proof.Machine.execRdsys a q d n s
  | .wrsys a q s1 n => Sys2Proof.Machine.execWrsys a q s1 n s
  | .syscall a q => Sys2Proof.Machine.execSyscall a q s
  | .break_ a q => Sys2Proof.Machine.execBreak a q s
  | .eret a q => Sys2Proof.Machine.execEret a q s
  | .wait a q => Sys2Proof.Machine.execWait a q s
  | .wrpkey a q s1 => Sys2Proof.Machine.execWrpkey a q s1 s
  | .rdpkey a q d => Sys2Proof.Machine.execRdpkey a q d s
  | .rdhoop a q d => Sys2Proof.Machine.execRdhoop a q d s
  | .rdbeat a q d => Sys2Proof.Machine.execRdbeat a q d s
  | .tlbinvAll a q => Sys2Proof.Machine.execTlbinvAll a q s
  | .tlbinvAsid a q s1 => Sys2Proof.Machine.execTlbinvAsid a q s1 s
  | .tlbinvVa a q s1 s2 => Sys2Proof.Machine.execTlbinvVa a q s1 s2 s
  | .tlbinvVaall a q s1 => Sys2Proof.Machine.execTlbinvVaall a q s1 s
  | .cleanP a q s1 => Sys2Proof.Machine.execCleanP a q s1 s
  | .cleanD a q s1 => Sys2Proof.Machine.execCleanD a q s1 s
  | .flushP a q s1 => Sys2Proof.Machine.execFlushP a q s1 s
  | .flushD a q s1 => Sys2Proof.Machine.execFlushD a q s1 s
  | .interruptEntry n => Sys2Proof.Machine.execInterruptEntry n s
  | .storeDrain n => Sys2Proof.Machine.execStoreDrain n s
  | .parkedLoad n => Sys2Proof.Machine.execParkedLoad n s
  | .memoryOrderReplay n loadAddr => Sys2Proof.Machine.execMemoryOrderReplay n loadAddr s
  | .cacheFill ag line fetch wrongPath err => Sys2Proof.Machine.execCacheFill ag line fetch wrongPath err s
  | .tableWalk n va kind wrongPath => Sys2Proof.Machine.execTableWalk n va kind wrongPath s
  | .sequencerMissFill a => Sys2Proof.Machine.execSequencerMissFill a s
  | .longLatencyCompletion a => Sys2Proof.Machine.execLongLatencyCompletion a s
  | .seqModeInForce a => Sys2Proof.Machine.execSeqModeInForce a s
  | .read ag line err => Sys2Proof.Machine.execRead ag line err s
  | .readForOwnership ag line => Sys2Proof.Machine.execReadForOwnership ag line s
  | .upgrade ag line => Sys2Proof.Machine.execUpgrade ag line s
  | .writeback ag line => Sys2Proof.Machine.execWriteback ag line s
  | .forwardedRead ag line => Sys2Proof.Machine.execForwardedRead ag line s
  | .invalidation ag line => Sys2Proof.Machine.execInvalidation ag line s
  | .victimWritebackAck slice line => Sys2Proof.Machine.execVictimWritebackAck slice line s
  | .wayRetirement slice way => Sys2Proof.Machine.execWayRetirement slice way s
  | .wayCleaningCompletion slice => Sys2Proof.Machine.execWayCleaningCompletion slice s
  | .wireGroupFailure base bridge => Sys2Proof.Machine.execWireGroupFailure base bridge s
  | .channelRead ch line port out latencyNs yielded sameRow => Sys2Proof.Machine.execChannelRead ch line port out latencyNs yielded sameRow s
  | .channelWrite ch line port sameRow => Sys2Proof.Machine.execChannelWrite ch line port sameRow s
  | .rowActivation ch bank row port => Sys2Proof.Machine.execRowActivation ch bank row port s
  | .refreshWindowEnd ch => Sys2Proof.Machine.execRefreshWindowEnd ch s
  | .scrub ch out => Sys2Proof.Machine.execScrub ch out s
  | .rowRepair ch bank row soft outs => Sys2Proof.Machine.execRowRepair ch bank row soft outs s
  | .rankCopyCompletion ch => Sys2Proof.Machine.execRankCopyCompletion ch s
  | .retraining ch rank begins passes temp fallbackFails => Sys2Proof.Machine.execRetraining ch rank begins passes temp fallbackFails s
  | .speedChangeDeferralExpiry => Sys2Proof.Machine.execSpeedChangeDeferralExpiry s
  | .throughputInterval ch port waiting belowShare => Sys2Proof.Machine.execThroughputInterval ch port waiting belowShare s
  | .mbxDoorbell p v slots => Sys2Proof.Machine.execMbxDoorbell p v slots s
  | .mbxCqCons p v => Sys2Proof.Machine.execMbxCqCons p v s
  | .commandAcceptance => Sys2Proof.Machine.execCommandAcceptance s
  | .mailboxCompletion p => Sys2Proof.Machine.execMailboxCompletion p s
  | .portSuspension p => Sys2Proof.Machine.execPortSuspension p s
  | .portSuspensionEnd p => Sys2Proof.Machine.execPortSuspensionEnd p s
  | .officerSessionOpen c0 c1 good0 good1 => Sys2Proof.Machine.execOfficerSessionOpen c0 c1 good0 good1 s
  | .officerSessionEnd removed => Sys2Proof.Machine.execOfficerSessionEnd removed s
  | .challengeLockoutEnd => Sys2Proof.Machine.execChallengeLockoutEnd s
  | .cardPoll card obj good => Sys2Proof.Machine.execCardPoll card obj good s
  | .approvalExpiry => Sys2Proof.Machine.execApprovalExpiry s
  | .auditorSessionOpen key => Sys2Proof.Machine.execAuditorSessionOpen key s
  | .auditorMessage a m => Sys2Proof.Machine.execAuditorMessage a m s
  | .auditorSessionEnd a closed => Sys2Proof.Machine.execAuditorSessionEnd a closed s
  | .echo p k => Sys2Proof.Machine.execEcho p k s
  | .deviceStatus p k => Sys2Proof.Machine.execDeviceStatus p k s
  | .logRead p k => Sys2Proof.Machine.execLogRead p k s
  | .sensorRead p k => Sys2Proof.Machine.execSensorRead p k s
  | .takeOwnership p k flashFault => Sys2Proof.Machine.execTakeOwnership p k flashFault s
  | .ceremonyOpen p k => Sys2Proof.Machine.execCeremonyOpen p k s
  | .ceremonyClose p k flashFault => Sys2Proof.Machine.execCeremonyClose p k flashFault s
  | .ownerLock p k => Sys2Proof.Machine.execOwnerLock p k s
  | .ownerUnlock p k => Sys2Proof.Machine.execOwnerUnlock p k s
  | .retire p k => Sys2Proof.Machine.execRetire p k s
  | .officerEnroll p k cert => Sys2Proof.Machine.execOfficerEnroll p k cert s
  | .patWrite p k => Sys2Proof.Machine.execPatWrite p k s
  | .patRead p k => Sys2Proof.Machine.execPatRead p k s
  | .debugUnlock p k => Sys2Proof.Machine.execDebugUnlock p k s
  | .credSet p k => Sys2Proof.Machine.execCredSet p k s
  | .creelAssign p k => Sys2Proof.Machine.execCreelAssign p k s
  | .grantSet p k => Sys2Proof.Machine.execGrantSet p k s
  | .creelRelease p k => Sys2Proof.Machine.execCreelRelease p k s
  | .creelQuota p k => Sys2Proof.Machine.execCreelQuota p k s
  | .waySet p k => Sys2Proof.Machine.execWaySet p k s
  | .qosSet p k => Sys2Proof.Machine.execQosSet p k s
  | .creelStart p k => Sys2Proof.Machine.execCreelStart p k s
  | .creelStop p k => Sys2Proof.Machine.execCreelStop p k s
  | .creelReset p k => Sys2Proof.Machine.execCreelReset p k s
  | .segmentSet p k => Sys2Proof.Machine.execSegmentSet p k s
  | .segmentRead p k => Sys2Proof.Machine.execSegmentRead p k s
  | .resourceAlloc p k => Sys2Proof.Machine.execResourceAlloc p k s
  | .resourceFree p k => Sys2Proof.Machine.execResourceFree p k s
  | .coreGate p k => Sys2Proof.Machine.execCoreGate p k s
  | .coreWake p k => Sys2Proof.Machine.execCoreWake p k s
  | .breachReset p k => Sys2Proof.Machine.execBreachReset p k s
  | .memStatus p k => Sys2Proof.Machine.execMemStatus p k s
  | .memSpeed p k => Sys2Proof.Machine.execMemSpeed p k s
  | .rankCopy p k => Sys2Proof.Machine.execRankCopy p k s
  | .addrDecode p k => Sys2Proof.Machine.execAddrDecode p k s
  | .scrubPeriod p k => Sys2Proof.Machine.execScrubPeriod p k s
  | .disturbSet p k => Sys2Proof.Machine.execDisturbSet p k s
  | .wayPower p k => Sys2Proof.Machine.execWayPower p k s
  | .qosCounterReset p k => Sys2Proof.Machine.execQosCounterReset p k s
  | .reserveReport p k => Sys2Proof.Machine.execReserveReport p k s
  | .coreMap p k => Sys2Proof.Machine.execCoreMap p k s
  | .measureRead p k => Sys2Proof.Machine.execMeasureRead p k s
  | .hoopStatus p k => Sys2Proof.Machine.execHoopStatus p k s
  | .hoopSources p k => Sys2Proof.Machine.execHoopSources p k s
  | .hoopPtp p k => Sys2Proof.Machine.execHoopPtp p k s
  | .hoopCal p k => Sys2Proof.Machine.execHoopCal p k s
  | .hoopSeconds p k => Sys2Proof.Machine.execHoopSeconds p k s
  | .hoopStep p k => Sys2Proof.Machine.execHoopStep p k s
  | .pairBegin p k serial verified shared storage gens => Sys2Proof.Machine.execPairBegin p k serial verified shared storage gens s
  | .pairStatus p k => Sys2Proof.Machine.execPairStatus p k s
  | .pairPolicy p k => Sys2Proof.Machine.execPairPolicy p k s
  | .pairRegion p k partnerOk => Sys2Proof.Machine.execPairRegion p k partnerOk s
  | .pairRole p k => Sys2Proof.Machine.execPairRole p k s
  | .pairWitness p k => Sys2Proof.Machine.execPairWitness p k s
  | .pairDissolve p k => Sys2Proof.Machine.execPairDissolve p k s
  | .updateStage p k => Sys2Proof.Machine.execUpdateStage p k s
  | .activate p k => Sys2Proof.Machine.execActivate p k s
  | .updateConfirm p k => Sys2Proof.Machine.execUpdateConfirm p k s
  | .updateReject p k => Sys2Proof.Machine.execUpdateReject p k s
  | .updateStatus p k => Sys2Proof.Machine.execUpdateStatus p k s
  | .configSave p k flashFault => Sys2Proof.Machine.execConfigSave p k flashFault s
  | .configRead p k => Sys2Proof.Machine.execConfigRead p k s
  | .creelBootSet p k => Sys2Proof.Machine.execCreelBootSet p k s
  | .deviceConfig p k => Sys2Proof.Machine.execDeviceConfig p k s
  | .updateWindow p k => Sys2Proof.Machine.execUpdateWindow p k s
  | .warmReset p k => Sys2Proof.Machine.execWarmReset p k s
  | .hrDoorbell r v => Sys2Proof.Machine.execHrDoorbell r v s
  | .hrCtrl r v => Sys2Proof.Machine.execHrCtrl r v s
  | .hrCqCons r v => Sys2Proof.Machine.execHrCqCons r v s
  | .descriptorTake r => Sys2Proof.Machine.execDescriptorTake r s
  | .hamperCompletion id => Sys2Proof.Machine.execHamperCompletion id s
  | .keyGen id consistent => Sys2Proof.Machine.execKeyGen id consistent s
  | .keyImport id => Sys2Proof.Machine.execKeyImport id s
  | .keyExport id => Sys2Proof.Machine.execKeyExport id s
  | .keyStore id => Sys2Proof.Machine.execKeyStore id s
  | .keyLoad id => Sys2Proof.Machine.execKeyLoad id s
  | .keyInfo id => Sys2Proof.Machine.execKeyInfo id s
  | .keyModify id => Sys2Proof.Machine.execKeyModify id s
  | .keyDestroy id => Sys2Proof.Machine.execKeyDestroy id s
  | .keyPublic id => Sys2Proof.Machine.execKeyPublic id s
  | .keyImportPublic id => Sys2Proof.Machine.execKeyImportPublic id s
  | .keyCombine id => Sys2Proof.Machine.execKeyCombine id s
  | .sessionOpen id => Sys2Proof.Machine.execSessionOpen id s
  | .sessionBind id => Sys2Proof.Machine.execSessionBind id s
  | .sessionClose id => Sys2Proof.Machine.execSessionClose id s
  | .sessionInfo id => Sys2Proof.Machine.execSessionInfo id s
  | .sessionExpiry n => Sys2Proof.Machine.execSessionExpiry n s
  | .symEcb id => Sys2Proof.Machine.execSymEcb id s
  | .symCbc id => Sys2Proof.Machine.execSymCbc id s
  | .symCtr id => Sys2Proof.Machine.execSymCtr id s
  | .symGcm id => Sys2Proof.Machine.execSymGcm id s
  | .symXts id => Sys2Proof.Machine.execSymXts id s
  | .symCmac id => Sys2Proof.Machine.execSymCmac id s
  | .pinTranslate id => Sys2Proof.Machine.execPinTranslate id s
  | .pinVerify id => Sys2Proof.Machine.execPinVerify id s
  | .emvArqcVerify id => Sys2Proof.Machine.execEmvArqcVerify id s
  | .emvArpc id => Sys2Proof.Machine.execEmvArpc id s
  | .arqcEntryExpiry cr => Sys2Proof.Machine.execArqcEntryExpiry cr s
  | .cvcGenerate id => Sys2Proof.Machine.execCvcGenerate id s
  | .cvcVerify id => Sys2Proof.Machine.execCvcVerify id s
  | .ff1Tokenise id => Sys2Proof.Machine.execFf1Tokenise id s
  | .ff1Detokenise id => Sys2Proof.Machine.execFf1Detokenise id s
  | .sign id => Sys2Proof.Machine.execSign id s
  | .verify id => Sys2Proof.Machine.execVerify id s
  | .kemEncap id => Sys2Proof.Machine.execKemEncap id s
  | .kemDecap id => Sys2Proof.Machine.execKemDecap id s
  | .hash id => Sys2Proof.Machine.execHash id s
  | .hmac id => Sys2Proof.Machine.execHmac id s
  | .rand id => Sys2Proof.Machine.execRand id s
  | .auditSetup id => Sys2Proof.Machine.execAuditSetup id s
  | .auditConsumed id => Sys2Proof.Machine.execAuditConsumed id s
  | .auditCheckpoint id => Sys2Proof.Machine.execAuditCheckpoint id s
  | .auditHead id => Sys2Proof.Machine.execAuditHead id s
  | .attestReport id => Sys2Proof.Machine.execAttestReport id s
  | .attestIdentity id => Sys2Proof.Machine.execAttestIdentity id s
  | .checkpointSigned cr => Sys2Proof.Machine.execCheckpointSigned cr s
  | .keyCacheFill cr h line => Sys2Proof.Machine.execKeyCacheFill cr h line s
  | .drbgReseed inst => Sys2Proof.Machine.execDrbgReseed inst s
  | .healthTestFailure => Sys2Proof.Machine.execHealthTestFailure s
  | .healthTestRerun passes => Sys2Proof.Machine.execHealthTestRerun passes s
  | .knownAnswerTest engine passes => Sys2Proof.Machine.execKnownAnswerTest engine passes s
  | .pqDoorbell n v => Sys2Proof.Machine.execPqDoorbell n v s
  | .pqCtrl n v => Sys2Proof.Machine.execPqCtrl n v s
  | .pqCqCons n v => Sys2Proof.Machine.execPqCqCons n v s
  | .jobTake u => Sys2Proof.Machine.execJobTake u s
  | .imageLoad u => Sys2Proof.Machine.execImageLoad u s
  | .ingestDecryption u k => Sys2Proof.Machine.execIngestDecryption u k s
  | .fieldExtraction u k => Sys2Proof.Machine.execFieldExtraction u k s
  | .callDoor u k q dst p => Sys2Proof.Machine.execCallDoor u k q dst p s
  | .convert u k q dst p => Sys2Proof.Machine.execConvert u k q dst p s
  | .decimal u k q dst p => Sys2Proof.Machine.execDecimal u k q dst p s
  | .emit u k q dst p => Sys2Proof.Machine.execEmit u k q dst p s
  | .next u k q dst => Sys2Proof.Machine.execNext u k q dst s
  | .canon u k q dst p => Sys2Proof.Machine.execCanon u k q dst p s
  | .end_ u k => Sys2Proof.Machine.execEnd u k s
  | .doorOperationCompletion u k => Sys2Proof.Machine.execDoorOperationCompletion u k s
  | .jobTimeLimit u k => Sys2Proof.Machine.execJobTimeLimit u k s
  | .plaiterUnitReplacement u => Sys2Proof.Machine.execPlaiterUnitReplacement u s
  | .hoopPps cycles tenM => Sys2Proof.Machine.execHoopPps cycles tenM s
  | .ptpMessage sync offset utc => Sys2Proof.Machine.execPtpMessage sync offset utc s
  | .sourceLost src inputLost => Sys2Proof.Machine.execSourceLost src inputLost s
  | .hoopSecondsDiscard => Sys2Proof.Machine.execHoopSecondsDiscard s
  | .slewComplete => Sys2Proof.Machine.execSlewComplete s
  | .holdoverAlarm => Sys2Proof.Machine.execHoldoverAlarm s
  | .hoopSecondsSave => Sys2Proof.Machine.execHoopSecondsSave s
  | .heartbeatSend => Sys2Proof.Machine.execHeartbeatSend s
  | .heartbeat seq sec frac hst src pst fence epoch advised => Sys2Proof.Machine.execHeartbeat seq sec frac hst src pst fence epoch advised s
  | .partnerLoss => Sys2Proof.Machine.execPartnerLoss s
  | .fenceClaim => Sys2Proof.Machine.execFenceClaim s
  | .fenceCheck => Sys2Proof.Machine.execFenceCheck s
  | .pfenceIn level => Sys2Proof.Machine.execPfenceIn level s
  | .witnessClaim => Sys2Proof.Machine.execWitnessClaim s
  | .witnessGrant m => Sys2Proof.Machine.execWitnessGrant m s
  | .witnessTimeout => Sys2Proof.Machine.execWitnessTimeout s
  | .takeover => Sys2Proof.Machine.execTakeover s
  | .linkDownTimeout => Sys2Proof.Machine.execLinkDownTimeout s
  | .linkBringUp bundles => Sys2Proof.Machine.execLinkBringUp bundles s
  | .frameRetransmit => Sys2Proof.Machine.execFrameRetransmit s
  | .linkFrame cls seq tagOk msg => Sys2Proof.Machine.execLinkFrame cls seq tagOk msg s
  | .linkRekey => Sys2Proof.Machine.execLinkRekey s
  | .bundleFailure b => Sys2Proof.Machine.execBundleFailure b s
  | .commitAcknowledgement id => Sys2Proof.Machine.execCommitAcknowledgement id s
  | .commitDeadline id => Sys2Proof.Machine.execCommitDeadline id s
  | .commitApply cr => Sys2Proof.Machine.execCommitApply cr s
  | .lagAlarm cr => Sys2Proof.Machine.execLagAlarm cr s
  | .joiningEnd cfgs => Sys2Proof.Machine.execJoiningEnd cfgs s
  | .resyncCopyEnd cr => Sys2Proof.Machine.execResyncCopyEnd cr s
  | .lgcCtl lg v => Sys2Proof.Machine.execLgcCtl lg v s
  | .lgcTags lg v => Sys2Proof.Machine.execLgcTags lg v s
  | .lgcStrict lg k v => Sys2Proof.Machine.execLgcStrict lg k v s
  | .lgcHdm lg k v => Sys2Proof.Machine.execLgcHdm lg k v s
  | .hfCommit ep cr v => Sys2Proof.Machine.execHfCommit ep cr v s
  | .hfExport ep cr j v => Sys2Proof.Machine.execHfExport ep cr j v s
  | .inboundRequest lg fn r => Sys2Proof.Machine.execInboundRequest lg fn r s
  | .inboundMsi lg fn off data => Sys2Proof.Machine.execInboundMsi lg fn off data s
  | .hostPageAccess ep fn off write size v => Sys2Proof.Machine.execHostPageAccess ep fn off write size v s
  | .outboundAccess ep cr off write core data => Sys2Proof.Machine.execOutboundAccess ep cr off write core data s
  | .completionArrival lg tag status data poison => Sys2Proof.Machine.execCompletionArrival lg tag status data poison s
  | .completionTimeout lg tag => Sys2Proof.Machine.execCompletionTimeout lg tag s
  | .lateCompletion lg tag => Sys2Proof.Machine.execLateCompletion lg tag s
  | .quarantineEnd lg tag => Sys2Proof.Machine.execQuarantineEnd lg tag s
  | .perstN ep => Sys2Proof.Machine.execPerstN ep s
  | .functionLevelReset ep fn => Sys2Proof.Machine.execFunctionLevelReset ep fn s
  | .linkStateChange lg port => Sys2Proof.Machine.execLinkStateChange lg port s
  | .dpcRelease lg port linkFell => Sys2Proof.Machine.execDpcRelease lg port linkFell s
  | .msiXMessage ep fn vec => Sys2Proof.Machine.execMsiXMessage ep fn vec s
  | .frameReceive port b fcsOk => Sys2Proof.Machine.execFrameReceive port b fcsOk s
  | .lqRxdb cr slot v => Sys2Proof.Machine.execLqRxdb cr slot v s
  | .lqTxdb cr slot v => Sys2Proof.Machine.execLqTxdb cr slot v s
  | .lqCtrl cr slot v => Sys2Proof.Machine.execLqCtrl cr slot v s
  | .frameTransmit port => Sys2Proof.Machine.execFrameTransmit port s
  | .irSrcWrite cr v => Sys2Proof.Machine.execIrSrcWrite cr v s
  | .irIpi cr v => Sys2Proof.Machine.execIrIpi cr v s
  | .event src cr => Sys2Proof.Machine.execEvent src cr s
  | .vectorDelivery src => Sys2Proof.Machine.execVectorDelivery src s
  | .ucFreeze cr v => Sys2Proof.Machine.execUcFreeze cr v s
  | .registerWrite core cr pa size v => Sys2Proof.Machine.execRegisterWrite core cr pa size v s
  | .fatalDeviceError unit code => Sys2Proof.Machine.execFatalDeviceError unit code s
  | .sysResetN ns cut => Sys2Proof.Machine.execSysResetN ns cut s
  | .coldStart inp => Sys2Proof.Machine.execColdStart inp s
  | .warmResetN ns => Sys2Proof.Machine.execWarmResetN ns s
  | .recoveryBundle b => Sys2Proof.Machine.execRecoveryBundle b s
  | .creelReleaseBoot cr reason => Sys2Proof.Machine.execCreelReleaseBoot cr reason s
  | .heldCoreStart n => Sys2Proof.Machine.execHeldCoreStart n s
  | .healthConfirmation => Sys2Proof.Machine.execHealthConfirmation s
  | .healthWindowExpiry => Sys2Proof.Machine.execHealthWindowExpiry s
  | .healthCheckFailure => Sys2Proof.Machine.execHealthCheckFailure s
  | .fallBackRetry => Sys2Proof.Machine.execFallBackRetry s
  | .slackSample kind unit ratio => Sys2Proof.Machine.execSlackSample kind unit ratio s
  | .retirementTrigger kind unit => Sys2Proof.Machine.execRetirementTrigger kind unit s
  | .coreSwap n => Sys2Proof.Machine.execCoreSwap n s
  | .oldTilePowerOff t => Sys2Proof.Machine.execOldTilePowerOff t s
  | .flashBlockRetirement flash blk => Sys2Proof.Machine.execFlashBlockRetirement flash blk s
  | .borderTrip sensor reading onVbat => Sys2Proof.Machine.execBorderTrip sensor reading onVbat s
  | .pwrbrakeN level => Sys2Proof.Machine.execPwrbrakeN level s
  | .governorTick powers currents tj => Sys2Proof.Machine.execGovernorTick powers currents tj s
  | .thermtrip die => Sys2Proof.Machine.execThermtrip die s
  | .referenceClockLoss inp => Sys2Proof.Machine.execReferenceClockLoss inp s
  | .railExcursion rail mv => Sys2Proof.Machine.execRailExcursion rail mv s
  | .rankCopyLine ch out => Sys2Proof.Machine.execRankCopyLine ch out s
  | .resyncLineCopy cr => Sys2Proof.Machine.execResyncLineCopy cr s
  | .backOffAlert ch rank => Sys2Proof.Machine.execBackOffAlert ch rank s
  | .openRowTimeout ch bank => Sys2Proof.Machine.execOpenRowTimeout ch bank s
  | .linkTrained l => Sys2Proof.Machine.execLinkTrained l s
  | .linePortLinkDown port => Sys2Proof.Machine.execLinePortLinkDown port s
  | .hostConfigWrite ep fn w => Sys2Proof.Machine.execHostConfigWrite ep fn w s
  | .hoopPpsOut => Sys2Proof.Machine.execHoopPpsOut s
  | .hubPortCountLog => Sys2Proof.Machine.execHubPortCountLog s

end Sys2Proof.Machine
end

