-- ==== Sys2Proof/Safety.lean ====
section
/-!
DEFINITION. What claims call a safe run, and the invariants of the block.
-/
namespace Sys2Proof.Machine

/-- Memory is in its canonical form: addresses rise, and no byte is listed that reads as an unlisted one. -/
def State.memOk (s : State) : Prop := s.mem.wf = true
/-- The commands of a list, in order, from a state: the state after the last, if every one answers a next state. -/
def runList (s : State) : List Instr → Option State
  | [] => some s
  | c :: r => match exec c s with | .next t => runList t r | _ => none
/-- A safe run: every command answers a next state, and memory stays in its canonical form. -/
def SafeRun (s : State) (l : List Instr) : Prop := ∃ t, runList s l = some t ∧ t.memOk

/-- `t` is `s` but for what caches hold: the tiles' tags, the slices, the caches of sequencers and the creels' counters of
cache traffic. No register, no byte of memory and no other state differs. -/
def CacheOnly (s t : State) : Prop :=
  t = { s with tiles := t.tiles, slices := t.slices, seqs := t.seqs, creels := t.creels } ∧
  (∀ i, t.seq i = { s.seq i with cache := (t.seq i).cache }) ∧ (∀ c, t.creel c = { s.creel c with uc := (t.creel c).uc })

/-- `t` is `s` but for what a translation of core n can change: its cached leaves and pointers, the a bit of one
translation table entry, and the free values drawn (06/R183 to R191). -/
def TranslateOnly (s t : State) (n : Nat) : Prop :=
  t = { s with cores := t.cores, free := t.free, mem := t.mem } ∧
  (∃ tlb ptr, t.core n = { s.core n with tlb := tlb, ptr := ptr }) ∧ (∀ m, m ≠ n → t.core m = s.core m) ∧
  (t.mem = s.mem ∨ ∃ ea e, t.mem = (s.wr64 ea (setFld e 6 6 1)).mem)

/-! ## Words of the MIS-3 statements -/

/-- Core n is at an instruction whose fetch passes: it runs, waits for nothing, takes no interrupt now, and the fetch
leaves the state `u` and counts the events `ev` (02/R42, 03/R111). -/
structure CoreFetches (s : State) (n : CoreId) (u : State) (ev : List (Nat × Nat)) : Prop where
  running : (s.core n).run = .running
  parked : (s.core n).parked = none
  dev : (s.core n).dev = none
  awake : (s.core n).waiting = false
  noInterrupt : ((s.settle n).core n).due = none
  noDeviceFence : (s.core n).ioFence = true → (s.core n).strict = []
  fetched : ((s.settle n).modCore n fun c => { c with ioFence := false }).fetch n = (u, .ok ev)
/-- Core n executes the instruction at its pc: the fetch passes and the guard holds in the state the fetch leaves. -/
structure CoreRuns (s : State) (n : CoreId) (q : PReg) (u : State) (ev : List (Nat × Nat)) : Prop extends
    CoreFetches s n u ev where
  guard : (u.core n).x.rdp q.toNat = true
/-- The core `c'` is `c` but for what counting events changes: the bank, the beat counter, the counters, their overflow
bits and freeze, and the overflow interrupt's pending bit (20/R559 to R564). -/
def SameButCounts (c c' : Core) : Prop :=
  (∃ sys leg beat svec, c' = { c with sys := sys, leg := leg, beat := beat, svec := svec }) ∧
  (∀ r, ¬ (r = 0x80 ∨ r = 0x81 ∨ (0x90 ≤ r ∧ r < 0x98)) → c'.sysr r = c.sysr r) ∧
  (c'.svec = c.svec ∨ c'.svec = bankSet c.svec (fld (c.sysr 0x80) 31 24) true)
/-- `t` is `u` with core n's pc at `pc`, but for the events counted and the number of free values drawn. Every other
register, every other core, all memory and the rest of the device are those of `u`. -/
def CoreCompletes (u t : State) (n : Nat) (pc : W64) : Prop :=
  ∃ f c', t = { u.setCore n c' with free := f } ∧
    SameButCounts { u.core n with x := { (u.core n).x with pc := pc } } c'
/-- Sequencer q executes the instruction at its pc, which reads the general registers `rds` and writes `wrs`: it runs,
its lockstep pair agrees, no device access before it is waited for, its mode shadow is settled, the guard holds, and no register waits for an earlier operation or is poisoned. -/
structure SeqRuns (s : State) (q : SeqId) (g : PReg) (rds wrs : List Nat) (u : State) : Prop where
  run : (s.seq (seqIx q)).run = true
  pair : (s.seq (seqIx q)).skew = []
  fence : (s.seq (seqIx q)).fenced = false
  settled : u = s.modSeq (seqIx q) Seq.settle
  inside : (u.seq (seqIx q)).x.pc.toNat < seqImemSize (seqIx q)
  guard : (u.seq (seqIx q)).x.rdp g.toNat = true
  free : ∀ r ∈ rds ++ wrs, r ∉ (u.seq (seqIx q)).busy
  clean : ∀ r ∈ rds, r ∉ (u.seq (seqIx q)).poisoned
/-- `u` once the registers that are written have lost their poison marks (04/R139). -/
def seqBody (u : State) (q : SeqId) (wrs : List Nat) : State :=
  u.modSeq (seqIx q) fun z => { z with poisoned := z.poisoned.filter fun r => !wrs.contains r }
/-- The instruction at a sequencer's pc completes in order: the next pc, its beats, the register that a trace shows. -/
def seqNext (v : State) (q : SeqId) (pc : W64) (beats : Nat) (dest : Option Nat) : State :=
  v.seqComplete (seqIx q) pc beats none false dest

end Sys2Proof.Machine
end

