-- ==== Sys2Proof/Certificates/Slice0/Obligations.lean ====
section
/-!
DEFINITION. The statements of this model, for the provers. The namespace `Claims` holds the words they share: when a
command runs, and what a state that differs from another in stated ways only is.
-/
namespace Sys2Proof.Claims
open Sys2Proof Sys2Proof.Machine

/-- A three-register operation of 02/R46 to R52: its result, and its beats on a sequencer (none: cores only). -/
structure IntOp where
  instr : Agent → PReg → Reg → Reg → Reg → Instr
  result : W64 → W64 → W64
  beats : Option Nat
def intOps1 : List IntOp :=
  [⟨.add, fun a b => a + b, some 3⟩, ⟨.sub, fun a b => a - b, some 3⟩, ⟨.and, fun a b => a &&& b, some 3⟩,
   ⟨.or, fun a b => a ||| b, some 3⟩, ⟨.xor, fun a b => a ^^^ b, some 3⟩, ⟨.andn, fun a b => a &&& ~~~ b, some 3⟩,
   ⟨.orn, fun a b => a ||| ~~~ b, some 3⟩, ⟨.xnor, fun a b => ~~~ (a ^^^ b), some 3⟩,
   ⟨.sll, fun a b => a <<< (b.toNat % 64), some 3⟩, ⟨.srl, fun a b => a >>> (b.toNat % 64), some 3⟩,
   ⟨.sra, fun a b => a.sshiftRight (b.toNat % 64), some 3⟩, ⟨.rol, fun a b => a.rotateLeft (b.toNat % 64), some 3⟩,
   ⟨.ror, fun a b => a.rotateRight (b.toNat % 64), some 3⟩]
def intOps2 : List IntOp :=
  [⟨.addw, fun a b => ((a + b).truncate 32).signExtend 64, some 3⟩, ⟨.subw, fun a b => ((a - b).truncate 32).signExtend 64, some 3⟩,
   ⟨.mul, fun a b => a * b, some 6⟩,
   ⟨.mulhs, fun a b => BitVec.ofInt 64 (a.toInt * b.toInt / 2 ^ 64), none⟩,
   ⟨.mulhu, fun a b => BitVec.ofNat 64 (a.toNat * b.toNat / 2 ^ 64), none⟩,
   ⟨.div, fun a b => if b = 0 then BitVec.allOnes 64 else BitVec.ofInt 64 (a.toInt.tdiv b.toInt), none⟩,
   ⟨.divu, fun a b => if b = 0 then BitVec.allOnes 64 else a / b, none⟩,
   ⟨.rem, fun a b => if b = 0 then a else BitVec.ofInt 64 (a.toInt.tmod b.toInt), none⟩,
   ⟨.remu, fun a b => if b = 0 then a else a % b, none⟩,
   ⟨.min, fun a b => if b.slt a then b else a, some 3⟩, ⟨.max, fun a b => if a.slt b then b else a, some 3⟩,
   ⟨.minu, fun a b => if b.ult a then b else a, some 3⟩, ⟨.maxu, fun a b => if a.ult b then b else a, some 3⟩]

end Sys2Proof.Claims

/-! # MIS-3: integer instructions (02) -/

namespace Sys2Proof.Claims
open Sys2Proof Sys2Proof.Machine

/-- An instruction with one destination whose value is a function of the context: the registers it reads and its value. -/
structure OneOp where
  instr : Agent → PReg → Reg → Reg → Instr
  reads : Reg → Reg → List Nat
  result : Ctx → Reg → Reg → W64
/-- A unary instruction (02/R48, R53, R54). -/
def unary (mk : Agent → PReg → Reg → Reg → Instr) (f : W64 → W64) : OneOp :=
  ⟨mk, fun _ s1 => [s1.toNat], fun x _ s1 => f (x.rd s1.toNat)⟩
def unaryOps : List OneOp :=
  [unary .clz BitVec.clz, unary .ctz BitVec.ctz, unary .popc BitVec.cpop,
   unary .bswap (fun a => BitVec.ofNat 64 ((List.range 8).foldl (fun r k => r + (a.toNat / 256 ^ k % 256) * 256 ^ (7 - k)) 0)),
   unary .sextb (fun a => BitVec.ofInt 64 (a.truncate 8).toInt), unary .sexth (fun a => BitVec.ofInt 64 (a.truncate 16).toInt),
   unary .sextw (fun a => BitVec.ofInt 64 (a.truncate 32).toInt), unary .zextb (fun a => a &&& 0xFF), unary .zexth (fun a => a &&& 0xFFFF),
   unary .zextw (fun a => a &&& 0xFFFFFFFF)]
/-- The immediate instructions, at one value of each immediate (02/R56 to R59), and MOVPG (02/R55). -/
def immediateOps (i : BitVec 9) (n : BitVec 6) (l : BitVec 15) : List OneOp :=
  [unary (fun a q d s1 => .addi a q d s1 i) (fun a => a + i.signExtend 64), unary (fun a q d s1 => .andi a q d s1 i) (fun a => a &&& i.signExtend 64),
   unary (fun a q d s1 => .ori a q d s1 i) (fun a => a ||| i.signExtend 64), unary (fun a q d s1 => .xori a q d s1 i) (fun a => a ^^^ i.signExtend 64),
   unary (fun a q d s1 => .slli a q d s1 n) (fun a => BitVec.ofNat 64 (a.toNat * 2 ^ n.toNat)),
   unary (fun a q d s1 => .srli a q d s1 n) (fun a => BitVec.ofNat 64 (a.toNat / 2 ^ n.toNat)),
   unary (fun a q d s1 => .srai a q d s1 n) (fun a => BitVec.ofInt 64 (a.toInt / 2 ^ n.toNat)),
   unary (fun a q d s1 => .rori a q d s1 n) (fun a => (a >>> n.toNat) ||| (a <<< (64 - n.toNat))),
   ⟨fun a q d _ => .ldi a q d l, fun _ _ => [], fun _ _ _ => l.signExtend 64⟩,
   ⟨fun a q d _ => .shi a q d l, fun d _ => [d.toNat], fun x d _ => (x.rd d.toNat <<< 15) ||| l.zeroExtend 64⟩,
   ⟨fun a q d _ => .movpg a q d, fun _ _ => [],
    fun x _ _ => BitVec.ofNat 64 (((List.range 16).filter fun k => x.rdp k).map fun k => 2 ^ k).sum⟩]

/-- A compare: its condition (02/R63). -/
structure CmpOp where
  instr : Agent → PReg → PReg → PReg → Reg → Reg → Instr
  cond : W64 → W64 → Bool
def cmpOps : List CmpOp :=
  [⟨.cmpEq, fun a b => decide (a = b)⟩, ⟨.cmpNe, fun a b => decide (a ≠ b)⟩,
   ⟨fun a q pt pf s1 s2 => .cmpLt a q pt pf s1 s2 false, fun a b => decide (a.toInt < b.toInt)⟩,
   ⟨fun a q pt pf s1 s2 => .cmpLt a q pt pf s1 s2 true, fun a b => decide (a.toNat < b.toNat)⟩,
   ⟨fun a q pt pf s1 s2 => .cmpGe a q pt pf s1 s2 false, fun a b => decide (b.toInt ≤ a.toInt)⟩,
   ⟨fun a q pt pf s1 s2 => .cmpGe a q pt pf s1 s2 true, fun a b => decide (b.toNat ≤ a.toNat)⟩,
   ⟨.cmpTst, fun a b => decide (a &&& b ≠ 0)⟩]
/-- A predicate-logic instruction: its result (02/R64). -/
structure PredOp where
  instr : Agent → PReg → PReg → PReg → PReg → PReg → Instr
  result : Bool → Bool → Bool
def predOps : List PredOp :=
  [⟨.pand, fun a b => a && b⟩, ⟨.por, fun a b => a || b⟩, ⟨.pxor, fun a b => a != b⟩, ⟨.pandn, fun a b => a && !b⟩]
/-- The rule of 02/R61 on a state: the condition to pt, its complement to pf, and nothing to p0. -/
def predsWritten (u : State) (a : Agent) (pt pf : PReg) (cond : Bool) : State :=
  u.modCtx a fun x =>
    let y := if pt = 0 then x else { x with p := x.p.set pt.toNat cond }
    if pf = 0 then y else { y with p := y.p.set pf.toNat (!cond) }
/-- `v` is `u` but for core n's prediction state and the free values drawn (04/R117 to R121). -/
def Predicted (u v : State) (n : Nat) : Prop :=
  ∃ p f, v = { u.modCore n fun c => { c with pred := p } with free := f }

/-- The instructions that prediction learns (04/R120). -/
def isBranch : Instr → Bool
  | .br .. | .call .. | .jmpr .. | .callr .. | .ret .. | .loop .. => true
  | _ => false
/-- The agent and the guard of a MIS-3 instruction. -/
def agentOf : Instr → Option (Agent × PReg)
  | .add a q _ _ _ | .sub a q _ _ _ | .and a q _ _ _ | .or a q _ _ _ | .xor a q _ _ _ | .andn a q _ _ _ | .orn a q _ _ _
  | .xnor a q _ _ _ | .sll a q _ _ _ | .srl a q _ _ _ | .sra a q _ _ _ | .rol a q _ _ _ | .ror a q _ _ _ | .addw a q _ _ _
  | .subw a q _ _ _ | .mul a q _ _ _ | .mulhs a q _ _ _ | .mulhu a q _ _ _ | .div a q _ _ _ | .divu a q _ _ _ | .rem a q _ _ _
  | .remu a q _ _ _ | .min a q _ _ _ | .max a q _ _ _ | .minu a q _ _ _ | .maxu a q _ _ _ | .clz a q _ _ | .ctz a q _ _
  | .popc a q _ _ | .bswap a q _ _ | .sextb a q _ _ | .sexth a q _ _ | .sextw a q _ _ | .zextb a q _ _ | .zexth a q _ _
  | .zextw a q _ _ | .movpg a q _ | .movgp a q _ | .addi a q _ _ _ | .andi a q _ _ _ | .ori a q _ _ _ | .xori a q _ _ _
  | .slli a q _ _ _ | .srli a q _ _ _ | .srai a q _ _ _ | .rori a q _ _ _ | .ldi a q _ _ | .shi a q _ _
  | .cmpEq a q _ _ _ _ | .cmpNe a q _ _ _ _ | .cmpLt a q _ _ _ _ _ | .cmpGe a q _ _ _ _ _ | .cmpTst a q _ _ _ _
  | .pand a q _ _ _ _ | .por a q _ _ _ _ | .pxor a q _ _ _ _ | .pandn a q _ _ _ _ | .br a q _ | .call a q _ | .jmpr a q _
  | .callr a q _ | .ret a q _ | .loop a q _ _ => some (a, q)
  | .ldb a q _ _ _ _ | .ldbu a q _ _ _ _ | .ldh a q _ _ _ _ | .ldhu a q _ _ _ _ | .ldw a q _ _ _ _ | .ldwu a q _ _ _ _
  | .ldd a q _ _ _ _ | .stb a q _ _ _ _ | .sth a q _ _ _ _ | .stw a q _ _ _ _ | .std a q _ _ _ _ | .ldp a q _ _ _ _
  | .stp a q _ _ _ _ | .swap a q _ _ _ _ | .atomicAdd a q _ _ _ _ | .atomicAnd a q _ _ _ _ | .atomicOr a q _ _ _ _
  | .atomicXor a q _ _ _ _ | .atomicMin a q _ _ _ _ | .atomicMax a q _ _ _ _ | .atomicMinu a q _ _ _ _
  | .atomicMaxu a q _ _ _ _ | .cas a q _ _ _ _ | .cas16 a q _ _ _ _ => some (a, q)
  | .fence a q | .fenceIo a q | .fenceSt a q | .fenceSpec a q | .isync a q | .pbar a q | .pflush a q => some (a, q)
  | .fadd a q _ _ _ _ | .fsub a q _ _ _ _ | .fmul a q _ _ _ _ | .fdiv a q _ _ _ _ | .fma a q _ _ _ _ | .fmin a q _ _ _ _
  | .fmax a q _ _ _ _ | .fsqrt a q _ _ _ | .fcmp a q _ _ _ _ | .fcvtDL a q _ _ _ | .fcvtLD a q _ _ _ | .fcvtDS a q _ _
  | .fcvtSD a q _ _ | .fclass a q _ _ _ | .dadd a q _ _ _ _ | .dsub a q _ _ _ _ | .dmul a q _ _ _ _ | .ddiv a q _ _ _ _
  | .dqua a q _ _ _ _ | .drint a q _ _ _ | .dcmp a q _ _ _ _ | .dfromi a q _ _ _ | .dtoi a q _ _ _ | .dgetexp a q _ _ _
  | .dwiden a q _ _ | .dnarrow a q _ _ => some (a, q)
  | .vadd a q _ _ _ _ | .vsub a q _ _ _ _ | .vmul a q _ _ _ _ | .vmin a q _ _ _ _ | .vmax a q _ _ _ _ | .vminu a q _ _ _ _
  | .vmaxu a q _ _ _ _ | .vcmpeq a q _ _ _ _ | .vand a q _ _ _ | .vor a q _ _ _ | .vxor a q _ _ _ | .vandn a q _ _ _
  | .vsel a q _ _ _ | .vbcast a q _ _ | .vins a q _ _ _ | .vext a q _ _ _ | .vslli a q _ _ _ _ | .vsrli a q _ _ _ _
  | .vsrai a q _ _ _ _ | .vpermB a q _ _ _ | .vredaddD a q _ _ | .vcmpgtD a q _ _ _ | .vld a q _ _ _ | .vst a q _ _ _
  | .vfadd a q _ _ _ _ | .vfsub a q _ _ _ _ | .vfmul a q _ _ _ _ | .vfdiv a q _ _ _ _ | .vfma a q _ _ _ _
  | .vfmin a q _ _ _ _ | .vfmax a q _ _ _ _ | .vfcmplt a q _ _ _ _ | .vcvtSW a q _ _ | .vcvtWS a q _ _ | .vcvtDL a q _ _
  | .vcvtLD a q _ _ => some (a, q)
  | .aese a q _ _ _ | .aesel a q _ _ _ | .aesd a q _ _ _ | .aesdl a q _ _ _ | .aesimc a q _ _ | .clmul a q _ _ _
  | .clmulh a q _ _ _ | .sha256ms0 a q _ _ _ | .sha256ms1 a q _ _ _ | .sha512ms0 a q _ _ _ | .sha512ms1 a q _ _ _ => some (a, q)
  | .rdsys a q _ _ | .wrsys a q _ _ | .syscall a q | .break_ a q | .eret a q | .wait a q | .wrpkey a q _ | .rdpkey a q _
  | .rdhoop a q _ | .rdbeat a q _ | .tlbinvAll a q | .tlbinvAsid a q _ | .tlbinvVa a q _ _ | .tlbinvVaall a q _
  | .cleanP a q _ | .cleanD a q _ | .flushP a q _ | .flushD a q _ => some (a, q)
  | _ => none

end Sys2Proof.Claims

open Sys2Proof Sys2Proof.Machine Sys2Proof.Claims

/-- 02/R50 to R53: a three-register operation writes its result to g[d] and goes to the next instruction, on a core and,
where it is in the strand subset, on a sequencer; there a core-only one ends the program with ILLEGAL_INSTRUCTION. The word 0,
which would be ADD g0, g0, g0 under p0, is a reserved encoding (R38). -/
def Sys2Proof.Claims.IntegerOperationResults : Prop :=
  (∀ (s u : State) (n : CoreId) ev, CoreFetches s n u ev → exec (.add (.core n) 0 0 0 0) s = .next (u.takeExc n 1 none 0)) ∧
  ∀ o ∈ intOps1 ++ intOps2, ∀ (g : PReg) (d s1 s2 : Reg) (s u : State), o.instr (.core 0) g d s1 s2 ≠ .add (.core 0) 0 0 0 0 →
    (∀ (n : CoreId) ev, CoreRuns s n g u ev →
      ∃ t, exec (o.instr (.core n) g d s1 s2) s = .next t ∧
        CoreCompletes (u.wrG (.core n) d.toNat (o.result ((u.core n).x.rd s1.toNat) ((u.core n).x.rd s2.toNat))) t n
          ((u.core n).x.pc + 4)) ∧
    (∀ (q : SeqId) (b : Nat), o.beats = some b → SeqRuns s q g [s1.toNat, s2.toNat] [d.toNat] u →
      exec (o.instr (.seq q) g d s1 s2) s =
        .next (seqNext ((seqBody u q [d.toNat]).wrG (.seq q) d.toNat
            (o.result ((u.seq (seqIx q)).x.rd s1.toNat) ((u.seq (seqIx q)).x.rd s2.toNat)))
          q ((u.seq (seqIx q)).x.pc + 4) b (some d.toNat))) ∧
    (∀ (q : SeqId), o.beats = none → SeqRuns s q g [s1.toNat, s2.toNat] [d.toNat] u →
      exec (o.instr (.seq q) g d s1 s2) s =
        .next ((u.modSeq (seqIx q) fun z => { z with beats := z.beats + (if z.leftLoop then 5 else 3) }).endProgram (seqIx q) 1 0))

/-- 02/R53 to R59: unary, immediate and predicate-image instructions write their result to g[d]. -/
def Sys2Proof.Claims.UnaryAndImmediateResults : Prop :=
  ∀ (i : BitVec 9) (k : BitVec 6) (l : BitVec 15), ∀ o ∈ unaryOps ++ immediateOps i k l,
    ∀ (g : PReg) (d s1 : Reg) (s u : State),
    (∀ (n : CoreId) ev, CoreRuns s n g u ev →
      ∃ t, exec (o.instr (.core n) g d s1) s = .next t ∧
        CoreCompletes (u.wrG (.core n) d.toNat (o.result (u.core n).x d s1)) t n ((u.core n).x.pc + 4)) ∧
    (∀ (q : SeqId), SeqRuns s q g (o.reads d s1) [d.toNat] u →
      exec (o.instr (.seq q) g d s1) s =
        .next (seqNext ((seqBody u q [d.toNat]).wrG (.seq q) d.toNat (o.result (u.seq (seqIx q)).x d s1))
          q ((u.seq (seqIx q)).x.pc + 4) 3 (some d.toNat)))
/-- 02/R50 to R59: what the integer instructions write. -/
def Obligations.IntegerResults : Prop :=
  Claims.IntegerOperationResults ∧ Claims.UnaryAndImmediateResults


/-- 02/R61 to R64, R55: compares and predicate logic write pt and pf, MOVGP writes p1 to p15. -/
def Obligations.PredicateWrites : Prop :=
  (∀ o ∈ cmpOps, ∀ (g pt pf : PReg) (s1 s2 : Reg) (s u : State), ¬ (pt = pf ∧ pt ≠ 0) →
    (∀ (n : CoreId) ev, CoreRuns s n g u ev →
      ∃ t, exec (o.instr (.core n) g pt pf s1 s2) s = .next t ∧
        CoreCompletes (predsWritten u (.core n) pt pf (o.cond ((u.core n).x.rd s1.toNat) ((u.core n).x.rd s2.toNat))) t n
          ((u.core n).x.pc + 4)) ∧
    (∀ (q : SeqId), SeqRuns s q g [s1.toNat, s2.toNat] [] u →
      exec (o.instr (.seq q) g pt pf s1 s2) s =
        .next (seqNext (predsWritten (seqBody u q []) (.seq q) pt pf
          (o.cond ((u.seq (seqIx q)).x.rd s1.toNat) ((u.seq (seqIx q)).x.rd s2.toNat))) q ((u.seq (seqIx q)).x.pc + 4) 3 none))) ∧
  (∀ o ∈ predOps, ∀ (g pt pf pa pb : PReg) (s u : State), ¬ (pt = pf ∧ pt ≠ 0) →
    (∀ (n : CoreId) ev, CoreRuns s n g u ev →
      ∃ t, exec (o.instr (.core n) g pt pf pa pb) s = .next t ∧
        CoreCompletes (predsWritten u (.core n) pt pf (o.result ((u.core n).x.rdp pa.toNat) ((u.core n).x.rdp pb.toNat))) t n
          ((u.core n).x.pc + 4)) ∧
    (∀ (q : SeqId), SeqRuns s q g [] [] u →
      exec (o.instr (.seq q) g pt pf pa pb) s =
        .next (seqNext (predsWritten (seqBody u q []) (.seq q) pt pf
          (o.result ((u.seq (seqIx q)).x.rdp pa.toNat) ((u.seq (seqIx q)).x.rdp pb.toNat))) q ((u.seq (seqIx q)).x.pc + 4) 3 none))) ∧
  (∀ (g : PReg) (s1 : Reg) (s u : State),
    (∀ (n : CoreId) ev, CoreRuns s n g u ev →
      ∃ t v, exec (.movgp (.core n) g s1) s = .next t ∧ CoreCompletes v t n ((u.core n).x.pc + 4) ∧
        (∃ p, v = u.setCtx (.core n) { (u.core n).x with p := p }) ∧
        ∀ k, k < 16 → (v.core n).x.rdp k = if k = 0 then true else ((u.core n).x.rd s1.toNat).getLsbD k) ∧
    (∀ (q : SeqId), SeqRuns s q g [s1.toNat] [] u →
      ∃ v, exec (.movgp (.seq q) g s1) s = .next (seqNext v q ((u.seq (seqIx q)).x.pc + 4) 3 none) ∧
        (∃ p, v = (seqBody u q []).setCtx (.seq q) { (u.seq (seqIx q)).x with p := p }) ∧
        ∀ k, k < 16 → (v.seq (seqIx q)).x.rdp k = if k = 0 then true else ((u.seq (seqIx q)).x.rd s1.toNat).getLsbD k))

/-- 02/R65 to R68: a branch goes to its target, with the return address in g63 for a call; a target that is misaligned or
out of the fetchable range is an exception of the branch on a core, which changes nothing else first. -/
def Sys2Proof.Claims.BranchesReachTheirTarget : Prop :=
  ∀ (g : PReg) (disp : BitVec 21) (s1 : Reg) (a : Agent) (i : Instr) (dest : Ctx → W64) (link : Bool) (rds : List Nat),
    ((i = .br a g disp ∧ dest = (fun x => x.pc + disp.signExtend 64 * 4) ∧ link = false ∧ rds = []) ∨
     (i = .call a g disp ∧ dest = (fun x => x.pc + disp.signExtend 64 * 4) ∧ link = true ∧ rds = []) ∨
     (i = .jmpr a g s1 ∧ dest = (fun x => x.rd s1.toNat) ∧ link = false ∧ rds = [s1.toNat]) ∨
     (i = .callr a g s1 ∧ dest = (fun x => x.rd s1.toNat) ∧ link = true ∧ rds = [s1.toNat]) ∨
     (i = .ret a g s1 ∧ dest = (fun x => x.rd s1.toNat) ∧ link = false ∧ rds = [s1.toNat])) →
    ∀ (s u : State),
      (∀ (n : CoreId) ev, a = .core n → CoreRuns s n g u ev →
        let x := (u.core n).x
        (dest x % 4 = 0 → canonical (vaWidth ((u.core n).sysr 0x22)) (dest x) = true →
          ∃ t v, exec i s = .next t ∧ Predicted (if link then u.wrG a 63 (x.pc + 4) else u) v n ∧ CoreCompletes v t n (dest x)) ∧
        (dest x % 4 ≠ 0 → exec i s = .next (u.takeExc n 3 none 0)) ∧
        (dest x % 4 = 0 → canonical (vaWidth ((u.core n).sysr 0x22)) (dest x) = false → exec i s = .next (u.takeExc n 4 none 0))) ∧
      (∀ (q : SeqId), a = .seq q → SeqRuns s q g rds (if link then [63] else []) u →
        let x := (u.seq (seqIx q)).x
        let v := seqBody u q (if link then [63] else [])
        dest x % 4 = 0 → (dest x).toNat < seqImemSize (seqIx q) →
          exec i s = .next ((if link then v.wrG a 63 (x.pc + 4) else v).seqComplete (seqIx q) (dest x) 5 none true
            (if link then some 63 else none)))

/-- 02/R69: LOOP steps its counter down and goes back n instructions while it is not zero. -/
def Sys2Proof.Claims.LoopRepeatsItsBody : Prop :=
  ∀ (g : PReg) (d : Reg) (k : BitVec 9) (s u : State), 1 ≤ k.toNat → k.toNat ≤ 32 → d ≠ 0 →
    (∀ (n : CoreId) ev, CoreRuns s n g u ev →
      let x := (u.core n).x
      let back := x.pc - 4 * w64 k.toNat
      (x.rd d.toNat ≠ 1 → back % 4 = 0 → canonical (vaWidth ((u.core n).sysr 0x22)) back = true →
        ∃ t v, exec (.loop (.core n) g d k) s = .next t ∧ Predicted (u.wrG (.core n) d.toNat (x.rd d.toNat - 1)) v n ∧
          CoreCompletes v t n back) ∧
      (x.rd d.toNat = 1 →
        ∃ t v, exec (.loop (.core n) g d k) s = .next t ∧ Predicted (u.wrG (.core n) d.toNat 0) v n ∧
          CoreCompletes v t n (x.pc + 4))) ∧
    (∀ (q : SeqId), SeqRuns s q g [d.toNat] [d.toNat] u →
      let x := (u.seq (seqIx q)).x
      let back := x.pc - 4 * w64 k.toNat
      (x.rd d.toNat ≠ 1 → back % 4 = 0 → back.toNat < seqImemSize (seqIx q) →
        exec (.loop (.seq q) g d k) s =
          .next (((seqBody u q [d.toNat]).wrG (.seq q) d.toNat (x.rd d.toNat - 1)).seqComplete (seqIx q) back 5 (some k.toNat) true
            (some d.toNat))) ∧
      (x.rd d.toNat = 1 →
        exec (.loop (.seq q) g d k) s =
          .next (((seqBody u q [d.toNat]).wrG (.seq q) d.toNat 0).seqComplete (seqIx q) (x.pc + 4) 5 (some k.toNat) false
            (some d.toNat))))
/-- 02/R65 to R69: where branches, calls and LOOP go. -/
def Obligations.BranchesAndLoops : Prop :=
  Claims.BranchesReachTheirTarget ∧ Claims.LoopRepeatsItsBody


/-- 02/R40: an instruction whose guard is false writes nothing: the pc goes on and events are counted (and prediction learns
that a branch was not taken, 04/R120), or its fields are no encoding and ILLEGAL_INSTRUCTION comes first (02/R42). -/
def Obligations.FalseGuardWritesNothing : Prop :=
  ∀ (i : Instr) (n : CoreId) (g : PReg) (s u : State) ev, agentOf i = some (.core n, g) → CoreFetches s n u ev →
    (u.core n).x.rdp g.toNat = false →
    ∃ t, exec i s = .next t ∧
      (CoreCompletes u t n ((u.core n).x.pc + 4) ∨ t = u.takeExc n 1 none 0 ∨
        isBranch i = true ∧ ∃ v, Predicted u v n ∧ CoreCompletes v t n ((u.core n).x.pc + 4))

/-- 02/R31, R32: g0 and p0 read their constants and discard writes; every other register keeps what is written. -/
def Obligations.RegisterFilesReadBack : Prop :=
  ∀ (x : Ctx) (r : Reg) (v : W64) (p : PReg) (b : Bool),
    (x.wr r.toNat v).rd r.toNat = (if r = 0 then 0 else v) ∧
    (∀ k, k ≠ r.toNat → (x.wr r.toNat v).rd k = x.rd k) ∧ x.rd 0 = 0 ∧ (x.wr r.toNat v).pc = x.pc ∧ (x.wr r.toNat v).p = x.p ∧
    (x.wrp p.toNat b).rdp p.toNat = (if p = 0 then true else b) ∧
    (∀ k, k ≠ p.toNat → (x.wrp p.toNat b).rdp k = x.rdp k) ∧ x.rdp 0 = true ∧ (x.wrp p.toNat b).g = x.g

/-! # MIS-3: memory (03/R73 to R82, 04, 05) -/

namespace Sys2Proof.Claims
open Sys2Proof Sys2Proof.Machine

/-- An instruction of a core: what must hold in the state that its fetch leaves, and what it makes of that state, the pc
and the counts apart. -/
structure CoreOp where
  instr : CoreId → PReg → Instr
  ok : State → CoreId → Prop
  after : State → CoreId → State
/-- The instruction completes, with that effect, whenever its condition holds. -/
def CoreOp.Completes (o : CoreOp) : Prop :=
  ∀ (s u : State) (n : CoreId) (g : PReg) ev, CoreRuns s n g u ev → o.ok u n →
    ∃ t, exec (o.instr n g) s = .next t ∧ CoreCompletes (o.after u n) t n ((u.core n).x.pc + 4)

/-- A load: its size, where its bytes go, its beats on a sequencer (03/R73, R75). -/
structure LoadOp where
  instr : Agent → PReg → Reg → Reg → BitVec 7 → Mark → Instr
  size : Nat
  dest : Nat → LoadDest
  writes : Nat → List Nat
  beats : Nat
def loadOps : List LoadOp :=
  [⟨.ldb, 1, fun d => .reg d 1 true, fun d => [d], 4⟩, ⟨.ldbu, 1, fun d => .reg d 1 false, fun d => [d], 4⟩,
   ⟨.ldh, 2, fun d => .reg d 2 true, fun d => [d], 4⟩, ⟨.ldhu, 2, fun d => .reg d 2 false, fun d => [d], 4⟩,
   ⟨.ldw, 4, fun d => .reg d 4 true, fun d => [d], 4⟩, ⟨.ldwu, 4, fun d => .reg d 4 false, fun d => [d], 4⟩,
   ⟨.ldd, 8, fun d => .reg d 8 false, fun d => [d], 4⟩]
def pairLoad : LoadOp := ⟨.ldp, 16, .pair, fun d => [d, d + 1], 5⟩
/-- A store: the bytes it writes (03/R73, R75), the registers it reads, its beats. -/
structure StoreOp where
  instr : Agent → PReg → Reg → Reg → BitVec 7 → Mark → Instr
  size : Nat
  bytes : Ctx → Nat → Bytes
  reads : Nat → List Nat
  beats : Nat
def storeOps : List StoreOp :=
  [⟨.stb, 1, fun x d => toLe 1 (x.rd d).toNat, fun d => [d], 4⟩, ⟨.sth, 2, fun x d => toLe 2 (x.rd d).toNat, fun d => [d], 4⟩,
   ⟨.stw, 4, fun x d => toLe 4 (x.rd d).toNat, fun d => [d], 4⟩, ⟨.std, 8, fun x d => toLe 8 (x.rd d).toNat, fun d => [d], 4⟩]
def pairStore : StoreOp :=
  ⟨.stp, 16, fun x d => toLe 8 (x.rd d).toNat ++ toLe 8 (x.rd (d + 1)).toNat, fun d => [d, d + 1], 5⟩
/-- The address of a memory operand: base plus the offset scaled by the size (02/R36). -/
def addrOf (x : Ctx) (b : Reg) (off : BitVec 7) (size : Nat) : W64 := x.rd b.toNat + off.signExtend 64 * w64 size
/-- The state in which a load reads: an acquire mark first lets buffered release-marked stores be performed (05/R153). -/
def acquired (v : State) (n : Nat) (m : Mark) : State := if m.getLsbD 0 then v.drainReleases n else v
/-- No line of these addresses is poisoned, and none lies in a fenced rank (17/R516, 08/R251). -/
def Readable (w : State) (as : List Nat) : Prop := ∀ a ∈ as, w.poisoned (a / 64) = false ∧ w.fencedLine (a / 64) = false

/-- A read-modify-write: the new value from the old value and the operand (03/R78). -/
structure AtomOp where
  instr : Agent → PReg → Reg → Reg → Reg → Mark → Instr
  new : W64 → W64 → W64
def atomOps : List AtomOp :=
  [⟨.swap, fun _ b => b⟩, ⟨.atomicAdd, fun a b => a + b⟩, ⟨.atomicAnd, fun a b => a &&& b⟩, ⟨.atomicOr, fun a b => a ||| b⟩,
   ⟨.atomicXor, fun a b => a ^^^ b⟩, ⟨.atomicMin, fun a b => if b.slt a then b else a⟩, ⟨.atomicMax, fun a b => if a.slt b then b else a⟩,
   ⟨.atomicMinu, fun a b => if b.ult a then b else a⟩, ⟨.atomicMaxu, fun a b => if a.ult b then b else a⟩]
/-- The state in which an atomic of core n with marks m is performed: what 05/R153 and 04/R125 order before it has drained. -/
def beforeAtomic (v : State) (n : Nat) (m : Mark) (pa size : Nat) : State :=
  let w := if m.getLsbD 0 then v.drainReleases n else v
  (if m.getLsbD 1 then (w.drainAll n).wcDrainAll n else w.drainOver n (upto pa size)).sealSb n
/-- Core n replaces `size` bytes at `pa` atomically: the new bytes are in memory, and a mirrored creel captures the line. -/
def atomically (w : State) (n : CoreId) (pa size new : Nat) : State :=
  let y := w.wrBytes pa (toLe size new)
  match w.creelOf n with | some c => y.capture c n [pa / 64] | none => y

end Sys2Proof.Claims

open Sys2Proof Sys2Proof.Machine Sys2Proof.Claims

/-- 03/R73: a narrow load sign- or zero-extends; a pair takes the low half first. -/
def Sys2Proof.Claims.LoadedBytesExtend : Prop :=
  ∀ (u : State) (a : Agent) (d : Reg) (b : Bytes),
    (b.length = 1 → u.deliver a (.reg d.toNat 1 true) b = u.wrG a d.toNat ((BitVec.ofNat 8 (leNat b)).signExtend 64)) ∧
    (b.length = 2 → u.deliver a (.reg d.toNat 2 true) b = u.wrG a d.toNat ((BitVec.ofNat 16 (leNat b)).signExtend 64)) ∧
    (b.length = 4 → u.deliver a (.reg d.toNat 4 true) b = u.wrG a d.toNat ((BitVec.ofNat 32 (leNat b)).signExtend 64)) ∧
    (∀ k, k = 1 ∨ k = 2 ∨ k = 4 ∨ k = 8 →
      u.deliver a (.reg d.toNat k false) b = u.wrG a d.toNat (BitVec.ofNat 64 (leNat b))) ∧
    (b.length = 16 → u.deliver a (.pair d.toNat) b =
      (u.wrG a d.toNat (BitVec.ofNat 64 (leNat b))).wrG a (d.toNat + 1) (BitVec.ofNat 64 (leNat b / 2 ^ 64)))

/-- 03/R73 to R75, 04/R125, R126: a load of WB memory by a core gives its destination the bytes of memory, or those of the
youngest buffered store that overlaps and covers it; where that store covers a part only, the load parks. -/
def Sys2Proof.Claims.CoreLoadResults : Prop :=
  ∀ o ∈ pairLoad :: loadOps, ∀ (g : PReg) (d b : Reg) (off : BitVec 7) (m : Mark) (s u v : State) (n : CoreId) ev halves evs,
    CoreRuns s n g u ev → m.getLsbD 1 = false → (o.size = 16 → d.getLsbD 0 = false) →
    u.access n (addrOf (u.core n).x b off o.size) o.size .load (m.getLsbD 0) false = (v, .ok halves evs) →
    (∀ h ∈ halves, h.2.2 = .wb) →
    let w := acquired v n m
    let as := addrsOf halves
    ((∀ e ∈ (w.core n).sb, overlaps e.bytes as = false) → Readable w as →
      ∃ t x, exec (o.instr (.core n) g d b off m) s = .next t ∧ CacheOnly w x ∧
        CoreCompletes (x.deliver (.core n) (o.dest d.toNat) (as.map w.rd8)) t n ((u.core n).x.pc + 4)) ∧
    (∀ pre e post, (w.core n).sb = pre ++ e :: post → overlaps e.bytes as = true → (∀ f ∈ post, overlaps f.bytes as = false) →
      ((∀ a ∈ as, e.bytes.has a = true) →
        ∃ t, exec (o.instr (.core n) g d b off m) s = .next t ∧
          CoreCompletes (w.deliver (.core n) (o.dest d.toNat) (as.map fun a => e.bytes.get 0 a)) t n ((u.core n).x.pc + 4)) ∧
      ((∃ a ∈ as, e.bytes.has a = false) →
        exec (o.instr (.core n) g d b off m) s = .next (w.modCore n fun c =>
          { c with parked := some { va := addrOf (u.core n).x b off o.size, addrs := as, dest := o.dest d.toNat, acquire := m.getLsbD 0 } })))

/-- 05/R149 to R151, R159, R160: a load of UC or WC memory reads memory after the buffered stores it overlaps; a load of a
page that the device serves itself reads that register. -/
def Sys2Proof.Claims.UncachedAndDeviceLoads : Prop :=
  ∀ o ∈ loadOps, ∀ (g : PReg) (d b : Reg) (off : BitVec 7) (m : Mark) (s u v : State) (n : CoreId) ev halves evs,
    CoreRuns s n g u ev → m.getLsbD 1 = false →
    u.access n (addrOf (u.core n).x b off o.size) o.size .load (m.getLsbD 0) false = (v, .ok halves evs) →
    let w := acquired v n m
    let as := addrsOf halves
    ((∀ h ∈ halves, h.2.2 = .uc ∨ h.2.2 = .wc) → halves ≠ [] →
      let y := w.drainOver n as
      let x := if (y.core n).wc.any (fun k => overlaps k.bytes as) then y.wcDrainAll n else y
      Readable x as →
      ∃ t z, exec (o.instr (.core n) g d b off m) s = .next t ∧ CacheOnly x z ∧
        CoreCompletes (z.deliver (.core n) (o.dest d.toNat) (as.map x.rd8)) t n ((u.core n).x.pc + 4)) ∧
    (∀ pa, halves = [(pa, o.size, .strict)] →
      let x := (w.drainAll n).wcDrainAll n
      (x.core n).strict = [] → x.ownPage pa = true →
      let r := x.regRead (some n) ((x.creelOf n).getD 64) pa o.size
      ∃ t, exec (o.instr (.core n) g d b off m) s = .next t ∧
        CoreCompletes ((r.1.deliver (.core n) (o.dest d.toNat) (toLe o.size r.2)).modCore n fun c => { c with ioFence := true })
          t n ((u.core n).x.pc + 4))
/-- 03/R73 to R75, 04/R125, R126, 05/R149 to R151, R159, R160: what the loads of a core give. -/
def Obligations.CoreLoads : Prop :=
  Claims.LoadedBytesExtend ∧ Claims.CoreLoadResults ∧ Claims.UncachedAndDeviceLoads


/-- 03/R73 to R75, 04/R123: a store of a core to memory enters the store buffer, half by half, at the addresses its operand
names; a store to a page that the device serves itself writes that register. -/
def Sys2Proof.Claims.CoreStoreResults : Prop :=
  ∀ o ∈ pairStore :: storeOps, ∀ (g : PReg) (d b : Reg) (off : BitVec 7) (m : Mark) (s u v : State) (n : CoreId) ev halves evs,
    CoreRuns s n g u ev → m.getLsbD 0 = false → (o.size = 16 → d.getLsbD 0 = false) →
    u.access n (addrOf (u.core n).x b off o.size) o.size .store (m.getLsbD 1) false = (v, .ok halves evs) →
    v.mirrored n = false →
    ((∀ h ∈ halves, isDevType h.2.2 = false) →
      ∃ t, exec (o.instr (.core n) g d b off m) s = .next t ∧
        CoreCompletes (v.pushHalves n (m.getLsbD 1) 1 (v.storeHalves o.size halves) (o.bytes (u.core n).x d.toNat)) t n ((u.core n).x.pc + 4)) ∧
    (∀ pa, halves = [(pa, o.size, .strict)] → o.size ≠ 16 →
      let x := (v.drainAll n).wcDrainAll n
      (x.core n).strict = [] → x.ownPage pa = true →
      ∃ t, exec (o.instr (.core n) g d b off m) s = .next t ∧
        CoreCompletes ((x.regWrite (some n) ((x.creelOf n).getD 64) pa o.size (leNat (o.bytes (u.core n).x d.toNat))).modCore n
          fun c => { c with ioFence := true }) t n ((u.core n).x.pc + 4))

/-- 04/R123, R124: bytes that enter a buffer with room join the last place of the buffer or an older entry of their line that
may still be merged into, and change no byte of memory. `k` is how many stores they count as (05/R171). -/
def Sys2Proof.Claims.BufferedStoresLeaveMemory : Prop :=
  ∀ (s : State) (n : Nat) (mt : MemType) (m : FMap Byte) (rel : Bool) (k : Nat), (s.core n).sb.length < 128 →
    (s.pushStore n mt m rel k).mem = s.mem ∧
    (∀ j, j ≠ n → (s.pushStore n mt m rel k).core j = s.core j) ∧
    ((∃ pre e post, (s.core n).sb = pre ++ e :: post ∧ e.mt = .wb ∧ e.sealed = false ∧ e.release = false ∧
        ((s.pushStore n mt m rel k).core n).sb = pre ++ { e with bytes := mapMerge e.bytes m, stores := e.stores + k } :: post) ∨
      ∃ pre, ((s.pushStore n mt m rel k).core n).sb = pre ++ [{ mt := mt, bytes := m, sealed := rel, release := rel, stores := k }] ∧
        pre.map (fun e => (e.mt, e.bytes, e.release, e.stores)) = (s.core n).sb.map fun e => (e.mt, e.bytes, e.release, e.stores))

/-- 04/R123: the head of the store buffer drains to memory, at its own bytes only, once L1D holds its lines in M or E; without
them it waits in miss buffers, and an empty buffer does nothing. -/
def Sys2Proof.Claims.StoreDrainWritesItsBytes : Prop :=
  ∀ (n : CoreId) (s : State),
    ((s.core n).sb = [] → exec (.storeDrain n) s = .next s) ∧
    (∀ e r, (s.core n).sb = e :: r → e.mt = .wb → (∀ a ∈ mapKeys e.bytes, s.region a ≠ .reserved) →
      ((∃ a ∈ mapKeys e.bytes, s.l1dOwned (s.tileOf n) (a / 64) = false) →
        exec (.storeDrain n) s = .next (s.takeMiss (s.tileOf n)
          (((mapKeys e.bytes).map (· / 64)).eraseDups.filter fun l => !s.l1dOwned (s.tileOf n) l))) ∧
      ((∀ a ∈ mapKeys e.bytes, s.l1dOwned (s.tileOf n) (a / 64) = true) →
        (mapKeys e.bytes).Nodup → e.release = false →
        ∃ t, exec (.storeDrain n) s = .next t ∧ (t.core n).sb = r ∧
          (∀ a, t.mem.read a = if e.bytes.has a then e.bytes.get 0 a else s.mem.read a)))
/-- 03/R73 to R75, 04/R123, R124: the stores of a core, from the instruction to memory. -/
def Obligations.CoreStores : Prop :=
  Claims.CoreStoreResults ∧ Claims.BufferedStoresLeaveMemory ∧ Claims.StoreDrainWritesItsBytes


/-- 03/R78, R79: an atomic of a core gives its destination the old value and memory the new one, in one step, and writes no
other byte. -/
def Sys2Proof.Claims.CoreAtomicResults : Prop :=
  ∀ (g : PReg) (m : Mark) (s u v : State) (n : CoreId) ev halves evs pa ln mt,
    CoreRuns s n g u ev → (m.getLsbD 1 = false ∨ v.mirrored n = false) → halves = [(pa, ln, mt)] →
    (∀ o ∈ atomOps, ∀ d s1 s2 : Reg, u.access n ((u.core n).x.rd s1.toNat) 8 .atomic true false = (v, .ok halves evs) →
      let w := beforeAtomic v n m pa 8
      Readable w [pa] →
      let old := w64 (leNat (w.rdBytes pa 8))
      ∃ t x, exec (o.instr (.core n) g d s1 s2 m) s = .next t ∧ CacheOnly w x ∧
        CoreCompletes ((atomically x n pa 8 (o.new old ((u.core n).x.rd s2.toNat)).toNat).wrG (.core n) d.toNat old) t n
          ((u.core n).x.pc + 4)) ∧
    (∀ (d b : Reg) (off : BitVec 7), d.getLsbD 0 = false →
      u.access n (addrOf (u.core n).x b off 8) 8 .atomic true false = (v, .ok halves evs) →
      let w := beforeAtomic v n m pa 8
      Readable w [pa] →
      let old := leNat (w.rdBytes pa 8)
      ∃ t x, exec (.cas (.core n) g d b off m) s = .next t ∧ CacheOnly w x ∧
        CoreCompletes ((atomically x n pa 8 (if old = ((u.core n).x.rd d.toNat).toNat then ((u.core n).x.rd (d.toNat + 1)).toNat else old)).wrG
          (.core n) d.toNat (w64 old)) t n ((u.core n).x.pc + 4)) ∧
    (∀ (d b : Reg) (off : BitVec 7), d.getLsbD 0 = false → d.getLsbD 1 = false →
      u.access n (addrOf (u.core n).x b off 16) 16 .atomic true false = (v, .ok halves evs) →
      let w := beforeAtomic v n m pa 16
      Readable w [pa] →
      let x := (u.core n).x
      let pair := fun k => (x.rd k).toNat + 2 ^ 64 * (x.rd (k + 1)).toNat
      let old := leNat (w.rdBytes pa 16)
      ∃ t y, exec (.cas16 (.core n) g d b off m) s = .next t ∧ CacheOnly w y ∧
        CoreCompletes (((atomically y n pa 16 (if old = pair d.toNat then pair (d.toNat + 2) else old)).wrG
          (.core n) d.toNat (w64 old)).wrG (.core n) (d.toNat + 1) (w64 (old / 2 ^ 64))) t n (x.pc + 4))

/-- 03/R78, R79 (frame): of all of memory an atomic changes the bytes it replaces and no other. -/
def Sys2Proof.Claims.AtomicsWriteOnlyTheirBytes : Prop :=
  ∀ (w : State) (n : CoreId) (pa size new a : Nat),
    (atomically w n pa size new).mem.read a =
      if pa ≤ a ∧ a < pa + size then BitVec.ofNat 8 (new / 256 ^ (a - pa)) else w.mem.read a
/-- 03/R78, R79: the atomics of a core: result, new memory, and no other byte. -/
def Obligations.CoreAtomics : Prop :=
  Claims.CoreAtomicResults ∧ Claims.AtomicsWriteOnlyTheirBytes


/-- 03/R111, 03/R80, 06/R175: with translation off, an aligned access within a page of present DRAM reaches the physical address
equal to its address, as WB memory, where a segment of its creel allows it, and changes nothing; a misaligned marked access and a misaligned atomic do not. -/
def Obligations.UntranslatedAccesses : Prop :=
  ∀ (s : State) (n : Nat) (va : W64) (size : Nat) (k : AccKind) (al : Bool),
    (s.core n).xlateOn = false → (size = 1 ∨ size = 2 ∨ size = 4 ∨ size = 8 ∨ size = 16) → k ≠ .fetch →
    (∀ cr, va.toNat % size = 0 → va.toNat + size ≤ s.installed → s.installed ≤ 0x80000000000 →
      s.creelOf n = some cr → s.segOk cr va.toNat (rightOf k) = true →
      ∃ evs, s.access n va size k al false = (s, .ok [(va.toNat, size, .wb)] evs)) ∧
    (va.toNat % size ≠ 0 → s.access n va size k true false = (s, .exc 8 va (einfoOf false (log2Size size) 0 1)))

/-- 04/R134, 13/R404: a load, store or atomic of a sequencer in private mode reaches the local space; in shared mode a hit reads
or writes memory through its cache, an atomic leaves its result to come (04/R137). -/
def Obligations.SequencerMemoryAccess : Prop :=
  ∀ (g : PReg) (d b : Reg) (off : BitVec 7) (s u : State) (q : SeqId),
    (∀ o ∈ pairLoad :: loadOps, (o.size = 16 → d.getLsbD 0 = false) → SeqRuns s q g [b.toNat] (o.writes d.toNat) u →
      let i := seqIx q
      let v := seqBody u q (o.writes d.toNat)
      let ea := (addrOf (u.seq i).x b off o.size).toNat
      (∀ x y, tbit (v.seq i).mode 1 = false → (x.seq i).badLocal = false → v.localLoad i ea o.size (o.dest d.toNat) = .val x y →
        exec (o.instr (.seq q) g d b off 0) s =
          .next (seqNext (x.deliver (.seq q) (o.dest d.toNat) (toLe o.size y)) q ((u.seq i).x.pc + 4) o.beats (some d.toNat))) ∧
      (tbit (v.seq i).mode 1 = true → v.sealedHit i ea o.size = false → v.seqCheck i (addrOf (u.seq i).x b off o.size) o.size false = true →
        v.seqDev ea o.size = false → (∀ l ∈ linesOf ea o.size, v.seqPresent i l = true ∧ v.poisoned l = false ∧ l ∉ (v.seq i).badLines) →
        ∃ x, CacheOnly v x ∧ exec (o.instr (.seq q) g d b off 0) s =
          .next (seqNext (x.deliver (.seq q) (o.dest d.toNat) ((upto ea o.size).map v.rd8)) q ((u.seq i).x.pc + 4) (o.beats + 1)
            (some d.toNat)))) ∧
    (∀ o ∈ pairStore :: storeOps, (o.size = 16 → d.getLsbD 0 = false) → SeqRuns s q g (b.toNat :: o.reads d.toNat) [] u →
      let i := seqIx q
      let v := seqBody u q []
      let ea := (addrOf (u.seq i).x b off o.size).toNat
      let bytes := o.bytes (u.seq i).x d.toNat
      (∀ x y, tbit (v.seq i).mode 1 = false → v.localStore i ea bytes = .val x y →
        exec (o.instr (.seq q) g d b off 0) s = .next (seqNext x q ((u.seq i).x.pc + 4) o.beats none)) ∧
      (tbit (v.seq i).mode 1 = true → v.sealedHit i ea o.size = false → v.seqCheck i (addrOf (u.seq i).x b off o.size) o.size true = true →
        v.seqDev ea o.size = false → (∀ l ∈ linesOf ea o.size, v.seqPresent i l = true) →
        ∃ x, CacheOnly v x ∧ exec (o.instr (.seq q) g d b off 0) s =
          .next (seqNext (match v.seqCreel i with
            | some c => (x.store (bytesAt (upto ea o.size) bytes)).captureLines c (linesOf ea o.size)
            | none => x.store (bytesAt (upto ea o.size) bytes)) q ((u.seq i).x.pc + 4) (o.beats + 1) none))) ∧
    (∀ o ∈ atomOps, ∀ (s1 s2 : Reg) (m : Mark), SeqRuns s q g [s1.toNat, s2.toNat] [d.toNat] u →
      let i := seqIx q
      let v := seqBody u q [d.toNat]
      let va := (u.seq i).x.rd s1.toNat
      va.toNat % 8 = 0 → tbit (v.seq i).mode 1 = true → v.sealedHit i va.toNat 8 = false →
      v.seqDev va.toNat 8 = false → v.region va.toNat ≠ .cxl false →
      v.seqCheck i va 8 false = true → v.seqCheck i va 8 true = true → (v.seq i).missBusy = false → v.poisoned (va.toNat / 64) = false →
      ∃ x, CacheOnly v x ∧
        let old := w64 (leNat (v.rdBytes va.toNat 8))
        let y := x.wrBytes va.toNat (toLe 8 (o.new old ((u.seq i).x.rd s2.toNat)).toNat)
        let y := match v.seqCreel i with | some c => y.captureLines c [va.toNat / 64] | none => y
        let rs := [d.toNat].filter (· ≠ 0)
        exec (o.instr (.seq q) g d s1 s2 m) s = .next (seqNext (y.modSeq i fun z => { z with
            busy := z.busy ++ rs,
            ops := z.ops ++ [{ dev := none, regs := rs, vals := [old], poison := false, done := true, miss := true }] })
          q ((u.seq i).x.pc + 4) 7 (some d.toNat)))

/-- 03/R81, R82, R97, 04/R121, 05/R154, R161: what each barrier and each instruction of prediction control does on a core. -/
def Obligations.BarriersComplete : Prop :=
  (∀ x : State, CoreOp.Completes ⟨fun n g => .fence (.core n) g, fun u n => ((u.drainAll n).wcDrainAll n).commitGate n = (x, true), fun _ _ => x⟩) ∧
  (∀ x : State, CoreOp.Completes ⟨fun n g => .fenceIo (.core n) g, fun u n => (((u.drainAll n).wcDrainAll n).core n).strict = [] ∧
    ((u.drainAll n).wcDrainAll n).commitGate n = (x, true), fun _ _ => x⟩) ∧
  CoreOp.Completes ⟨fun n g => .fenceSt (.core n) g, fun u n => u.mirrored n = false ∧ (u.core n).sb ≠ [],
    fun u n => ((u.wcDrainAll n).sealSb n).modCore n fun c =>
      { c with sb := c.sb ++ [{ mt := .wb, bytes := [], sealed := true, release := true, stores := 0 }] }⟩ ∧
  CoreOp.Completes ⟨fun n g => .fenceSt (.core n) g, fun u n => u.mirrored n = false ∧ (u.core n).sb = [],
    fun u n => (u.wcDrainAll n).sealSb n⟩ ∧
  CoreOp.Completes ⟨fun n g => .fenceSpec (.core n) g, fun _ _ => True, fun u _ => u⟩ ∧
  CoreOp.Completes ⟨fun n g => .isync (.core n) g, fun _ _ => True, fun u n => u.modCore n Core.isync⟩ ∧
  CoreOp.Completes ⟨fun n g => .pbar (.core n) g, fun _ _ => True, fun u n => u.modCore n fun c =>
    { c with pred := { c.pred with epoch := c.pred.epoch + 1 } }⟩ ∧
  CoreOp.Completes ⟨fun n g => .pflush (.core n) g, fun u n => (u.core n).priv = true, fun u n => u.modCore n fun c =>
    { c with pred := { c.pred with btb1 := [], btb2 := [], dir := [], hist := [], ras := [] } }⟩ ∧
  (∀ (s u : State) (q : SeqId) (g : PReg), SeqRuns s q g [] [] u →
    let v := seqBody u q []
    let next := seqNext v q ((u.seq (seqIx q)).x.pc + 4) 3 none
    ((v.seq (seqIx q)).missBusy = false → ∀ i ∈ [Instr.fence (.seq q) g, .fenceSt (.seq q) g], exec i s = .next next) ∧
    ((v.seq (seqIx q)).missBusy = false → (v.seq (seqIx q)).openIo = false → exec (.fenceIo (.seq q) g) s = .next next) ∧
    (∀ i ∈ [Instr.fenceSpec (.seq q) g, .isync (.seq q) g, .pbar (.seq q) g], exec i s = .next next) ∧
    exec (.pflush (.seq q) g) s =
      .next ((u.modSeq (seqIx q) fun z => { z with beats := z.beats + (if z.leftLoop then 5 else 3) }).endProgram (seqIx q) 1 0))

/-! # MIS-3: arithmetic of other formats (03/R83 to R94) -/

namespace Sys2Proof.Claims
open Sys2Proof Sys2Proof.Machine

/-- A scalar binary floating-point instruction: its result and the flags it raises, by format, rounding mode and context. -/
structure FpOp where
  instr : Agent → PReg → FpFmt → Reg → Reg → Reg → Instr
  op : FpFmt → Nat → Ctx → Reg → Reg → Reg → Nat × Nat
/-- The low bits of a source that a format reads (03/R83). -/
def low (f : FpFmt) (v : W64) : Nat := match f with | .d => v.toNat | .s => v.toNat % 2 ^ 32
def binary (mk : Agent → PReg → FpFmt → Reg → Reg → Reg → Instr) (op : BinFmt → Nat → Nat → Nat → Nat × Nat) : FpOp :=
  ⟨mk, fun f rm x _ s1 s2 => op (fmtOf f) rm (low f (x.rd s1.toNat)) (low f (x.rd s2.toNat))⟩
def fpOps : List FpOp :=
  [binary .fadd binAdd, binary .fsub binSub, binary .fmul binMul, binary .fdiv binDiv,
   binary .fmin (fun t _ x y => binMinMax t false x y), binary .fmax (fun t _ x y => binMinMax t true x y),
   binary .fcmp (fun t _ x y => quietCmp 2 (t.decode x) (t.decode y)),
   ⟨.fma, fun f rm x d s1 s2 => binFma (fmtOf f) rm (low f (x.rd s1.toNat)) (low f (x.rd s2.toNat)) (low f (x.rd d.toNat))⟩,
   ⟨fun a g f d s1 _ => .fsqrt a g f d s1, fun f rm x _ s1 _ => binSqrt (fmtOf f) rm (low f (x.rd s1.toNat))⟩,
   ⟨fun a g f d s1 _ => .fcvtDL a g f d s1, fun f rm x _ s1 _ => binFromInt (fmtOf f) rm (x.rd s1.toNat).toInt⟩,
   ⟨fun a g f d s1 _ => .fcvtLD a g f d s1, fun f rm x _ s1 _ => binToInt (fmtOf f) rm 64 (low f (x.rd s1.toNat))⟩,
   ⟨fun a g _ d s1 _ => .fcvtDS a g d s1, fun _ rm x _ s1 _ => binCvt b32 b64 rm ((x.rd s1.toNat).toNat % 2 ^ 32)⟩,
   ⟨fun a g _ d s1 _ => .fcvtSD a g d s1, fun _ rm x _ s1 _ => binCvt b64 b32 rm (x.rd s1.toNat).toNat⟩,
   ⟨fun a g f d s1 _ => .fclass a g f d s1, fun f _ x _ s1 _ => (binClass (fmtOf f) (low f (x.rd s1.toNat)), 0)⟩]
/-- The flags field of SYS_DFPC at bit `lo` after flags are raised: they stick (03/R90, R101). -/
def sticky (v : W64) (lo raised : Nat) : W64 := setFld v (lo + 4) lo (fld v (lo + 4) lo ||| raised)
/-- Core n or sequencer q with SYS_DFPC written. -/
def dfpcCore (u : State) (n : Nat) (v : W64) : State := u.modCore n fun c => c.setSys 0x11 v
def dfpcSeq (u : State) (q : SeqId) (v : W64) : State := u.modSeq (seqIx q) fun z => { z with dfpc := v }

/-- A decimal instruction: which formats its destination and its sources have, its result and flags, and its beats on a
sequencer (none: cores only). -/
structure DecOp where
  instr : Agent → PReg → DecFmt → Reg → Reg → Reg → Instr
  dst : DecFmt → DecFmt
  src : DecFmt → DecFmt
  srcs : Reg → Reg → List Reg
  op : DecFmt → Nat → Ctx → Reg → Reg → Nat × Nat
  beats : Option (DecFmt → Nat)
/-- A decimal operand: one register, or an even-odd pair with the low half first (03/R85). -/
def decRead (f : DecFmt) (x : Ctx) (r : Reg) : Nat :=
  match f with | .d => (x.rd r.toNat).toNat | .q => (x.rd r.toNat).toNat + 2 ^ 64 * (x.rd (r.toNat + 1)).toNat
def decRegs (f : DecFmt) (r : Reg) : List Nat := match f with | .d => [r.toNat] | .q => [r.toNat, r.toNat + 1]
def decPut (u : State) (a : Agent) (f : DecFmt) (r : Reg) (v : Nat) : State :=
  match f with
  | .d => u.wrG a r.toNat (w64 v)
  | .q => (u.wrG a r.toNat (w64 v)).wrG a (r.toNat + 1) (w64 (v / 2 ^ 64))
def decEven (f : DecFmt) (r : Reg) : Prop := f = .q → r.getLsbD 0 = false
def decimal (mk : Agent → PReg → DecFmt → Reg → Reg → Reg → Instr) (op : DecFormat → Nat → Nat → Nat → Nat × Nat)
    (beats : Option (DecFmt → Nat)) : DecOp :=
  ⟨mk, id, id, fun s1 s2 => [s1, s2], fun f rm x s1 s2 => op (decOf f) rm (decRead f x s1) (decRead f x s2), beats⟩
def beatsDQ (d q : Nat) : DecFmt → Nat | .d => d | .q => q
def decOps : List DecOp :=
  [decimal .dadd decAdd (some (beatsDQ 5 6)), decimal .dsub decSub (some (beatsDQ 5 6)), decimal .dmul decMul (some (beatsDQ 7 7)),
   decimal .ddiv decDiv none, decimal .dqua decQua (some (beatsDQ 5 6)),
   ⟨fun a g f d s1 _ => .drint a g f d s1, id, id, fun s1 _ => [s1], fun f rm x s1 _ => decRint (decOf f) rm (decRead f x s1), some (beatsDQ 4 4)⟩,
   ⟨.dcmp, fun _ => .d, id, fun s1 s2 => [s1, s2],
     fun f _ x s1 s2 => quietCmp 10 ((decOf f).decode (decRead f x s1)) ((decOf f).decode (decRead f x s2)), some (beatsDQ 4 4)⟩,
   ⟨fun a g f d s1 _ => .dfromi a g f d s1, id, fun _ => .d, fun s1 _ => [s1],
     fun f rm x s1 _ => decFromInt (decOf f) rm (x.rd s1.toNat).toInt, some (beatsDQ 5 6)⟩,
   ⟨fun a g f d s1 _ => .dtoi a g f d s1, fun _ => .d, id, fun s1 _ => [s1],
     fun f rm x s1 _ => decToInt (decOf f) rm (decRead f x s1), some (beatsDQ 5 6)⟩,
   ⟨fun a g f d s1 _ => .dgetexp a g f d s1, fun _ => .d, id, fun s1 _ => [s1],
     fun f _ x s1 _ => decGetExp (decOf f) (decRead f x s1), some (beatsDQ 3 3)⟩,
   ⟨fun a g _ d s1 _ => .dwiden a g d s1, fun _ => .q, fun _ => .d, fun s1 _ => [s1],
     fun _ rm x s1 _ => decCvt dec64 dec128 rm (decRead .d x s1), some (beatsDQ 4 4)⟩,
   ⟨fun a g _ d s1 _ => .dnarrow a g d s1, fun _ => .d, fun _ => .q, fun s1 _ => [s1],
     fun _ rm x s1 _ => decCvt dec128 dec64 rm (decRead .q x s1), some (beatsDQ 5 5)⟩]

/-- Core n with v[d] written. -/
def vput (u : State) (n : Nat) (d : VReg) (v : W256) : State := u.modCore n fun c => { c with v := c.v.set d.toNat v }
def vget (u : State) (n : Nat) (r : VReg) : W256 := (u.core n).vr r.toNat
/-- A vector instruction of two sources that treats lanes of w bits one by one. -/
structure LaneOp where
  instr : Agent → PReg → VWidth → VReg → VReg → VReg → Instr
  lane : Nat → Nat → Nat → Nat
def laneOps : List LaneOp :=
  [⟨.vadd, fun w x y => (x + y) % 2 ^ w⟩, ⟨.vsub, fun w x y => (x + (2 ^ w - y)) % 2 ^ w⟩, ⟨.vmul, fun w x y => (x * y) % 2 ^ w⟩,
   ⟨.vmin, fun w x y => if signOf w x ≤ signOf w y then x else y⟩, ⟨.vmax, fun w x y => if signOf w x ≤ signOf w y then y else x⟩,
   ⟨.vminu, fun _ x y => min x y⟩, ⟨.vmaxu, fun _ x y => max x y⟩, ⟨.vcmpeq, fun w x y => if x = y then 2 ^ w - 1 else 0⟩]
/-- The lane shifts by k bits (03/R92). -/
structure LaneShift where
  instr : Agent → PReg → VWidth → VReg → VReg → BitVec 6 → Instr
  lane : Nat → Nat → Nat → Nat
def laneShifts : List LaneShift :=
  [⟨.vslli, fun w x k => x * 2 ^ k % 2 ^ w⟩, ⟨.vsrli, fun _ x k => x / 2 ^ k⟩,
   ⟨.vsrai, fun w x k => ((signOf w x / 2 ^ k) % 2 ^ w).toNat⟩]
/-- The instructions that write one vector register as a whole (03/R92, R94). -/
def vectorOps (d s1 s2 : VReg) (r : Reg) (l : BitVec 2) : List ((CoreId → PReg → Instr) × (State → CoreId → W256)) :=
  [(fun n g => .vand (.core n) g d s1 s2, fun u n => vget u n s1 &&& vget u n s2),
   (fun n g => .vor (.core n) g d s1 s2, fun u n => vget u n s1 ||| vget u n s2),
   (fun n g => .vxor (.core n) g d s1 s2, fun u n => vget u n s1 ^^^ vget u n s2),
   (fun n g => .vandn (.core n) g d s1 s2, fun u n => vget u n s1 &&& ~~~ vget u n s2),
   (fun n g => .vsel (.core n) g d s1 s2, fun u n => (vget u n d &&& vget u n s1) ||| (~~~ vget u n d &&& vget u n s2)),
   (fun n g => .vbcast (.core n) g d r, fun u n => ofLanes 64 (List.replicate 4 ((u.core n).x.rd r.toNat).toNat)),
   (fun n g => .vins (.core n) g d r l, fun u n => ofLanes 64 ((List.range 4).map fun i =>
      if i = l.toNat then ((u.core n).x.rd r.toNat).toNat else lane (vget u n d) 64 i)),
   (fun n g => .vpermB (.core n) g d s1 s2, fun u n => ofLanes 8 ((List.range 32).map fun i =>
      if 128 ≤ lane (vget u n s2) 8 i then 0 else lane (vget u n s1) 8 (lane (vget u n s2) 8 i % 32))),
   (fun n g => .vcmpgtD (.core n) g d s1 s2, fun u n => ofLanes 64 ((List.range 4).map fun i =>
      if signOf 64 (lane (vget u n s2) 64 i) < signOf 64 (lane (vget u n s1) 64 i) then 2 ^ 64 - 1 else 0))]
/-- A floating-point vector instruction: lanes of its format, each with a result and flags (03/R92). -/
def vectorFpOps (f : FpFmt) (d s1 s2 : VReg) :
    List ((CoreId → PReg → Instr) × Nat × (State → CoreId → Nat → Nat → Nat × Nat)) :=
  let w := match f with | .d => 64 | .s => 32
  let two := fun (op : Nat → Nat → Nat → Nat × Nat) (u : State) (n : CoreId) (rm i : Nat) =>
    op rm (lane (vget u n s1) w i) (lane (vget u n s2) w i)
  [(fun n g => .vfadd (.core n) g f d s1 s2, w, two (binAdd (fmtOf f))), (fun n g => .vfsub (.core n) g f d s1 s2, w, two (binSub (fmtOf f))),
   (fun n g => .vfmul (.core n) g f d s1 s2, w, two (binMul (fmtOf f))), (fun n g => .vfdiv (.core n) g f d s1 s2, w, two (binDiv (fmtOf f))),
   (fun n g => .vfmin (.core n) g f d s1 s2, w, two fun _ => binMinMax (fmtOf f) false),
   (fun n g => .vfmax (.core n) g f d s1 s2, w, two fun _ => binMinMax (fmtOf f) true),
   (fun n g => .vfma (.core n) g f d s1 s2, w, fun u n rm i =>
      binFma (fmtOf f) rm (lane (vget u n s1) w i) (lane (vget u n s2) w i) (lane (vget u n d) w i)),
   (fun n g => .vfcmplt (.core n) g f d s1 s2, w, two fun _ x y =>
      let r := quietCmp 2 ((fmtOf f).decode x) ((fmtOf f).decode y)
      (if r.1 = 1 then 2 ^ w - 1 else 0, r.2)),
   (fun n g => .vcvtSW (.core n) g d s1, 32, fun u n rm i => binFromInt b32 rm (signOf 32 (lane (vget u n s1) 32 i))),
   (fun n g => .vcvtWS (.core n) g d s1, 32, fun u n rm i => binToInt b32 rm 32 (lane (vget u n s1) 32 i)),
   (fun n g => .vcvtDL (.core n) g d s1, 64, fun u n rm i => binFromInt b64 rm (signOf 64 (lane (vget u n s1) 64 i))),
   (fun n g => .vcvtLD (.core n) g d s1, 64, fun u n rm i => binToInt b64 rm 64 (lane (vget u n s1) 64 i))]
/-- The bytes of half h of a vector register, from its lowest (03/R94). -/
def halfBytes (v : W256) (h : Nat) : Bytes := (List.range 16).map fun i => BitVec.ofNat 8 (v.toNat / 2 ^ (8 * (16 * h + i)))
def aesBoth (f : Bytes → Bytes → Bytes) (x k : W256) : W256 :=
  ofLanes 8 ((f (halfBytes x 0) (halfBytes k 0) ++ f (halfBytes x 1) (halfBytes k 1)).map (·.toNat))
/-- The cryptographic assists on vector registers (03/R94). -/
def cryptoOps (d s1 s2 : VReg) : List ((CoreId → PReg → Instr) × (W256 → W256 → W256)) :=
  let sha := fun (w : Nat) (sg : Nat → Nat) (a b : W256) =>
    ofLanes w ((List.range (256 / w)).map fun i => (lane a w i + sg (lane b w i)) % 2 ^ w)
  let s32 := fun (r1 r2 k x : Nat) =>
    let v := BitVec.ofNat 32 x
    (v.rotateRight r1 ^^^ v.rotateRight r2 ^^^ (v >>> k)).toNat
  let s64 := fun (r1 r2 k x : Nat) =>
    let v := BitVec.ofNat 64 x
    (v.rotateRight r1 ^^^ v.rotateRight r2 ^^^ (v >>> k)).toNat
  [(fun n g => .aese (.core n) g d s1 s2, aesBoth fun x k => xorBytes (mixColumns (shiftRows (x.map sbox))) k),
   (fun n g => .aesel (.core n) g d s1 s2, aesBoth fun x k => xorBytes (shiftRows (x.map sbox)) k),
   (fun n g => .aesd (.core n) g d s1 s2, aesBoth fun x k => xorBytes (mixColumnsInv (shiftRowsInv (x.map sboxInv))) k),
   (fun n g => .aesdl (.core n) g d s1 s2, aesBoth fun x k => xorBytes (shiftRowsInv (x.map sboxInv)) k),
   (fun n g => .aesimc (.core n) g d s1, aesBoth fun x _ => mixColumnsInv x),
   (fun n g => .sha256ms0 (.core n) g d s1 s2, sha 32 (s32 7 18 3)), (fun n g => .sha256ms1 (.core n) g d s1 s2, sha 32 (s32 17 19 10)),
   (fun n g => .sha512ms0 (.core n) g d s1 s2, sha 64 (s64 1 8 7)), (fun n g => .sha512ms1 (.core n) g d s1 s2, sha 64 (s64 19 61 6))]

end Sys2Proof.Claims

open Sys2Proof Sys2Proof.Machine Sys2Proof.Claims

/-- 03/R83, R84, R88, R90, R91: a binary floating-point instruction writes its result and its sticky flags, or, where an enabled
trap is among the flags raised, takes the trap and writes neither. -/
def Obligations.BinaryFloatingPointResults : Prop :=
  ∀ o ∈ fpOps, ∀ (f : FpFmt) (g : PReg) (d s1 s2 : Reg) (s u : State) (n : CoreId) ev, CoreRuns s n g u ev →
    let v := (u.core n).sysr 0x11
    let r := o.op f (fld v 5 3) (u.core n).x d s1 s2
    (fld v 25 21 &&& r.2 = 0 →
      ∃ t, exec (o.instr (.core n) g f d s1 s2) s = .next t ∧
        CoreCompletes ((dfpcCore u n (sticky v 16 r.2)).wrG (.core n) d.toNat (w64 r.1)) t n ((u.core n).x.pc + 4)) ∧
    (fld v 25 21 &&& r.2 ≠ 0 → exec (o.instr (.core n) g f d s1 s2) s = .next (u.takeExc n 0xA none (w64 (r.2 % 32))))

/-- 03/R85 to R87, R90, R91: a decimal instruction, on a core and on a sequencer, with its own flags and traps. -/
def Obligations.DecimalResults : Prop :=
  ∀ o ∈ decOps, ∀ (f : DecFmt) (g : PReg) (d s1 s2 : Reg) (s u : State), decEven (o.dst f) d → (∀ r ∈ o.srcs s1 s2, decEven (o.src f) r) →
    (∀ (n : CoreId) ev, CoreRuns s n g u ev →
      let v := (u.core n).sysr 0x11
      let r := o.op f (fld v 2 0) (u.core n).x s1 s2
      (fld v 15 11 &&& r.2 = 0 →
        ∃ t, exec (o.instr (.core n) g f d s1 s2) s = .next t ∧
          CoreCompletes (decPut (dfpcCore u n (sticky v 6 r.2)) (.core n) (o.dst f) d r.1) t n ((u.core n).x.pc + 4)) ∧
      (fld v 15 11 &&& r.2 ≠ 0 → exec (o.instr (.core n) g f d s1 s2) s = .next (u.takeExc n 9 none (w64 (r.2 % 32))))) ∧
    (∀ (q : SeqId) b, o.beats = some b → SeqRuns s q g ((o.srcs s1 s2).flatMap (decRegs (o.src f))) (decRegs (o.dst f) d) u →
      let v := (u.seq (seqIx q)).dfpc
      let r := o.op f (fld v 2 0) (u.seq (seqIx q)).x s1 s2
      let w := seqBody u q (decRegs (o.dst f) d)
      (fld v 15 11 &&& r.2 = 0 →
        exec (o.instr (.seq q) g f d s1 s2) s =
          .next (seqNext (decPut (dfpcSeq w q (sticky v 6 r.2)) (.seq q) (o.dst f) d r.1) q
            ((u.seq (seqIx q)).x.pc + 4) (b f) (some d.toNat))) ∧
      (fld v 15 11 &&& r.2 ≠ 0 → exec (o.instr (.seq q) g f d s1 s2) s = .next (w.endProgram (seqIx q) 9 0)))

/-- 03/R92: lane-wise instructions give each lane of v[d] the operation on the lanes of the sources, cut to the lane. -/
def Sys2Proof.Claims.VectorLaneResults : Prop :=
  (∀ o ∈ laneOps, ∀ (e : VWidth) (g : PReg) (d s1 s2 : VReg) (s u : State) (n : CoreId) ev, CoreRuns s n g u ev →
    ∃ t v, exec (o.instr (.core n) g e d s1 s2) s = .next t ∧ CoreCompletes (vput u n d v) t n ((u.core n).x.pc + 4) ∧
      ∀ i, i < 256 / laneBits e →
        lane v (laneBits e) i = o.lane (laneBits e) (lane (vget u n s1) (laneBits e) i) (lane (vget u n s2) (laneBits e) i)) ∧
  (∀ o ∈ laneShifts, ∀ (e : VWidth) (g : PReg) (d s1 : VReg) (k : BitVec 6) (s u : State) (n : CoreId) ev,
    (CoreRuns s n g u ev → e ≠ .b → k.toNat < laneBits e →
      ∃ t v, exec (o.instr (.core n) g e d s1 k) s = .next t ∧ CoreCompletes (vput u n d v) t n ((u.core n).x.pc + 4) ∧
        ∀ i, i < 256 / laneBits e → lane v (laneBits e) i = o.lane (laneBits e) (lane (vget u n s1) (laneBits e) i) k.toNat) ∧
    (CoreFetches s n u ev → e = .b ∨ laneBits e ≤ k.toNat → exec (o.instr (.core n) g e d s1 k) s = .next (u.takeExc n 1 none 0)))

/-- 03/R92: the instructions that write a vector register as a whole, and those that move vector data to a general register. -/
def Sys2Proof.Claims.VectorRegisterResults : Prop :=
  (∀ (d s1 s2 : VReg) (r : Reg) (l : BitVec 2), ∀ o ∈ vectorOps d s1 s2 r l,
    CoreOp.Completes ⟨o.1, fun _ _ => True, fun u n => vput u n d (o.2 u n)⟩) ∧
  (∀ (d : Reg) (s1 : VReg) (l : BitVec 2), CoreOp.Completes ⟨fun n g => .vext (.core n) g d s1 l, fun _ _ => True,
    fun u n => u.wrG (.core n) d.toNat (w64 (lane (vget u n s1) 64 l.toNat))⟩) ∧
  (∀ (d : Reg) (s1 : VReg), CoreOp.Completes ⟨fun n g => .vredaddD (.core n) g d s1, fun _ _ => True,
    fun u n => u.wrG (.core n) d.toNat (w64 (lane (vget u n s1) 64 0 + lane (vget u n s1) 64 1 + lane (vget u n s1) 64 2 + lane (vget u n s1) 64 3))⟩) ∧
  (∀ (d : VReg) (s1 s2 : Reg) (s u v : State) (n : CoreId) (g : PReg) ev halves evs, CoreRuns s n g u ev →
    (u.access n ((u.core n).x.rd s1.toNat + (u.core n).x.rd s2.toNat) 32 .load false true = (v, .ok halves evs) →
      (∀ h ∈ halves, h.2.2 = .wb) → (∀ e ∈ (v.core n).sb, overlaps e.bytes (addrsOf halves) = false) → Readable v (addrsOf halves) →
      ∃ t x, exec (.vld (.core n) g d s1 s2) s = .next t ∧ CacheOnly v x ∧
        CoreCompletes (vput x n d (BitVec.ofNat 256 (leNat ((addrsOf halves).map v.rd8)))) t n ((u.core n).x.pc + 4)) ∧
    (u.access n ((u.core n).x.rd s1.toNat + (u.core n).x.rd s2.toNat) 32 .store false true = (v, .ok halves evs) →
      (∀ h ∈ halves, isDevType h.2.2 = false) →
      ∃ t, exec (.vst (.core n) g d s1 s2) s = .next t ∧
        CoreCompletes (v.pushHalves n false 1 (v.storeHalves 32 halves) (halfBytes (vget u n d) 0 ++ halfBytes (vget u n d) 1)) t n ((u.core n).x.pc + 4)))
/-- 03/R92, R93: the vector instructions. -/
def Obligations.VectorResults : Prop :=
  Claims.VectorLaneResults ∧ Claims.VectorRegisterResults


/-- 03/R92, R84, R90, R91: a floating-point vector instruction raises the flags of all its lanes together, and traps as a scalar. -/
def Obligations.VectorFloatingPointResults : Prop :=
  ∀ (f : FpFmt) (d s1 s2 : VReg), ∀ o ∈ vectorFpOps f d s1 s2, ∀ (g : PReg) (s u : State) (n : CoreId) ev, CoreRuns s n g u ev →
    let v := (u.core n).sysr 0x11
    let rs := (List.range (256 / o.2.1)).map (o.2.2 u n (fld v 5 3))
    let raised := (rs.map (·.2)).foldl (· ||| ·) 0
    (fld v 25 21 &&& raised = 0 →
      ∃ t, exec (o.1 n g) s = .next t ∧
        CoreCompletes (vput (dfpcCore u n (sticky v 16 raised)) n d (ofLanes o.2.1 (rs.map (·.1)))) t n ((u.core n).x.pc + 4)) ∧
    (fld v 25 21 &&& raised ≠ 0 → exec (o.1 n g) s = .next (u.takeExc n 0xA none (w64 (raised % 32))))

/-- 03/R94: the cryptographic assists. -/
def Obligations.CryptoAssistResults : Prop :=
  (∀ (d s1 s2 : VReg), ∀ o ∈ cryptoOps d s1 s2,
    CoreOp.Completes ⟨o.1, fun _ _ => True, fun u n => vput u n d (o.2 (vget u n s1) (vget u n s2))⟩) ∧
  (∀ (d s1 s2 : Reg),
    let prod := fun (x : Ctx) => (List.range 64).foldl (fun r i => if (x.rd s2.toNat).getLsbD i then r ^^^ ((x.rd s1.toNat).toNat * 2 ^ i) else r) 0
    CoreOp.Completes ⟨fun n g => .clmul (.core n) g d s1 s2, fun _ _ => True, fun u n => u.wrG (.core n) d.toNat (w64 (prod (u.core n).x))⟩ ∧
    CoreOp.Completes ⟨fun n g => .clmulh (.core n) g d s1 s2, fun _ _ => True,
      fun u n => u.wrG (.core n) d.toNat (w64 (prod (u.core n).x / 2 ^ 64))⟩)

/-! # MIS-3: system instructions, exceptions and interrupts (03/R95 to R111, 17) -/

namespace Sys2Proof.Claims
open Sys2Proof Sys2Proof.Machine

/-- What entry leaves of core `c`: SYS_STATUS saved and changed, the pc at the vector, the saved registers; the general, predicate
and vector registers and every system register but these and the counters are kept (03/R110). -/
structure Entered (c t : Core) (cause einfo : W64) : Prop where
  epc : t.sysr 2 = c.x.pc
  cause : t.sysr 1 = cause
  einfo : t.sysr 4 = einfo
  status : fld (t.sysr 0) 0 0 = 1 ∧ fld (t.sysr 0) 1 1 = 0 ∧ fld (t.sysr 0) 2 2 = fld (c.sysr 0) 0 0 ∧
    fld (t.sysr 0) 3 3 = fld (c.sysr 0) 1 1 ∧ fld (t.sysr 0) 63 4 = fld (c.sysr 0) 63 4
  pc : t.x.pc = c.sysr 5 &&& ~~~ 3#64
  kept : t.x.g = c.x.g ∧ t.x.p = c.x.p ∧ t.v = c.v ∧ t.tlb = c.tlb ∧ t.sb = c.sb ∧
    ∀ r, 5 ≤ r → ¬ (r = 0x80 ∨ r = 0x81 ∨ (0x90 ≤ r ∧ r < 0x98)) → t.sysr r = c.sysr r

/-- The registers that a core can read at any level, those whose writes wait for ISYNC, the counter registers (03/R95, 20/R558). -/
def userRegs : List Nat := [0x11, 0x30, 0x31, 0x98, 0x99]
def sRegs : List Nat := [0, 1, 2, 3, 4, 5, 6, 7, 8, 9, 0x10, 0x12, 0x20, 0x21, 0x22, 0x40, 0x41]
def pmRegs : List Nat := [0x80, 0x81, 0x88, 0x89, 0x8A, 0x8B, 0x8C, 0x8D, 0x8E, 0x8F, 0x90, 0x91, 0x92, 0x93, 0x94, 0x95, 0x96, 0x97]
/-- What a read of a core's register gives: its number and its creel are read only, the bank is read at its index. -/
def sysValue (u : State) (n : CoreId) (r : Nat) : W64 :=
  if r = 0x30 then BitVec.ofNat 64 n.val
  else if r = 0x31 then BitVec.ofNat 64 ((u.creelOf n).getD 0)
  else if r = 0x99 then BitVec.ofNat 64 ((u.core n).leg.get 0 ((u.core n).sysr 0x98).toNat)
  else (u.core n).sysr r

end Sys2Proof.Claims

open Sys2Proof Sys2Proof.Machine Sys2Proof.Claims

/-- 03/R110: exception entry, one step: what is saved, and where the core goes on. -/
def Obligations.ExceptionEntrySavesAndVectors : Prop :=
  ∀ (u : State) (n code : Nat) (ea : Option W64) (ei : W64),
    let c := (u.wcDrainAll n).core n
    Entered c ((u.takeExc n code ea ei).core n) (w64 code) ei ∧
    (∀ a, ea = some a → ((u.takeExc n code ea ei).core n).sysr 3 = a) ∧
    (∀ m, m ≠ n → (u.takeExc n code ea ei).core m = (u.wcDrainAll n).core m) ∧
    (u.takeExc n code ea ei).mem = (u.wcDrainAll n).mem

/-- 03/R106, R109, R110, 02/R38, R39, R45: SYSCALL, BREAK and a word that is no instruction of the agent take their exceptions at U
and at S; on a sequencer each, as every core-only instruction, ends the program. -/
def Sys2Proof.Claims.TrapInstructions : Prop :=
  ∀ (s u : State) (n : CoreId) (q : SeqId) (g : PReg) (w : BitVec 32) ev,
    (CoreRuns s n g u ev → exec (.syscall (.core n) g) s = .next (u.takeExc n 0x0B none 0) ∧
      exec (.break_ (.core n) g) s = .next (u.takeExc n 0x0C none 0)) ∧
    (CoreFetches s n u ev → decodeWord (.core n) w = none → exec (.illegalInstruction (.core n) w) s = .next (u.takeExc n 0x01 none 0)) ∧
    (SeqRuns s q g [] [] u →
      let ended := (u.modSeq (seqIx q) fun z => { z with beats := z.beats + (if z.leftLoop then 5 else 3) }).endProgram (seqIx q) 1 0
      (∀ i ∈ [Instr.syscall (.seq q) g, .break_ (.seq q) g, .eret (.seq q) g, .wait (.seq q) g, .tlbinvAll (.seq q) g], exec i s = .next ended) ∧
      (g = 0 → decodeWord (.seq q) w = none → exec (.illegalInstruction (.seq q) w) s = .next ended))

/-- 02/R36, R38, R39, R44: what some words of the manual are, with every field in its place: its worked examples, the reserved
word 0, and the major opcode that stays reserved. -/
def Sys2Proof.Claims.WordsDecode : Prop :=
  ∀ (a : Agent) (n : CoreId), decodeWord a 0x00050420 = some (.add a 0 10 2 4) ∧ decodeWord a 0x03420505 = some (.cmpLt a 0 1 0 10 2 true) ∧
    decodeWord a 0x00000003 = some (.or a 0 0 0 0) ∧ decodeWord (.core n) 0x0E201011 = some (.wrsys (.core n) 0 8 0x11) ∧
    decodeWord (.core n) 0x0B038A34 = some (.dqua (.core n) 0 .d 7 5 6) ∧ decodeWord a 0 = none ∧
    (∀ w : BitVec 32, (w.toNat / 2 ^ 21) % 128 = 0x7F → decodeWord a w = none)

/-- 03/R106: ERET at S goes to SYS_EPC with the saved level and interrupt enable in force; at U it is PRIVILEGED. -/
def Sys2Proof.Claims.EretRestores : Prop :=
  ∀ (s u : State) (n : CoreId) (g : PReg) ev, CoreRuns s n g u ev →
    ((u.core n).priv = false → exec (.eret (.core n) g) s = .next (u.takeExc n 2 none 0)) ∧
    ((u.core n).priv = true →
      ∃ t v st, exec (.eret (.core n) g) s = .next t ∧ CoreCompletes v t n ((u.core n).sysr 2 &&& ~~~ 3#64) ∧
        (∃ p, v = u.setCore n { (u.core n).setSys 0 st with pend := p, ioFence := (u.core n).ioSaved, ioSaved := false }) ∧
        fld st 0 0 = fld ((u.core n).sysr 0) 2 2 ∧ fld st 1 1 = fld ((u.core n).sysr 0) 3 3 ∧ fld st 63 2 = fld ((u.core n).sysr 0) 63 2)
/-- 03/R106, R109, R110, 02/R38: SYSCALL, BREAK, reserved encodings and ERET; what some words decode to. -/
def Obligations.TrapsAndReturns : Prop :=
  Claims.TrapInstructions ∧ Claims.WordsDecode ∧ Claims.EretRestores


/-- 17/R502, R503, 03/R97, R110: a running core with interrupts enabled takes its highest pending S vector, and that bit clears,
once each pending write of a system register has taken effect or not; with none pending, or with ie clear, INTERRUPT_ENTRY changes
nothing. -/
def Obligations.InterruptEntryTakesTheHighestVector : Prop :=
  ∀ (s : State) (n : CoreId),
    let w := s.settle n
    ((s.core n).run ≠ .running → exec (.interruptEntry n) s = .next s) ∧
    ((s.core n).waiting = false → (w.core n).ie = false ∨ bankTop (w.core n).svec 256 = none → exec (.interruptEntry n) s = .next s) ∧
    (∀ v, (s.core n).run = .running → (s.core n).parked = none → (s.core n).dev = none → (s.core n).waiting = false →
      (w.core n).ie = true → bankTop (w.core n).svec 256 = some v →
      (∀ k, v < k → k < 256 → bankBit (w.core n).svec k = false) ∧
      ∃ t, exec (.interruptEntry n) s = .next t ∧
        Entered ((w.wcDrainAll n).core n) (t.core n) (setFld (w64 v) 63 63 1) 0 ∧ (∀ m, m ≠ n → t.core m = (w.wcDrainAll n).core m))

/-- 03/R95, R96, 20/R558: RDSYS gives the register's value at a level with access; without access it is PRIVILEGED, and a number
that is no register of the core is ILLEGAL_INSTRUCTION. -/
def Obligations.SystemRegisterReads : Prop :=
  (∀ (d : Reg) (k : BitVec 9) (s u : State) (n : CoreId) (g : PReg) ev, CoreRuns s n g u ev →
    (k.toNat ∈ userRegs ∨ (k.toNat ∈ sRegs ++ pmRegs ∧ (u.core n).priv = true) ∨
      (k.toNat ∈ pmRegs ∧ k.toNat ≠ 0x80 ∧ tbit ((u.core n).sysr 0x80) 8 = true) →
      ∃ t, exec (.rdsys (.core n) g d k) s = .next t ∧
        CoreCompletes (u.wrG (.core n) d.toNat (sysValue u n k.toNat)) t n ((u.core n).x.pc + 4)) ∧
    (k.toNat ∈ sRegs → (u.core n).priv = false → exec (.rdsys (.core n) g d k) s = .next (u.takeExc n 2 none 0)) ∧
    (k.toNat ∉ userRegs ++ sRegs ++ pmRegs → exec (.rdsys (.core n) g d k) s = .next (u.takeExc n 1 none 0))) ∧
  (∀ (d : Reg) (s u : State) (q : SeqId) (g : PReg), SeqRuns s q g [] [d.toNat] u →
    let give := fun v => Host.Outcome.next (seqNext ((seqBody u q [d.toNat]).wrG (.seq q) d.toNat v) q
      ((u.seq (seqIx q)).x.pc + 4) 4 (some d.toNat))
    exec (.rdsys (.seq q) g d 0x11) s = give (u.seq (seqIx q)).dfpc ∧
    exec (.rdsys (.seq q) g d 0x100) s = give (u.seq (seqIx q)).modeWritten ∧
    exec (.rdsys (.seq q) g d 0) s = .next ((seqBody u q [d.toNat]).endProgram (seqIx q) 1 0))

/-- 03/R95 to R97, R105: WRSYS writes at once, or leaves a write that is in force after ISYNC; a sequencer's SEQ_MODE is in force
after two more instructions. -/
def Sys2Proof.Claims.SystemRegisterWrites : Prop :=
  (∀ (s1 : Reg) (k : BitVec 9) (s u : State) (n : CoreId) (g : PReg) ev, CoreRuns s n g u ev →
    let v := (u.core n).x.rd s1.toNat
    (k.toNat ∈ [0, 5, 0x20, 0x21, 0x22] → (u.core n).priv = true →
      ∃ t, exec (.wrsys (.core n) g s1 k) s = .next t ∧
        CoreCompletes (u.modCore n fun c => { c with pend := c.pend ++ [{ reg := k.toNat, val := v, mask := 0x1E }] }) t n
          ((u.core n).x.pc + 4)) ∧
    (k.toNat ∈ [1, 2, 3, 4, 6, 7, 8, 9, 0x10, 0x12, 0x40, 0x41, 0x81] → (u.core n).priv = true →
      ∃ t, exec (.wrsys (.core n) g s1 k) s = .next t ∧ CoreCompletes (u.modCore n fun c => c.sysWrite k.toNat v) t n ((u.core n).x.pc + 4)) ∧
    (k.toNat ∈ [0x11, 0x30, 0x31] →
      ∃ t, exec (.wrsys (.core n) g s1 k) s = .next t ∧ CoreCompletes (u.modCore n fun c => c.sysWrite k.toNat v) t n ((u.core n).x.pc + 4)) ∧
    (k.toNat ∈ [0x98, 0x99] ∨ (k.toNat ∈ pmRegs ∧ k.toNat ≠ 0x81 ∧ (u.core n).priv = true) →
      ∃ c' f, SameButCounts (u.core n) c' ∧ exec (.wrsys (.core n) g s1 k) s =
        .next (({ u with free := f }.setCore n (c'.sysWrite k.toNat v)).setPc n ((u.core n).x.pc + 4))) ∧
    (k.toNat ∈ sRegs ++ pmRegs → (u.core n).priv = false → exec (.wrsys (.core n) g s1 k) s = .next (u.takeExc n 2 none 0)) ∧
    (k.toNat ∉ userRegs ++ sRegs ++ pmRegs → exec (.wrsys (.core n) g s1 k) s = .next (u.takeExc n 1 none 0))) ∧
  (∀ (s1 : Reg) (s u : State) (q : SeqId) (g : PReg), SeqRuns s q g [s1.toNat] [] u →
    let v := (u.seq (seqIx q)).x.rd s1.toNat
    exec (.wrsys (.seq q) g s1 0x11) s = .next (seqNext ((seqBody u q []).modSeq (seqIx q) fun z => { z with dfpc := dfpcWrite z.dfpc v }) q
      ((u.seq (seqIx q)).x.pc + 4) 4 none) ∧
    ((isPlaiter (seqIx q) && u.hasJob (unitOf (seqIx q)) (seqLane (seqIx q)) && (u.job (unitOf (seqIx q)) (seqLane (seqIx q))).sealed) = false →
      exec (.wrsys (.seq q) g s1 0x100) s = .next (seqNext ((seqBody u q []).modSeq (seqIx q) fun z =>
        { z with modeWritten := setFld v 63 3 0, modeQ := z.modeQ ++ [(3, setFld v 63 3 0)] }) q ((u.seq (seqIx q)).x.pc + 4) 4 none)) ∧
    exec (.wrsys (.seq q) g s1 0x101) s = .next (seqNext (seqBody u q []) q ((u.seq (seqIx q)).x.pc + 4) 4 none))

/-- 03/R87, R88, R99 to R103, 17/R514, 20/R558, R561: what a write leaves in a register: its reserved bits zero, its write-one-to-clear
bits cleared by ones, a reserved rounding mode and a reserved selection refused, the other registers as they were. -/
def Sys2Proof.Claims.SystemRegisterFieldMaps : Prop :=
  ∀ (c : Core) (v : W64) (r : Nat),
    (c.sysWrite 1 v).sysr 1 = v &&& 0x800000000000FFFF ∧ (c.sysWrite 2 v).sysr 2 = v ∧ (c.sysWrite 3 v).sysr 3 = v ∧
    (c.sysWrite 4 v).sysr 4 = v &&& 0x1FFF ∧ (6 ≤ r → r ≤ 9 → (c.sysWrite r v).sysr r = v) ∧
    (c.sysWrite 0x10 v).sysr 0x10 = v &&& 0xFFFFFFFF ∧
    (fld v 2 0 ≠ 7 → fld v 5 3 < 5 → (c.sysWrite 0x11 v).sysr 0x11 = v &&& 0x3FFFFFF) ∧
    (fld v 2 0 = 7 → fld ((c.sysWrite 0x11 v).sysr 0x11) 2 0 = fld (c.sysr 0x11) 2 0) ∧
    (5 ≤ fld v 5 3 → fld ((c.sysWrite 0x11 v).sysr 0x11) 5 3 = fld (c.sysr 0x11) 5 3) ∧
    (c.sysWrite 0x12 v).sysr 0x12 = (v &&& 0xFF07FC) ||| (c.sysr 0x12 &&& ~~~ v &&& 3) ∧
    (c.sysWrite 0x41 v).sysr 0x41 = v &&& 0xFFFFFFFF000000EF ∧
    (c.sysWrite 0x80 v).sysr 0x80 = v &&& 0xFF0101FF ∧
    (c.sysWrite 0x81 v).sysr 0x81 = c.sysr 0x81 &&& ~~~ v ∧
    (0x90 ≤ r → r < 0x98 → (c.sysWrite r v).sysr r = v) ∧
    (∀ k, k < 8 → 0x3C ≤ fld v 7 0 → fld ((c.sysWrite (0x88 + k) v).sysr (0x88 + k)) 7 0 = fld (c.sysr (0x88 + k)) 7 0) ∧
    (c.sysWrite 0x30 v = c ∧ c.sysWrite 0x31 v = c) ∧
    (∀ k, k ≠ r → (c.sysWrite r v).sysr k = c.sysr k) ∧ (c.sysWrite r v).x = c.x ∧ (c.sysWrite r v).v = c.v

/-- 03/R97: ISYNC puts every pending write into force: the last write to each register holds, and no other register changes. -/
def Sys2Proof.Claims.IsyncPutsWritesInForce : Prop :=
  ∀ (c : Core),
    c.isync.pend = [] ∧ c.isync.x = c.x ∧ c.isync.v = c.v ∧
    (∀ r, (∀ p ∈ c.pend, p.reg ≠ r) → c.isync.sysr r = c.sysr r) ∧
    (∀ pre p, c.pend = pre ++ [p] →
      (p.reg = 5 → c.isync.sysr 5 = p.val) ∧
      (p.reg = 0 → p.mask = 0x1E → fld (c.isync.sysr 0) 4 1 = fld p.val 4 1 ∧ fld (c.isync.sysr 0) 63 5 = 0) ∧
      (p.reg = 0x20 → c.isync.sysr 0x20 = p.val &&& 0xFFFFFFFFFF000) ∧
      (p.reg = 0x21 → c.isync.sysr 0x21 = p.val &&& 0xFFFF) ∧
      (p.reg = 0x22 → fld p.val 1 0 ≠ 3 → c.isync.sysr 0x22 = p.val &&& 7))
/-- 03/R95 to R103: WRSYS, what each register takes, and when it is in force. -/
def Obligations.SystemRegisterWriteRules : Prop :=
  Claims.SystemRegisterWrites ∧ Claims.SystemRegisterFieldMaps ∧ Claims.IsyncPutsWritesInForce


/-- 03/R106, R107, R192: the other system instructions of a core. -/
def Sys2Proof.Claims.CoreSystemInstructions : Prop :=
  CoreOp.Completes ⟨fun n g => .wait (.core n) g, fun u n => bankAny (u.core n).svec = true ∨ bankAny (u.core n).upend = true, fun u _ => u⟩ ∧
  (∀ (s u : State) (n : CoreId) (g : PReg) ev, CoreRuns s n g u ev → bankAny (u.core n).svec = false → bankAny (u.core n).upend = false →
    exec (.wait (.core n) g) s = .next (u.modCore n fun c => { c with waiting := true })) ∧
  (∀ r : Reg, CoreOp.Completes ⟨fun n g => .wrpkey (.core n) g r, fun _ _ => True,
    fun u n => u.modCore n fun c => c.setSys 0x10 ((u.core n).x.rd r.toNat &&& 0xFFFFFFFF)⟩) ∧
  (∀ r : Reg, CoreOp.Completes ⟨fun n g => .rdpkey (.core n) g r, fun _ _ => True,
    fun u n => u.wrG (.core n) r.toNat ((u.core n).sysr 0x10)⟩) ∧
  (∀ r : Reg, r.getLsbD 0 = false → CoreOp.Completes ⟨fun n g => .rdhoop (.core n) g r, fun _ _ => True, fun u n =>
    let v := u.advance 1
    (v.wrG (.core n) r.toNat (w64 v.hoop.sec)).wrG (.core n) (r.toNat + 1) (w64 (v.hoop.frac % 2 ^ 32 + v.hoop.st % 4 * 2 ^ 32))⟩) ∧
  (∀ r : Reg, CoreOp.Completes ⟨fun n g => .rdbeat (.core n) g r, fun _ _ => True,
    fun u n => u.wrG (.core n) r.toNat (u.core n).beat⟩) ∧
  (∀ keep : CoreId → State → TlbLeaf → Bool, ∀ mk : CoreId → PReg → Instr, ∀ s1 s2 : Reg,
    ((mk = fun n g => .tlbinvAll (.core n) g) ∧ keep = (fun _ _ _ => false)) ∨
    ((mk = fun n g => .tlbinvAsid (.core n) g s1) ∧ keep = fun n u e => pteG e.pte || decide (e.asid ≠ ((u.core n).x.rd s1.toNat).toNat % 2 ^ 16)) ∨
    ((mk = fun n g => .tlbinvVa (.core n) g s1 s2) ∧ keep = fun n u e => !(e.covers ((u.core n).x.rd s1.toNat).toNat &&
      (pteG e.pte || decide (e.asid = ((u.core n).x.rd s2.toNat).toNat % 2 ^ 16)))) ∨
    ((mk = fun n g => .tlbinvVaall (.core n) g s1) ∧ keep = fun n u e => !e.covers ((u.core n).x.rd s1.toNat).toNat) →
    CoreOp.Completes ⟨mk, fun u n => (u.core n).priv = true,
      fun u n => u.modCore n fun c => { c with tlb := c.tlb.filter (keep n u), ptr := [] }⟩ ∧
    ∀ (s u : State) (n : CoreId) (g : PReg) ev, CoreRuns s n g u ev → (u.core n).priv = false →
      exec (mk n g) s = .next (u.takeExc n 2 none 0))

/-- 03/R106, R107: the system instructions that a sequencer shares with cores. -/
def Sys2Proof.Claims.SequencerTimeInstructions : Prop :=
  ∀ (d : Reg) (s u : State) (q : SeqId) (g : PReg),
    (SeqRuns s q g [] [d.toNat] u → exec (.rdbeat (.seq q) g d) s =
      .next (seqNext ((seqBody u q [d.toNat]).wrG (.seq q) d.toNat (u.seq (seqIx q)).beats) q ((u.seq (seqIx q)).x.pc + 4) 3 (some d.toNat))) ∧
    (SeqRuns s q g [] [d.toNat, d.toNat + 1] u → d.getLsbD 0 = false →
      let v := (seqBody u q [d.toNat, d.toNat + 1]).advance 1
      exec (.rdhoop (.seq q) g d) s = .next (seqNext ((v.wrG (.seq q) d.toNat (w64 v.hoop.sec)).wrG (.seq q) (d.toNat + 1)
        (w64 (v.hoop.frac % 2 ^ 32 + v.hoop.st % 4 * 2 ^ 32))) q ((u.seq (seqIx q)).x.pc + 4) 6 (some d.toNat)))
/-- 03/R106, R107: the other system instructions, on cores and sequencers. -/
def Obligations.SystemInstructions : Prop :=
  Claims.CoreSystemInstructions ∧ Claims.SequencerTimeInstructions


/-- 03/R106, R108, 07/R219, R222: cache maintenance checks its address as a 1-byte load, and then changes caches only; after a
FLUSH.P the core's own caches hold no copy of the line; a device region is left alone; a .D form waits for a writeback of the line
that is on its way. -/
def Obligations.CacheMaintenance : Prop :=
  ∀ (r : Reg) (s u v : State) (n : CoreId) (g : PReg) ev pa mt lf w, CoreRuns s n g u ev →
    u.translate n ((u.core n).x.rd r.toNat) .load false = (v, .ok pa mt none lf, w) →
    (isDevType (v.effType pa mt) = true → ∀ i ∈ [Instr.cleanP (.core n) g r, .cleanD (.core n) g r, .flushP (.core n) g r, .flushD (.core n) g r],
      ∃ t, exec i s = .next t ∧ CoreCompletes v t n ((u.core n).x.pc + 4)) ∧
    (isDevType (v.effType pa mt) = false →
      let y := v.drainOver n (upto (64 * (pa / 64)) 64)
      (∀ i ∈ [Instr.cleanP (.core n) g r, .flushP (.core n) g r],
        ∃ t x, exec i s = .next t ∧ CacheOnly y x ∧ CoreCompletes x t n ((u.core n).x.pc + 4)) ∧
      (∀ i ∈ [Instr.cleanD (.core n) g r, .flushD (.core n) g r],
        (y.victimHeld (pa / 64) = false →
          ∃ t x, exec i s = .next t ∧ CacheOnly y x ∧ CoreCompletes x t n ((u.core n).x.pc + 4)) ∧
        (y.victimHeld (pa / 64) = true → exec i s = .next (y.victimIssue (pa / 64)))) ∧
      (y.tileOf n < 224 →
        ∃ t x, exec (.flushP (.core n) g r) s = .next t ∧ CoreCompletes x t n ((u.core n).x.pc + 4) ∧ x.privSt (y.tileOf n) (pa / 64) = none))

/-- 20/R559, R561 to R563: PMC_n steps by what its event happened where the level filter lets it, by the wraps of the counter below
where that one is chained, and keeps its value while it is stopped. -/
def Obligations.CountersCountTheirEvents : Prop :=
  ∀ (c : Core) (priv : Bool) (evs : List (Nat × Nat)) (n : Nat), n < 8 →
    (tbit (c.sysr 0x80) n = false → (c.count priv evs).sysr (0x90 + n) = c.sysr (0x90 + n)) ∧
    (tbit (c.sysr 0x80) n = true → (n = 0 ∨ tbit (c.sysr (0x88 + (n - 1))) 23 = false) →
      tbit (c.sysr (0x88 + n)) (if priv then 20 else 21) = true →
      (c.count priv evs).sysr (0x90 + n) = c.sysr (0x90 + n) + BitVec.ofNat 64 (evAmount evs (fld (c.sysr (0x88 + n)) 7 0))) ∧
    (tbit (c.sysr 0x80) n = true → (n = 0 ∨ tbit (c.sysr (0x88 + (n - 1))) 23 = false) →
      tbit (c.sysr (0x88 + n)) (if priv then 20 else 21) = false → (c.count priv evs).sysr (0x90 + n) = c.sysr (0x90 + n))

/-! # The memory system: events of cores and sequencers, coherence, slices (04, 06, 07) -/

open Sys2Proof Sys2Proof.Machine Sys2Proof.Claims

/-- 04/R126, R128, 06/R185, R187: the events of a core's memory system: a parked load completes with the bytes of memory once no
buffered store overlaps it; a replay records a load that the predictor does not hold; a walk changes what a translation can, on a
wrong path sets no a bit, and one that meets poison is a machine check of a correct path. -/
def Obligations.CoreMemoryEvents : Prop :=
  (∀ (s : State) (n : CoreId) p, (s.core n).parked = some p →
    ((∃ e ∈ (s.core n).sb, overlaps e.bytes p.addrs = true) → exec (.parkedLoad n) s = .next s) ∧
    ((∀ e ∈ (s.core n).sb, overlaps e.bytes p.addrs = false) → s.parkedReserved p = none → Readable s p.addrs →
      ∃ t x, exec (.parkedLoad n) s = .next t ∧ CacheOnly (s.modCore n fun c => { c with parked := none }) x ∧
        CoreCompletes (x.deliver (.core n) p.dest (p.addrs.map s.rd8)) t n ((s.core n).x.pc + 4))) ∧
  (∀ (s : State) (n : CoreId) (a : W64),
    (a ∈ (s.core n).pred.conflicts → exec (.memoryOrderReplay n a) s = .next s) ∧
    (a ∉ (s.core n).pred.conflicts → ∃ t, exec (.memoryOrderReplay n a) s = .next t ∧
      CoreCompletes (s.modCore n fun c => { c with pred := { c.pred with
        conflicts := (a :: c.pred.conflicts).take 1024 } }) t n (s.core n).x.pc)) ∧
  (∀ (s : State) (n : CoreId) (va : W64) (k : AccKind) (wp : Bool),
    ((s.core n).run ≠ .running ∨ (s.core n).xlateOn = false ∨ canonical (vaWidth ((s.core n).sysr 0x22)) va = false → exec (.tableWalk n va k wp) s = .next s) ∧
    (∀ u lf r m, (s.core n).run = .running → (s.core n).parked = none → (s.core n).dev = none → (s.core n).xlateOn = true →
      canonical (vaWidth ((s.core n).sysr 0x22)) va = true → s.walkAccess n va.toNat wp = (u, lf, r, m) →
      TranslateOnly s u n ∧ (wp = true → u.mem = s.mem) ∧
      ((∀ pa, r ≠ .poison pa) → ∃ t, exec (.tableWalk n va k wp) s = .next t ∧ CoreCompletes u t n (s.core n).x.pc) ∧
      ∀ pa, r = .poison pa → exec (.tableWalk n va k wp) s = .next (if wp then u.deferred 1 2 pa n 0 else u.takeMc n 2 2 pa)))

/-- 04/R137, R139, R141, R105: a miss that fills and a long operation that completes write their register and clear its busy bit; a
store's bytes reach memory; a mode written two instructions ago comes into force. -/
def Obligations.SequencerEvents : Prop :=
  (∀ (s : State) (q : SeqId) m, (s.seq (seqIx q)).miss = some m →
    (∀ d, m.store = [] → m.dest = some d → m.poison = false → s.poisoned m.line = false → s.fencedLine m.line = false →
      ∃ x, CacheOnly (s.modSeq (seqIx q) fun z => { z with miss := none }) x ∧
        exec (.sequencerMissFill q) s = .next ((x.deliver (.seq q) d (m.addrs.map fun b => m.got.get (s.rd8 b) b)).modSeq (seqIx q) fun z =>
          { z with busy := z.busy.filter fun r => !(regsOfDest d).contains r })) ∧
    (m.store ≠ [] →
      ∃ x, CacheOnly (s.modSeq (seqIx q) fun z => { z with miss := none }) x ∧
        exec (.sequencerMissFill q) s = .next (match s.seqCreel (seqIx q) with
          | some c => (x.store m.store).captureLines c ((mapKeys m.store).map (· / 64)).eraseDups
          | none => x.store m.store))) ∧
  (∀ (s : State) (q : SeqId) o r v, (s.seq (seqIx q)).ops.find? (fun o => o.done) = some o → o.regs = [r] → o.vals = [v] → r ≠ 0 →
    ∃ t, exec (.longLatencyCompletion q) s = .next t ∧ t = s.setSeq (seqIx q) (t.seq (seqIx q)) ∧
      (t.seq (seqIx q)).x = (s.seq (seqIx q)).x.wr r v ∧ r ∉ (t.seq (seqIx q)).busy ∧
      (∀ k, k ≠ r → (k ∈ (t.seq (seqIx q)).busy ↔ k ∈ (s.seq (seqIx q)).busy)) ∧
      (t.seq (seqIx q)).ops = (s.seq (seqIx q)).ops.erase o ∧ (o.poison = true → r ∈ (t.seq (seqIx q)).poisoned)) ∧
  (∀ (s : State) (q : SeqId), ((s.seq (seqIx q)).ops.all fun o => !o.done) = true → exec (.longLatencyCompletion q) s = .next s) ∧
  (∀ (s : State) (q : SeqId) m r, (s.seq (seqIx q)).modeQ = (0, m) :: r → (∀ p ∈ r, p.1 ≠ 0) →
    exec (.seqModeInForce q) s = .next (s.setSeq (seqIx q) { s.seq (seqIx q) with mode := m, modeQ := r }))

/-- 07/R199, R215 to R221: what each coherence request leaves in the requester's caches and in the directory; none changes a byte
of memory, a register or a store buffer. -/
def Obligations.CoherenceRequests : Prop :=
  ∀ (s : State) (ag : CohAgent) (l : LineNo),
    (∀ w, cacheable s l.toNat = true → ∃ t u, exec (.cacheFill ag l false w .none) s = .next t ∧ CacheOnly s u ∧
      ((s.slice (homeOf l.toNat)).fills.find? (fun f => f.line = l.toNat ∧ f.agent = ag.val) = none →
        (t.privSt ag l.toNat).isSome = true) ∧ (s.coreAt ag = none → t = u) ∧
      ∀ n, s.coreAt ag = some n → CoreCompletes u t n (s.core n).x.pc) ∧
    (cacheable s l.toNat = true → s.privSt ag l.toNat = none → s.homeBusy l.toNat = true →
      exec (.read ag l .none) s = .next (s.waitHome { line := l.toNat, agent := ag, own := false })) ∧
    (cacheable s l.toNat = true → s.privSt ag l.toNat = none → s.homeBusy l.toNat = false → s.dirOf l.toNat = none →
      ∃ t, exec (.read ag l .none) s = .next t ∧ CacheOnly s t ∧
        t.dirOf l.toNat = some { line := l.toNat, owner := some ag.val, shared := false, sharers := [] }) ∧
    (cacheable s l.toNat = true → s.homeBusy l.toNat = false → s.fencedLine l.toNat = false →
      ∃ t, exec (.readForOwnership ag l) s = .next t ∧ CacheOnly s t ∧ t.privSt ag l.toNat = some .m) ∧
    (s.privSt ag l.toNat = some .s ∨ s.privSt ag l.toNat = some .o → s.homeBusy l.toNat = false →
      ∃ t, exec (.upgrade ag l) s = .next t ∧ CacheOnly s t ∧ t.privSt ag l.toNat = some .m) ∧
    (∃ t, exec (.writeback ag l) s = .next t ∧ CacheOnly s t ∧ t.privSt ag l.toNat = none) ∧
    (∃ t, exec (.invalidation ag l) s = .next t ∧ CacheOnly s t ∧ t.privSt ag l.toNat = none) ∧
    (∀ d, s.dirOf l.toNat = some d →
      (s.privSt ag l.toNat = some .m → ∃ t, exec (.forwardedRead ag l) s = .next t ∧ CacheOnly s t ∧ t.privSt ag l.toNat = some .o) ∧
      (s.privSt ag l.toNat = some .e → ∃ t, exec (.forwardedRead ag l) s = .next t ∧ CacheOnly s t ∧ t.privSt ag l.toNat = some .s))

/-- 07/R210, R211, R220, R227: the slices' victims, ways and wires. -/
def Obligations.SliceAndWireEvents : Prop :=
  (∀ (s : State) (i : SliceId) (l : LineNo), ∃ t, exec (.victimWritebackAck i l) s = .next t ∧ CacheOnly s t ∧
    ((∀ q ∈ (s.slice (homeOf l.toNat)).waitq, q.line ≠ l.toNat) → ∀ v, v ∈ (t.slice i).victims ↔ v ∈ (s.slice i).victims ∧ ¬ (v.line = l.toNat ∧ v.issued = true))) ∧
  (∀ (s : State) (i : SliceId) (w : Fin 16), ∃ t, exec (.wayRetirement i w) s = .next t ∧ t.mem = s.mem ∧
    (∀ k c, c ∈ (t.slice i).sets.get [] k → c.way ≠ w.val) ∧
    ((s.slice i).reserveUsed < 2 → (t.slice i).reserveUsed = (s.slice i).reserveUsed + 1 ∧ (t.slice i).retired = (s.slice i).retired ∧
      (t.slice i).wayMap.get 0 w = 16 + (s.slice i).reserveUsed) ∧
    (2 ≤ (s.slice i).reserveUsed → (t.slice i).reserveUsed = (s.slice i).reserveUsed ∧ (t.slice i).retired.testBit w = true)) ∧
  (∀ (s : State) (i : SliceId), ∃ t, exec (.wayCleaningCompletion i) s = .next t ∧ t.mem = s.mem ∧
    (t.slice i).cleaning = 0 ∧ (t.slice i).powerCleaning = 0 ∧ (t.slice i).off = (s.slice i).off ||| (s.slice i).powerCleaning ∧
    ∀ k c, c ∈ (t.slice i).sets.get [] k →
      ((s.slice i).cleaning ||| (s.slice i).powerCleaning).testBit c.way = false) ∧
  (∀ (s : State) (b : Fin 4) (k : Fin 8), ∃ t, exec (.wireGroupFailure b k) s = .next t ∧ t.mem = s.mem ∧
    t.bridges.get 0 (8 * b.val + k.val) = s.bridges.get 0 (8 * b.val + k.val) + 1 ∧
    ∀ j, j ≠ 8 * b.val + k.val → t.bridges.get 0 j = s.bridges.get 0 j)

/-- 08/R232 to R248: a read and a write at a channel. An error of one device is corrected, one of two devices and a line of
another address are detected. -/
def Sys2Proof.Claims.ChannelReadsAndWrites : Prop :=
  ∀ (s : State) (ch : ChanId) (l : LineNo) (port : QosPort) (lat : Nat) (y z : Bool), s.servesLine ch l.toNat = true →
    channelOf l.toNat = ch.val → s.region (64 * l.toNat) = .dram → s.fencedLine l.toNat = false →
    (s.poisoned l.toNat = false → ∃ t, exec (.channelRead ch l port .clean lat y z) s = .next t ∧ t.mem = s.mem ∧
      ((t.chan ch).qstat port).est = estNext ((s.chan ch).qstat port).est lat ∧
      ((t.chan ch).qstat port).misses = (if targetOf (s.qos port) ≠ 0xFFFF ∧ targetOf (s.qos port) < lat
        then min 0xFFFF (((s.chan ch).qstat port).misses + 1) else ((s.chan ch).qstat port).misses) ∧
      (∀ c, port.val = c → c < 64 → (t.creel c).uc.get 0 8 = (s.creel c).uc.get 0 8 + 1)) ∧
    (∀ d, s.poisoned l.toNat = false → ∃ t, exec (.channelRead ch l port (.errors d []) lat y z) s = .next t ∧ t.mem = s.mem ∧
      (t.chan ch).corrected = (s.chan ch).corrected + 1) ∧
    (∀ out, out = .wrongAddress ∨ (∃ d e, d ≠ e ∧ out = .errors d [e]) → s.poisoned l.toNat = false →
      ∃ t, exec (.channelRead ch l port out lat y z) s = .next t ∧ t.poisoned l.toNat = true ∧ (∀ a, t.mem.read a = s.mem.read a)) ∧
    (∃ t, exec (.channelWrite ch l port z) s = .next t ∧ t.mem = s.mem ∧
      (∀ v ∈ (t.slice (homeOf l.toNat)).victims, v.line = l.toNat → v.issued = true) ∧
      (∀ c, port.val = c → c < 64 → (t.creel c).uc.get 0 0x10 = (s.creel c).uc.get 0 0x10 + 1))

/-- 08/R234, R251: a write to a fenced rank is discarded and counted, and the line reads as poisoned. -/
def Sys2Proof.Claims.FencedWritesAreDiscarded : Prop :=
  ∀ (s : State) (ch : ChanId) (l : LineNo) (port : QosPort) (z : Bool), s.servesLine ch l.toNat = true → channelOf l.toNat = ch.val →
    s.region (64 * l.toNat) = .dram → s.fencedLine l.toNat = true →
    ∃ t, exec (.channelWrite ch l port z) s = .next t ∧ (t.chan ch).discarded = (s.chan ch).discarded + 1 ∧
      t.poisoned l.toNat = true ∧ (∀ a, t.mem.read a = s.mem.read a) ∧ t.log.length = s.log.length + 1
/-- 08/R233 to R248, R251: reads and writes at a channel, and at a fenced rank. -/
def Obligations.ChannelAccesses : Prop :=
  Claims.ChannelReadsAndWrites ∧ Claims.FencedWritesAreDiscarded


/-- 08/R235 to R245: rows, banks, scrub, repair and the reserve rank. -/
def Sys2Proof.Claims.ChannelMaintenance : Prop :=
  (∀ (s : State) (ch : ChanId) (b row : Nat) (port : QosPort),
    (((s.chan ch).bank b).holds port s.clock = true → exec (.rowActivation ch b row port) s = .next s) ∧
    (((s.chan ch).bank b).holds port s.clock = false → ∃ t, exec (.rowActivation ch b row port) s = .next t ∧
      t.mem = s.mem ∧ ((t.chan ch).bank b).acts.get 0 port = s.clock ∧
      (∀ e, ((s.chan ch).bank b).track.find? (fun e => e.row = row) = some e → e.since + 1 < s.stake.mitigation →
        ∃ f ∈ ((t.chan ch).bank b).track, f.row = row ∧ f.count = e.count + 1 ∧ f.since = e.since + 1) ∧
      (∀ e, ((s.chan ch).bank b).track.find? (fun e => e.row = row) = some e → s.stake.mitigation ≤ e.since + 1 →
        ((t.chan ch).bank b).openRow = none ∧
        ∃ f ∈ ((t.chan ch).bank b).track, f.row = row ∧ f.count = e.count + 1 ∧ f.since = 0))) ∧
  (∀ (s : State) (ch : ChanId), ∃ t, exec (.refreshWindowEnd ch) s = .next t ∧ t.mem = s.mem ∧
    ∀ b, ((t.chan ch).bank b).track = [] ∧ ((t.chan ch).bank b).throttled = [] ∧ ((t.chan ch).bank b).openRow = none) ∧
  (∀ (s : State) (ch : ChanId) (rank : Fin 8), ∃ t, exec (.backOffAlert ch rank) s = .next t ∧
    t.emitted = s.emitted ++ [{ kind := 3, words := [ch.val, 64 * rank.val] }] ∧ t = { s with emitted := t.emitted, chans := t.chans } ∧
    ∀ b, ((t.chan ch).bank b).openRow = if b / 64 = rank.val then none else ((s.chan ch).bank b).openRow) ∧
  (∀ (s : State) (ch : ChanId) (b ns : Nat), ((s.chan ch).bank b).patience = some ns →
    (passed s.clock ((s.chan ch).bank b).used ns = true → ∃ t, exec (.openRowTimeout ch b) s = .next t ∧
      ((t.chan ch).bank b).openRow = none ∧ ∀ k, k ≠ b → (t.chan ch).bank k = (s.chan ch).bank k) ∧
    (passed s.clock ((s.chan ch).bank b).used ns = false → exec (.openRowTimeout ch b) s = .next s)) ∧
  (∀ (s : State) (ch : ChanId), s.servesLine ch (s.nextLine ch (s.chan ch).scrubPos) = true → s.installed ≠ 0 →
    ∃ t, exec (.scrub ch .clean) s = .next t ∧ t.mem = s.mem ∧ (t.chan ch).scrubPos = s.nextLine ch (s.chan ch).scrubPos) ∧
  (∀ (s : State) (ch : ChanId) (b row : Nat), (s.chan ch).repair.contains (rowKey b row) = true → (s.chan ch).serves = true →
    (s.chan ch).trainRank ≠ some (b / 64) → wayBit (s.chan ch).fenced (b / 64) = false →
    ∃ t, exec (.rowRepair ch b row true []) s = .next t ∧ (t.chan ch).rowErr.has (rowKey b row) = false ∧
      (t.chan ch).repair = (s.chan ch).repair ∧ t.mem = s.mem) ∧
  (∀ (s : State) (ch : ChanId) k, (s.chan ch).copy = some k →
    (∀ l, (s.chan ch).copyGoes k = true → s.nextOfRank ch k.source k.boundary = some l →
      (∃ t, exec (.rankCopyLine ch .clean) s = .next t ∧ (t.chan ch).copy = some { k with boundary := l + 1 } ∧ t.mem = s.mem) ∧
      exec (.rankCopyCompletion ch) s = .next s) ∧
    ((s.chan ch).copyGoes k = true → s.nextOfRank ch k.source k.boundary = none →
      ∃ t, exec (.rankCopyCompletion ch) s = .next t ∧ (t.chan ch).copy = none ∧ (t.chan ch).outOfService = some k.source ∧
        t.mem = s.mem) ∧
    ((s.chan ch).copyGoes k = false → ∀ o, exec (.rankCopyLine ch o) s = .next s ∧ exec (.rankCopyCompletion ch) s = .next s))

/-- 08/R249 to R251, 09/R271: retraining, a deferred speed change that expires, a port that got less than its share. -/
def Sys2Proof.Claims.ChannelTrainingAndShares : Prop :=
  (∀ (s : State) (ch : ChanId) (rank : Fin 8) (temp : Int) (f : BitVec 8), (s.chan ch).st = .service ∨ (s.chan ch).st = .degraded →
    s.changing = false → wayBit (s.chan ch).fenced rank = false → (s.chan ch).trainDue rank s.clock temp = true →
    exec (.retraining ch rank true false temp f) s = .next (s.setChan ch { s.chan ch with st := .retrain, trainRank := some rank.val })) ∧
  (∀ (s : State) (ch : ChanId) (rank : Fin 8) (temp : Int) (f : BitVec 8), (s.chan ch).st = .retrain →
    (s.chan ch).trainRank = some rank.val → s.stake.started = [] →
    (∃ t, exec (.retraining ch rank false true temp f) s = .next t ∧
      (t.chan ch).st = (if (s.chan ch).fenced = 0 then .service else .degraded) ∧ (t.chan ch).trainRank = none ∧ t.mem = s.mem) ∧
    (((s.chan ch).reserveRank ≠ rank.val ∨ (s.chan ch).outOfService.isSome = true) → (s.chan ch).copy = none → (s.chan ch).fellBack = true →
      ∃ t, exec (.retraining ch rank false false temp f) s = .next t ∧ (t.chan ch).st = .degraded ∧
        (t.chan ch).fenced = (s.chan ch).fenced ||| 2 ^ rank.val ∧ t.mem = s.mem) ∧
    (((s.chan ch).reserveRank ≠ rank.val ∨ (s.chan ch).outOfService.isSome = true) → (s.chan ch).fellBack = false →
      (∃ b ∈ (s.chan ch).known, 0 < b ∧ b < (s.chan ch).bin) →
      ∃ t, exec (.retraining ch rank false false temp f) s = .next t ∧ (t.chan ch).st = .fallback ∧ (t.chan ch).fellBack = true ∧
        (t.chan ch).bin ∈ (s.chan ch).known ∧ (t.chan ch).bin < (s.chan ch).bin ∧ t.mem = s.mem)) ∧
  (∀ (s : State) (ch : ChanId) (rank : Fin 8) (temp : Int) (f : BitVec 8) (p : Bool), (s.chan ch).st = .fallback → (s.chan ch).copy = none →
    s.stake.started = [] →
    ∃ t, exec (.retraining ch rank false p temp f) s = .next t ∧
      (t.chan ch).fenced = (if f = 0 then (s.chan ch).fenced else (s.chan ch).fenced ||| f.toNat) ∧
      (t.chan ch).st = (if f = 0 ∧ (s.chan ch).fenced = 0 then .service else .degraded) ∧ t.mem = s.mem) ∧
  (∀ (s : State),
    (s.training = false → exec .speedChangeDeferralExpiry s = .next s) ∧
    (s.training = true → ∃ t, exec .speedChangeDeferralExpiry s = .next t ∧ t.chans = s.chans ∧
      ∀ r ∈ t.stake.started, ∀ b d, r.why = .speed b d → s.clock < d + 2 ^ 32 / 500)) ∧
  (∀ (s : State) (ch : ChanId) (port : QosPort) (c : Nat), port.val = c → c < 64 →
    ∃ t, exec (.throughputInterval ch port true true) s = .next t ∧ tbit (t.creel c).breach 0 = true ∧ t.mem = s.mem)
/-- 08/R235 to R251: what a channel does of itself. -/
def Obligations.ChannelEvents : Prop :=
  Claims.ChannelMaintenance ∧ Claims.ChannelTrainingAndShares


/-! # The Stake: mailboxes, sessions and commands (10) -/

namespace Sys2Proof.Claims
open Sys2Proof Sys2Proof.Machine

/-- The newest completion of a command's port is this one (10/R280, R284). -/
def Answered (t : State) (c : Cmd) (status : Nat) (result : W64) (reply : List W64) : Prop :=
  (t.port c.port).comps.getLast? =
    some { slot := c.slot, tag := c.tag, status := status, irq := c.irq, result := result, reply := reply }
/-- The length of a reply, as its completion gives it (10/R284). -/
def replied (t : State) (c : Cmd) (reply : List W64) : Prop := Answered t c 0 (w64 (8 * reply.length)) reply
/-- The command has started, and waits for hardware (10/R283). -/
def Waits (t : State) (c : Cmd) (why : WaitFor) : Prop := ∃ old, { cmd := c, why := why, old := old } ∈ t.stake.started
/-- A command of the Stake: the row that carries it out, its opcode, when it has its effect, and the effect: the state before it,
with the command taken from the accepted ones, and the state after it. -/
structure MbxOp where
  instr : Slot → Fin 16 → Instr
  op : Nat
  ok : State → Cmd → Prop
  effect : State → Cmd → State → Prop
/-- Every accepted command of a slot that is first of its port and of its object, and that no lifecycle, creel or update state
refuses, has its effect (10/R283, R289, 18/R541). -/
def MbxOp.Completes (o : MbxOp) : Prop :=
  ∀ (s : State) (p : Slot) (k : Fin 16) (c : Cmd), s.takeCmd p.val k.val o.op = some c →
    let u := s.modStake fun m => { m with accepted := m.accepted.filter (· ≠ c) }
    u.stateRefuses c = none → o.ok u c → ∃ t, exec (o.instr p k) s = .next t ∧ o.effect u c t
def always (_ : State) (_ : Cmd) : Prop := True
def notResetting (u : State) (c : Cmd) : Prop := (u.creel c.creel).st ≠ .resetting
/-- The words that a payload gives, by their numbers in the slot (10/R296). -/
def arg (c : Cmd) (i : Nat) : Nat := (c.words.getD (i - 2) 0).toNat

/-- Device identity, lifecycle, officers, authority and credentials (10/R293 to R299). -/
def deviceCommands (cert : BitVec 384) (o : MbxOp) : Prop := o ∈ ([
   ⟨.echo, 0x0001, always, fun _ c t => Answered t c 0 (c.words.getD 0 0) []⟩,
   ⟨.deviceStatus, 0x0002, always, fun u c t => replied t c
     [w64 u.bbkm.life, w64 u.mirrorCode, w64 u.hoop.st, w64 u.fwRelease, if u.stake.debug then 1 else 0]⟩,
   ⟨.logRead, 0x0003, fun _ c => tbit (c.words.getD 0 0) 63 = true, fun u c t => replied t c (((u.bank (fld (c.words.getD 0 0) 47 32)
     (fld (c.words.getD 0 0) 31 16)).page.drop (fld (c.words.getD 0 0) 15 0 / 8)).take 22)⟩,
   ⟨.logRead, 0x0003, fun _ c => tbit (c.words.getD 0 0) 63 = false ∧ arg c 2 % 32 = 0, fun u c t => replied t c
     ((((u.log.drop (arg c 2 / 32)).take 7).flatMap fun r => [r.w0, r.w1, r.w2, r.w3]).take 22)⟩,
   ⟨.sensorRead, 0x0004, fun _ c => arg c 2 ≤ 8, fun _ c t => ∃ v, replied t c [v, BitVec.ofInt 64 (-2500), 12500]⟩,
   ⟨fun p k => .takeOwnership p k false, 0x0101, always, fun u c t => Answered t c 0 0 [] ∧ t.bbkm.life = 2 ∧
     (∀ e, u.stake.session = some e → t.bbkm.cards = [e.c0, e.c1]) ∧
     t.bbkm.ownerDigest = ([2, 3, 4, 5, 6, 7].flatMap fun i => toLe 8 (arg c i)) ∧ (t.stake.cfgs.get cfgSlotReset 0).seq = 1⟩,
   ⟨fun p k => .takeOwnership p k true, 0x0101, always, fun u c t => Answered t c 0x0701 0 [] ∧ t.bbkm.life = u.bbkm.life ∧ t.stake.cfgs = []⟩,
   ⟨.ceremonyOpen, 0x0102, always, fun _ c t => Answered t c 0 0 [] ∧ t.bbkm.life = 3⟩,
   ⟨fun p k => .ceremonyClose p k false, 0x0103, always, fun _ c t => Answered t c 0 0 [] ∧ t.bbkm.life = 4⟩,
   ⟨fun p k => .ceremonyClose p k true, 0x0103, always, fun u c t => Answered t c 0x0701 0 [] ∧ t.bbkm.life = u.bbkm.life⟩,
   ⟨.ownerLock, 0x0104, always, fun _ c t => Answered t c 0 0 [] ∧ t.bbkm.life = 5⟩,
   ⟨.ownerUnlock, 0x0105, always, fun _ c t => Answered t c 0 0 [] ∧ t.bbkm.life = 4⟩,
   ⟨.retire, 0x0106, always, fun _ _ t => t.bbkm.life = 7 ∧ t.stake.retired = true ∧ t.vault.objs = [] ∧ t.seals = [] ∧
     (∀ n, t.cores.has n = true → (t.core n).run = .stopped)⟩,
   ⟨fun p k => .officerEnroll p k cert, 0x0107, fun u _ => cert.toNat ∉ u.bbkm.cards ∧ u.bbkm.cards.length < 8,
     fun u c t => Answered t c 0 0 [] ∧ t.bbkm.cards = u.bbkm.cards ++ [cert.toNat]⟩,
   ⟨fun p k => .officerEnroll p k cert, 0x0107, fun u _ => cert.toNat ∉ u.bbkm.cards ∧ 8 ≤ u.bbkm.cards.length,
     fun u c t => Answered t c 0x0501 0 [] ∧ t.bbkm.cards = u.bbkm.cards⟩,
   ⟨.patWrite, 0x0108, fun u c => let n := arg c 2; let v := c.words.getD 1 0
      fld v 14 12 = fld (u.patEntry n) 14 12 ∧ fld v 6 0 = fld (u.patEntry n) 6 0 ∧ tbit v 15 = true,
     fun _ c t => Answered t c 0 0 [] ∧ t.stake.pat.get 0 (arg c 2) = c.words.getD 1 0⟩,
   ⟨.patRead, 0x0109, always, fun u c t => replied t c [u.patEntry (arg c 2)]⟩,
   ⟨.debugUnlock, 0x010A, always, fun _ c t => Answered t c 0 0 [] ∧ t.stake.debug = true ∧ t.vault.objs = [] ∧ t.seals = [] ∧
     t.pair.fenceOut = false⟩,
   ⟨.credSet, 0x010B, fun _ c => arg c 3 ≠ 0, fun _ c t => t.stake.creds.get [] (arg c 2) = ([3, 4, 5, 6, 7, 8].flatMap fun i => toLe 8 (arg c i))⟩,
   ⟨.credSet, 0x010B, fun _ c => ∀ i ∈ [3, 4, 5, 6, 7, 8], arg c i = 0, fun _ c t => t.stake.creds.has (arg c 2) = false⟩] : List MbxOp)

/-- Creels, their resources and their cores (09; 10/R296, R298). -/
def creelCommands (o : MbxOp) : Prop := o ∈ ([
   ⟨.creelAssign, 0x0201, fun u c => u.assignRefuses c.creel c.coreMask (arg c 5) = 0,
     fun _ c t => Answered t c 0 0 [] ∧ ∀ n, n < 192 → (t.creelOf n = some c.creel ↔ n ∈ c.coreMask)⟩,
   ⟨.grantSet, 0x0202, fun u c => arg c 3 ≠ 0 ∧ u.grantRefuses c.creel (arg c 3) (arg c 4 + 4096) = 0,
     fun _ c t => Answered t c 0 0 [] ∧ (t.creel c.creel).grants.get (0, 0) (arg c 2) = (arg c 3, arg c 4 + 4095)⟩,
   ⟨.grantSet, 0x0202, fun u c => arg c 3 = 0 ∧ arg c 4 = 0,
     fun _ c t => Answered t c 0 0 [] ∧ (t.creel c.creel).grants.has (arg c 2) = false⟩,
   ⟨.creelRelease, 0x0203, always, fun u c t => Answered t c 0 0 [] ∧ (t.creel c.creel).st = .unassigned ∧
     (t.creel c.creel).grants = [] ∧ (t.creel c.creel).segs = [] ∧ (∀ q ∈ t.coreCreel, q.2 ≠ c.creel) ∧
     (∀ q ∈ t.ringHolder, q.2 ≠ c.creel) ∧ t.bbkm.gens.get 0 c.creel = u.bbkm.gens.get 0 c.creel + 1⟩,
   ⟨.creelQuota, 0x0204, fun u c => notResetting u c ∧
      (List.range 64).foldl (fun a n => if n = c.creel then a else a + u.quota n (arg c 2)) (arg c 3) ≤ u.kindTotal (arg c 2),
     fun _ c t => Answered t c 0 0 [] ∧ (t.creel c.creel).quota.get 0 (arg c 2) = arg c 3⟩,
   ⟨.waySet, 0x0205, fun u c => notResetting u c ∧ u.waySetRefuses c.creel (arg c 2) (arg c 3) = 0 ∧
      without (u.creel c.creel).wayMask (arg c 2) = 0 ∧ ∀ i, (u.slice i).cleaning = 0,
     fun _ c t => Answered t c 0 0 [] ∧ (t.creel c.creel).wayMask = arg c 2 ∧ (t.creel c.creel).exclMask = arg c 3⟩,
   ⟨.waySet, 0x0205, fun u c => notResetting u c ∧ u.waySetRefuses c.creel (arg c 2) (arg c 3) = 0 ∧
      without (u.creel c.creel).wayMask (arg c 2) ≠ 0 ∧ ∀ i, (u.slice i).cleaning = 0,
     fun u c t => Waits t c (.cleaning none) ∧ (t.creel c.creel).wayMask = arg c 2 ∧
      ∀ i, i < 224 → (t.slice i).cleaning = without (u.creel c.creel).wayMask (arg c 2)⟩,
   ⟨.qosSet, 0x0206, fun u c => 50 ≤ fld (c.words.getD 1 0) 47 32 ∧
      (List.range 96).foldl (fun a n => if n = arg c 2 then a else a + shareOf (u.qos n)) (shareOf (c.words.getD 1 0)) ≤ 1024,
     fun _ c t => Answered t c 0 0 [] ∧ t.qosCfg.get 0 (arg c 2) = c.words.getD 1 0⟩,
   ⟨.creelStart, 0x0207, fun u c => u.stake.debug = false ∧
      sha384 (u.stake.bootImgs.get [] c.creel) = (u.stake.boots.get bootRecReset c.creel).digest,
     fun u c t => Answered t c 0 0 [] ∧ (t.creel c.creel).st = .running ∧
      ∀ n ∈ u.coresOf c.creel, (t.core n).x.pc = w64 ((u.stake.boots.get bootRecReset c.creel).loadAddr + (u.stake.boots.get bootRecReset c.creel).entry) ∧
        (t.core n).x.rd 1 = w64 c.creel ∧ (t.core n).x.rd 4 = 3 ∧ ((u.coresOf c.creel).head? = some n → (t.core n).run = .running)⟩,
   ⟨.creelStart, 0x0207, fun u c => u.stake.debug = false ∧
      sha384 (u.stake.bootImgs.get [] c.creel) ≠ (u.stake.boots.get bootRecReset c.creel).digest,
     fun u c t => Answered t c 0x0602 0 [] ∧ (t.creel c.creel).st = (u.creel c.creel).st⟩,
   ⟨.creelStop, 0x0208, fun u c => u.paused = false ∧ (u.creelResetBegin c.creel 1).strictHeld c.creel = false,
     fun _ c t => Answered t c 0 0 [] ∧ (t.creel c.creel).st = .stopped⟩,
   ⟨.creelReset, 0x0209, fun u c => u.paused = false ∧ notResetting u c ∧ (u.creelResetBegin c.creel 0).strictHeld c.creel = false,
     fun u c t => Answered t c 0 0 [] ∧ (t.creel c.creel).st = .running ∧
      ∀ n ∈ u.coresOf c.creel, (t.core n).x.rd 4 = 2 ∧ (t.core n).tlb = [] ∧ (t.core n).sb = []⟩,
   ⟨.creelReset, 0x0209, fun u c => u.paused = false ∧ (u.creelResetBegin c.creel 0).strictHeld c.creel = true ∧ notResetting u c,
     fun _ c t => Waits t c (.reset c.creel) ∧ (t.creel c.creel).st = .resetting⟩,
   ⟨.segmentSet, 0x020A, fun u c => notResetting u c ∧ u.segReady c.creel = true ∧
      u.segRefuses c.creel (arg c 2) { w0 := c.words.getD 1 0, w1 := c.words.getD 2 0 } = 0,
     fun _ c t => Answered t c 0 0 [] ∧ (t.creel c.creel).segs.get segReset (arg c 2) = { w0 := c.words.getD 1 0, w1 := c.words.getD 2 0 }⟩,
   ⟨.segmentRead, 0x020B, always, fun u c t => replied t c
     [((u.creel c.creel).segs.get segReset (arg c 2)).w0, ((u.creel c.creel).segs.get segReset (arg c 2)).w1]⟩,
   ⟨.resourceAlloc, 0x020C, fun u c => arg c 2 = 1 ∧ (u.heldOf c.creel 1).length < u.quota c.creel 1 ∧
      ∃ n, n < 1024 ∧ u.ringHolder.has n = false,
     fun u c t => ∃ n, n < 1024 ∧ u.ringHolder.has n = false ∧ Answered t c 0 (w64 n) [] ∧ t.ringHolder.get 64 n = c.creel⟩,
   ⟨.resourceAlloc, 0x020C, fun u c => u.quota c.creel (arg c 2) ≤ (u.heldOf c.creel (arg c 2)).length,
     fun _ c t => Answered t c 0x0501 0 []⟩,
   ⟨.coreGate, 0x020E, fun u c => u.coresReady c.creel = true ∧ u.creelOf (arg c 2) = some c.creel ∧ (u.core (arg c 2)).run = .running,
     fun _ c t => Answered t c 0 0 [] ∧ (t.core (arg c 2)).run = .gated ∧ (t.core (arg c 2)).tlb = []⟩,
   ⟨.coreGate, 0x020E, fun u c => u.coresReady c.creel = true ∧ u.creelOf (arg c 2) ≠ some c.creel, fun _ c t => Answered t c 0x0103 0 []⟩,
   ⟨.coreWake, 0x020F, fun u c => u.creelOf (arg c 2) = some c.creel ∧ (u.core (arg c 2)).run = .gated,
     fun _ c t => Answered t c 0 0 [] ∧ (t.core (arg c 2)).run = .running⟩,
   ⟨.breachReset, 0x0210, always, fun u c t => Answered t c 0 0 [] ∧ fld (t.creel c.creel).breach 63 16 = 0 ∧
     fld (t.creel c.creel).breach 15 0 = fld (u.creel c.creel).breach 15 0⟩] : List MbxOp)

/-- No MEM_SPEED has started: none is deferred, none changes the channels (08/R249, R250). -/
def noSpeed (u : State) : Prop := ∀ r ∈ u.stake.started, r.cmd.op ≠ 0x0302 ∧ (∀ b d, r.why ≠ .speed b d)
/-- Memory, ways, counters, reserves and the measured boot (10/R296). -/
def memoryCommands (o : MbxOp) : Prop := o ∈ ([
   ⟨.memStatus, 0x0301, always, fun u c t => replied t c
     [w64 (chanCode (u.chan (arg c 2)).st), w64 (u.chan (arg c 2)).bin, w64 (u.chan (arg c 2)).fenced, w64 (u.chan (arg c 2)).reserveRank]⟩,
   ⟨.memSpeed, 0x0302, fun u c => u.training = false ∧ u.changing = false ∧ noSpeed u ∧
      (∀ i, i < 16 → (u.chan i).st ≠ .fallback ∧ (u.chan i).st ≠ .untrained ∧ arg c 2 ∈ (u.chan i).known),
     fun _ c t => Waits t c (.changing (arg c 2) 0) ∧ (t.chan 0).st = .speedChange⟩,
   ⟨.memSpeed, 0x0302, fun u c => u.training = true ∧ noSpeed u ∧ (∀ i, i < 16 → (u.chan i).st ≠ .fallback ∧ arg c 2 ∈ (u.chan i).known),
     fun u c t => Waits t c (.speed (arg c 2) u.clock) ∧ t.chans = u.chans⟩,
   ⟨.rankCopy, 0x0303, fun u c => let x := u.chan (arg c 2)
      x.copy = none ∧ x.serves = true ∧ x.reserveRank ≠ 0 ∧ x.reserveFailed = false ∧ x.outOfService = none ∧
        wayBit x.fenced (arg c 3) = false ∧ x.reserveRank ≠ arg c 3 ∧ arg c 3 ≤ x.ranks,
     fun _ c t => Waits t c (.rankCopy (arg c 2)) ∧ (t.chan (arg c 2)).copy = some { source := arg c 3, boundary := 0, paused := false }⟩,
   ⟨.addrDecode, 0x0304, fun u c => arg c 2 = 0 ∧ arg c 3 < u.installed,
     fun _ c t => replied t c [w64 (channelOf (arg c 3 / 64)), Config.position (arg c 3 / 64)]⟩,
   ⟨.addrDecode, 0x0304, fun u c => arg c 2 ≠ 0 ∧ u.decodePa c < u.installed,
     fun u c t => replied t c [w64 (u.decodePa c)] ∧ channelOf (u.decodePa c / 64) = arg c 3 ∧ (Config.position (u.decodePa c / 64)).toNat = arg c 4⟩,
   ⟨.scrubPeriod, 0x0305, always, fun _ c t => Answered t c 0 0 [] ∧ t.stake.scrub = arg c 2⟩,
   ⟨.disturbSet, 0x0306, always, fun _ c t => Answered t c 0 0 [] ∧ t.stake.mitigation = arg c 2 ∧ t.stake.throttle = arg c 3⟩,
   ⟨.wayPower, 0x0307, fun u c => arg c 2 < 224 ∧ arg c 4 = 1 ∧ (u.slice (arg c 2)).powerCleaning = 0,
     fun u c t => Answered t c 0 0 [] ∧ (t.slice (arg c 2)).off = without (u.slice (arg c 2)).off (3 * 4 ^ arg c 3)⟩,
   ⟨.qosCounterReset, 0x0308, always, fun _ c t => Answered t c 0 0 [] ∧
     ∀ i, i < 16 → ((t.chan i).qstat (arg c 2)).misses = 0 ∧ ((t.chan i).qstat (arg c 2)).hammer = 0⟩,
   ⟨.reserveReport, 0x0401, always, fun _ c t => ∃ r, r.length = 22 ∧ replied t c r⟩,
   ⟨.coreMap, 0x0402, always, fun u c t => Answered t c 0 (w64 (u.tileOf (arg c 2))) []⟩,
   ⟨.measureRead, 0x0800, always, fun u c t => replied t c
     ((Config.measureRecord ((List.range 8).map fun i => u.stake.meas.get (zeros 48) i)).take 22)⟩] : List MbxOp)

end Sys2Proof.Claims

open Sys2Proof Sys2Proof.Machine Sys2Proof.Claims

/-- 10/R293 to R299, R304 to R306, 21/R573: the Stake's commands for the device and its owner. -/
def Obligations.DeviceCommandEffects : Prop := ∀ cert : BitVec 384, ∀ o, deviceCommands cert o → o.Completes
/-- 09/R252 to R267, R272, 10/R296, R298, 18/R530: the Stake's commands for creels. -/
def Sys2Proof.Claims.CreelCommandEffects : Prop :=
  (∀ o, creelCommands o → o.Completes) ∧
  (∀ (s : State) (p : Slot) (k : Fin 16) (c : Cmd), s.takeCmd p.val k.val 0x020D = some c →
    (∀ r ∈ s.stake.started, ¬ (r.cmd.port = p.val ∧ r.cmd.slot = k.val)) →
    let u := s.modStake fun m => { m with accepted := m.accepted.filter (· ≠ c) }
    u.stateRefuses c = none → notResetting u c → (u.heldOf c.creel (arg c 2)).contains (arg c 3) = true → arg c 2 = 1 →
    (u.busyOn 1 (arg c 3) = false → ∃ t, exec (.resourceFree p k) s = .next t ∧ Answered t c 0 0 [] ∧ t.ringHolder.has (arg c 3) = false) ∧
    (u.busyOn 1 (arg c 3) = true → ∃ t, exec (.resourceFree p k) s = .next t ∧ Waits t c .freeing ∧ (t.hring (arg c 3)).stopping = true)) ∧
  (∀ (s : State) (p : Slot) (k : Fin 16) (r : RunCmd),
    s.stake.started.find? (fun r => r.cmd.port = p.val ∧ r.cmd.slot = k.val ∧ r.why = .freeing) = some r → arg r.cmd 2 = 1 →
    (s.busyOn 1 (arg r.cmd 3) = true → s.clock < (r.old.getD 0 0).toNat + micros 50 → exec (.resourceFree p k) s = .next s) ∧
    (s.busyOn 1 (arg r.cmd 3) = false ∨ (r.old.getD 0 0).toNat + micros 50 ≤ s.clock →
      ∃ t, exec (.resourceFree p k) s = .next t ∧ Answered t r.cmd 0 0 [] ∧ t.ringHolder.has (arg r.cmd 3) = false))
/-- 08/R235 to R250, 07/R211 to R214, 10/R296, 19/R557: the Stake's commands for memory, ways, counters and reserves. -/
def Sys2Proof.Claims.MemoryCommandEffects : Prop :=
  (∀ o, memoryCommands o → o.Completes) ∧
  (∀ (s : State) (p : Slot) (k : Fin 16) (r : RunCmd) (bin ch : Nat),
    s.stake.started.find? (fun r => r.cmd.port = p.val ∧ r.cmd.slot = k.val ∧ r.cmd.op = 0x0302) = some r → r.why = .changing bin ch →
    (∀ q ∈ s.stake.started, ∀ b d, q.why ≠ .speed b d) → ch < 16 →
    ∃ t, exec (.memSpeed p k) s = .next t ∧ (t.chan ch).bin = bin ∧
      (ch < 15 → (t.chan (ch + 1)).st = .speedChange ∧ Waits t r.cmd (.changing bin (ch + 1))) ∧ (ch = 15 → Answered t r.cmd 0 0 []))
/-- 09/R252 to R272, 08/R235 to R250: the Stake's commands for creels and for memory. -/
def Obligations.CreelAndMemoryCommands : Prop :=
  Claims.CreelCommandEffects ∧ Claims.MemoryCommandEffects


/-- 10/R281, R284, R292: the doorbell gives slots to the Stake, in ascending order; MBX_CQ_CONS moves the count; a completion is
written once the ring has room and returns its slot. -/
def Obligations.MailboxRegisters : Prop :=
  ∀ (s : State) (p : Slot), p.val < 71 → s.stake.up = true →
    (∀ v l, s.transport p = true → (s.port p.val).suspended = none → ∃ t, exec (.mbxDoorbell p v l) s = .next t ∧
      (t.port p.val).owner = (s.port p.val).owner ||| (v.toNat % 65536) ∧
      (t.port p.val).queue = (s.port p.val).queue ++ (List.range 16).filter (fun k => tbit v k && !(s.port p.val).owner.testBit k) ∧
      (l = [] ∨ (p.val ≠ 64 ∧ p.val ≠ 70) → (t.port p.val).words = (s.port p.val).words) ∧
      (∀ off w, l = [(off, w)] → p.val = 64 ∨ p.val = 70 → off < 0xC00 → off % 8 = 0 → (s.port p.val).owner.testBit (off / 8 / 24) = false →
        (t.port p.val).words.get 0 (off / 8) = w)) ∧
    (s.transport p = false → (∀ v l, exec (.mbxDoorbell p v l) s = .next s) ∧ ∀ v, exec (.mbxCqCons p v) s = .next s) ∧
    (∀ v : W64, s.transport p = true → ((s.port p.val).prod + 2 ^ 32 - v.toNat % 2 ^ 32) % 2 ^ 32 ≤ 16 →
      ∃ t, exec (.mbxCqCons p v) s = .next t ∧ (t.port p.val).cons = v.toNat % 2 ^ 32) ∧
    (∀ v : W64, 16 < ((s.port p.val).prod + 2 ^ 32 - v.toNat % 2 ^ 32) % 2 ^ 32 → exec (.mbxCqCons p v) s = .next s) ∧
    (∀ c r, (s.port p.val).comps = c :: r → ((s.port p.val).prod + 2 ^ 32 - (s.port p.val).cons) % 2 ^ 32 < 16 →
      ∃ t, exec (.mailboxCompletion p) s = .next t ∧ (t.port p.val).comps = r ∧
        (t.port p.val).prod = ((s.port p.val).prod + 1) % 2 ^ 32 ∧ (t.port p.val).owner.testBit c.slot = false ∧
        (t.port p.val).ring.get 0 (4 * ((s.port p.val).prod % 16)) = w64 (c.tag * 2 ^ 32 + c.status * 2 ^ 16 + c.slot * 2 ^ 8)) ∧
    (∀ c r, (s.port p.val).comps = c :: r → 16 ≤ ((s.port p.val).prod + 2 ^ 32 - (s.port p.val).cons) % 2 ^ 32 →
      exec (.mailboxCompletion p) s = .next s) ∧
    (p.val ≠ 64 → (s.port p.val).suspended = none → 256 ≤ ((s.port p.val).counts.filter fun t => s.clock < t + 2 ^ 32).length →
      ∃ t, exec (.portSuspension p) s = .next t ∧ (t.port p.val).suspended = some s.clock) ∧
    (∀ d, (s.port p.val).suspended = some d → d + 2 ^ 32 ≤ s.clock →
      ∃ t, exec (.portSuspensionEnd p) s = .next t ∧ (t.port p.val).suspended = none ∧ (t.port p.val).counts = [])

/-- 10/R282, R283, R288, R289, R291, R297: the next command of a port in turn is accepted; one that fails the first check completes
with that status, one that the lifecycle forbids with 0x0300 and the lifecycle code. -/
def Obligations.CommandAcceptanceChecks : Prop :=
  ∀ (s : State) (p k : Nat) (r : List Nat), s.stake.up = true → s.paused = false →
    ((upto (s.stake.turn + 1) 71).map (· % 71)).find? s.portAccepts = some p → (s.port p).queue = k :: r →
    let c := (commandOf s p k).1
    let w0 := (commandOf s p k).2.1
    let w1 := (commandOf s p k).2.2
    (check1 c w0 w1 = 0 → s.check2 c = 0 → s.lifeRefuses c = false →
      ∃ t, exec .commandAcceptance s = .next t ∧ t.stake.accepted = s.stake.accepted ++ [c] ∧ (t.port p).queue = r ∧ t.stake.turn = p) ∧
    (check1 c w0 w1 ≠ 0 → ∃ t, exec .commandAcceptance s = .next t ∧ t.stake.accepted = s.stake.accepted ∧ (t.port p).queue = r ∧
      (t.port p).comps.getLast? = some { slot := k, tag := c.tag, status := check1 c w0 w1, irq := c.irq, result := 0, reply := [] }) ∧
    (check1 c w0 w1 = 0 → s.check2 c = 0 → s.lifeRefuses c = true →
      ∃ t, exec .commandAcceptance s = .next t ∧ t.stake.accepted = s.stake.accepted ∧
        (t.port p).comps.getLast? = some { slot := k, tag := c.tag, status := 0x0300, irq := c.irq, result := w64 s.bbkm.life, reply := [] })

/-- 10/R295, R299, 11/R319, 21/R577: officer sessions, cards, approvals and auditor sessions. -/
def Obligations.SessionsOfOfficersAndAuditors : Prop :=
  ∀ (s : State),
    (∀ c0 c1 : BitVec 384, s.stake.up = true → s.officer = none → s.stake.lockedAt = none → c0 ≠ c1 → s.bbkm.life ≠ 1 →
      (c0.toNat ∈ s.bbkm.cards → c1.toNat ∈ s.bbkm.cards →
        ∃ t, exec (.officerSessionOpen c0 c1 true true) s = .next t ∧
          t.stake.session = some { c0 := c0.toNat, c1 := c1.toNat, last := s.clock } ∧ t.stake.fails = 0 ∧ t.stake.approvals = []) ∧
      (c0.toNat ∉ s.bbkm.cards → c1.toNat ∉ s.bbkm.cards → s.stake.fails = 7 →
        ∃ t, exec (.officerSessionOpen c0 c1 true true) s = .next t ∧ t.stake.session = s.stake.session ∧ t.stake.lockedAt = some s.clock) ∧
      (c0.toNat ∈ s.bbkm.cards → c1.toNat ∉ s.bbkm.cards →
        ∃ t, exec (.officerSessionOpen c0 c1 true true) s = .next t ∧ t.stake.session = s.stake.session ∧ t.stake.fails = 1 ∧
          t.stake.lockedAt = none)) ∧
    (∀ e rem, s.stake.session = some e → rem = true ∨ e.last + 900 * 2 ^ 32 ≤ s.clock →
      ∃ t, exec (.officerSessionEnd rem) s = .next t ∧ t.stake.session = none ∧ t.stake.comps = [] ∧ t.stake.approvals = []) ∧
    (∀ d, s.stake.lockedAt = some d → d + 900 * 2 ^ 32 ≤ s.clock →
      ∃ t, exec .challengeLockoutEnd s = .next t ∧ t.stake.lockedAt = none ∧ t.stake.fails = 0) ∧
    (∀ e, s.officer = some e → ∀ (cr : CreelId) nm op, (∀ a ∈ s.stake.approvals, a.creel ≠ cr.val) →
      ∃ t, exec (.cardPoll 0 (.approval cr nm op) true) s = .next t ∧
        { creel := cr.val, name := nm, op := op.toNat, by0 := true, by1 := false, since := s.clock } ∈ t.stake.approvals) ∧
    (∃ t, exec .approvalExpiry s = .next t ∧
      ∀ a, a ∈ t.stake.approvals ↔ a ∈ s.stake.approvals ∧ ¬ (a.by0 = true ∧ a.by1 = true ∧ a.since + 600 * 2 ^ 32 ≤ s.clock)) ∧
    (∀ key : BitVec 384, s.stake.up = true → s.bbkm.life ≠ 6 → s.auditorFits 0 key.toNat = true →
      ∃ t, exec (.auditorSessionOpen key) s = .next t ∧ t.stake.auditors.has 0 = true ∧ t.stake.auditors.get 0 0 = s.clock) ∧
    (∀ a : Fin 2, ∀ m : Bytes, s.stake.auditors.has a = true → m.length < 12 →
      ∃ t, exec (.auditorMessage a m) s = .next t ∧ t.stake.auditors.has a = false) ∧
    (∀ a : Fin 2, ∀ off : BitVec 32, s.stake.auditors.has a = true → off.toNat % 8 = 0 → off.toNat + 8 ≤ 4096 →
      ∃ t, exec (.auditorMessage a (toLe 4 1 ++ toLe 4 off.toNat ++ toLe 4 8)) s = .next t ∧
        t.emitted = s.emitted ++ [{ kind := 6, words := [a.val, (s.mbxRead (65 + a.val) off.toNat).toNat] }]) ∧
    (∀ a : Fin 2, s.stake.auditors.has a = true → ∃ t, exec (.auditorSessionEnd a true) s = .next t ∧ t.stake.auditors.has a = false)

/-! # The Hoop and pairing (14, 15) -/

namespace Sys2Proof.Claims
open Sys2Proof Sys2Proof.Machine

/-- The Hoop's commands (14/R437). -/
def hoopCommands (o : MbxOp) : Prop := o ∈ ([
   ⟨.hoopStatus, 0x0701, always, fun u c t => replied t c
     (u.hoopStatus :: ([1, 2, 3].map fun n => if u.hoop.qual.testBit n then BitVec.ofInt 64 (u.hoop.offs.get 0 n) else 0) ++ [w64 u.hoop.qual])⟩,
   ⟨.hoopSources, 0x0702, always, fun _ c t => Answered t c 0 0 [] ∧ t.stake.hoopCfg.sources = arg c 2 ∧ t.stake.hoopCfg.alarm = arg c 3⟩,
   ⟨.hoopPtp, 0x0703, fun u c => u.stake.hoopCfg.ptp ≠ arg c 2, fun _ c t => Answered t c 0 0 [] ∧ t.stake.hoopCfg.ptp = arg c 2 ∧
     t.hoop.sync = [] ∧ t.hoop.ptpUtc = none ∧ t.hoop.qual.testBit 2 = false⟩,
   ⟨.hoopPtp, 0x0703, fun u c => u.stake.hoopCfg.ptp = arg c 2, fun u c t => Answered t c 0 0 [] ∧ t.hoop = u.hoop⟩,
   ⟨.hoopCal, 0x0704, always, fun u c t => Answered t c 0 0 [] ∧ t.stake.hoopCfg.ppsDelay = c.words.getD 0 0 ∧
     t.stake.hoopCfg.ptpAsym = c.words.getD 1 0 ∧ t.stake.hoopCfg.utc = arg c 4 ∧ (t.hoop.cal = true ↔ u.hoop.st = 1)⟩,
   ⟨.hoopSeconds, 0x0705, fun u _ => u.hoop.st = 0, fun u c t => Answered t c 0 0 [] ∧ t.hoop.ref.given = some (arg c 2, u.clock)⟩,
   ⟨.hoopSeconds, 0x0705, fun u _ => u.hoop.st ≠ 0, fun u c t => Answered t c 0x0105 0 [] ∧ t.hoop = u.hoop⟩,
   ⟨.hoopStep, 0x0706, fun u _ => u.hoop.stepNeeded = true ∧ ∃ n ∈ u.hoopSources, 2 ^ 32 < (u.hoop.offs.get 0 n).natAbs,
     fun u c t => Answered t c 0 0 [] ∧ t.hoop.steps = u.hoop.steps + 1 ∧ t.hoop.st = 1 ∧
      (t.hoop.stepNeeded = true ↔ ∃ n ∈ u.hoopSources, 2 ^ 32 < (u.hoop.offs.get 0 n - u.hoop.offs.get 0 t.hoop.src).natAbs) ∧
      t.hoop.src ∈ u.hoopSources ∧ 2 ^ 32 < (u.hoop.offs.get 0 t.hoop.src).natAbs ∧ t.now = ((u.now : Int) + u.hoop.offs.get 0 t.hoop.src).toNat ∧ t.hoop.saved = some t.hoop.sec⟩,
   ⟨.hoopStep, 0x0706, fun u _ => u.hoop.stepNeeded = false, fun u c t => Answered t c 0x0105 0 [] ∧ t.hoop = u.hoop⟩] : List MbxOp)

/-- The granules of a creel that are marked once PAIR_REGION has its effect (15/R447). -/
def marksAfter (u : State) (c : Cmd) : List Nat :=
  let gs := upto (arg c 3 / 0x200000) (arg c 4)
  let old := u.pair.marks.get [] c.creel
  if tbit (c.words.getD 0 0) 0 then old ++ gs.filter (fun g => !old.contains g) else old.filter fun g => !gs.contains g
/-- The commands of pairing (15/R443, R453, R462, R464), at any operands of the ceremony and at either answer of the partner. -/
def pairCommands (serial : Bytes) (shared storage : BitVec 256) (gens : List Nat) (partnerOk : Bool) (o : MbxOp) : Prop :=
  let lower := decide (leNat Config.serial < leNat serial)
  let began := fun (u : State) (c : Cmd) => u.pair.st = 0 ∧ serial = toLe 8 (arg c 2) ++ toLe 8 (arg c 3)
  let mirrors := fun (u : State) (c : Cmd) => (u.pair.st = 3 ∨ u.pair.st = 4) ∧ c.port ≠ 67
  let alone := fun (u : State) (c : Cmd) => ¬ mirrors u c
  let granted := fun (u : State) (c : Cmd) => u.inGrant c.creel (arg c 3) (arg c 3 + arg c 4 * 0x200000) = true ∧ (mirrors u c → partnerOk = true)
  let moves := fun (u : State) (c : Cmd) => u.pair.st = 4 ∧ (u.role c.creel = 1 ∨ u.role c.creel = 2)
  let unmoved := fun (u : State) (c : Cmd) => ∀ r ∈ u.stake.started, ¬ (r.cmd.port = c.port ∧ r.cmd.slot = c.slot ∧ r.why = .moving)
  let kept := fun (u : State) (c : Cmd) => (u.creel c.creel).st ≠ .running ∨ fld (u.pairCfg c.creel) 1 0 = fld (c.words.getD 1 0) 1 0
  o ∈ ([
   ⟨fun p k => .pairBegin p k serial true shared storage gens, 0x0601, began, fun u c t => Answered t c 0 0 [] ∧ t.pair.st = 2 ∧
     t.pair.partner = serial ∧ t.pair.index = (if lower then 0 else 1) ∧ t.pair.up = 0xFF ∧
     t.bbkm.pairSecret = kdf (toBe 32 shared.toNat) (ascii "PAIR") t.serials 32 ∧
     t.bbkm.storageRoot = (if lower then u.bbkm.storageRoot else toBe 32 storage.toNat)⟩,
   ⟨fun p k => .pairBegin p k serial false shared storage gens, 0x0601, fun u _ => u.pair.st = 0,
     fun u c t => Answered t c 0x0601 0 [] ∧ t.pair = u.pair ∧ t.bbkm.pairSecret = u.bbkm.pairSecret⟩,
   ⟨.pairStatus, 0x0602, always, fun u c t => ∃ w l, replied t c (w :: w64 u.bbkm.epoch :: l) ∧ l.length = 4 ∧ fld w 3 0 = u.pair.st % 16 ∧
     fld w 15 8 = u.pair.up % 256⟩,
   ⟨.pairPolicy, 0x0603, fun u c => alone u c ∧ kept u c, fun _ c t => Answered t c 0 0 [] ∧ t.pairCfg c.creel = c.words.getD 1 0⟩,
   ⟨.pairPolicy, 0x0603, fun u c => mirrors u c ∧ kept u c, fun _ c t => Waits t c .pairing ∧ t.pairCfg c.creel = c.words.getD 1 0⟩,
   ⟨.pairPolicy, 0x0603, fun u c => ¬ kept u c, fun u c t => Answered t c 0x0105 0 [] ∧ t.pair = u.pair⟩,
   ⟨fun p k => .pairRegion p k partnerOk, 0x0604, fun u c => granted u c ∧ (marksAfter u c).length ≤ 65536,
     fun u c t => (if u.withPartner c then Waits t c .pairing else Answered t c 0 0 []) ∧ t.pair.marks.get [] c.creel = marksAfter u c ∧ ∀ g, arg c 3 / 0x200000 ≤ g → g < arg c 3 / 0x200000 + arg c 4 →
      ((t.pair.marks.get [] c.creel).contains g ↔ tbit (c.words.getD 0 0) 0 = true)⟩,
   ⟨fun p k => .pairRegion p k partnerOk, 0x0604, fun u c => granted u c ∧ 65536 < (marksAfter u c).length,
     fun u c t => Answered t c 0x0204 0 [] ∧ t.pair = u.pair⟩,
   ⟨fun p k => .pairRegion p k partnerOk, 0x0604, fun u c => ¬ granted u c,
     fun u c t => Answered t c 0x0103 0 [] ∧ t.pair = u.pair⟩,
   ⟨.pairRole, 0x0605, fun u c => unmoved u c ∧ moves u c ∧ u.moveBusy c.creel = false ∧ u.role c.creel = 1,
     fun u c t => Answered t c 0 0 [] ∧ t.role c.creel = 2 ∧ homeIx (t.pairCfg c.creel) = 1 - u.pair.index⟩,
   ⟨.pairRole, 0x0605, fun u c => moves u c ∧ (u.moveBusy c.creel = true ∨ u.role c.creel = 2),
     fun u c t => Waits t c .moving ∧ t.role c.creel = u.role c.creel ∧ ((u.creel c.creel).st = .running → (t.creel c.creel).st = .migrating)⟩,
   ⟨.pairRole, 0x0605, fun u c => ¬ moves u c, fun u c t => Answered t c 0x0303 (w64 u.pair.st) [] ∧ t.pair = u.pair⟩,
   ⟨.pairWitness, 0x0606, fun _ c => tbit (c.words.getD 3 0) 16 = false, fun u c t => Answered t c 0 0 [] ∧
     t.stake.witness.enable = false ∧ t.stake.witness.timeout = fld (c.words.getD 2 0) 47 16 ∧ t.bbkm.witnessKey = u.bbkm.witnessKey⟩,
   ⟨.pairWitness, 0x0606, fun u c => tbit (c.words.getD 3 0) 16 = true ∧ ∃ x ∈ u.stake.comps, x.set = fld (c.words.getD 3 0) 15 0,
     fun u c t => Answered t c 0 0 [] ∧ t.stake.witness.enable = true ∧ t.bbkm.witnessKey =
      (u.stake.comps.filter fun x => x.set = fld (c.words.getD 3 0) 15 0).foldl (fun a x => xorBytes32 a x.key) (zeros 32)⟩,
   ⟨.pairWitness, 0x0606, fun u c => tbit (c.words.getD 3 0) 16 = true ∧ ∀ x ∈ u.stake.comps, x.set ≠ fld (c.words.getD 3 0) 15 0,
     fun u c t => Answered t c 0x0105 0 [] ∧ t.stake.witness = u.stake.witness⟩,
   ⟨.pairDissolve, 0x0607, always, fun _ c t => Answered t c 0 0 [] ∧ t.pair.st = 0 ∧ t.bbkm.pairSecret = zeros 32 ∧
     t.bbkm.witnessKey = zeros 32 ∧ t.bbkm.epoch = 0 ∧ ∀ n, t.role n = 0⟩] : List MbxOp)

/-- Exec answers a next state of which the claim holds. -/
def Gives (i : Instr) (s : State) (P : State → Prop) : Prop := ∃ t, exec i s = .next t ∧ P t

end Sys2Proof.Claims

open Sys2Proof Sys2Proof.Machine Sys2Proof.Claims

/-- 14/R437: the Stake's commands for the Hoop. -/
def Sys2Proof.Claims.HoopCommandEffects : Prop := ∀ o, hoopCommands o → o.Completes

/-- 14/R425, R429 to R436: the events of the Hoop's sources, its slews, its alarm, its saved seconds and its pulse output. -/
def Obligations.HoopSourceEvents : Prop :=
  ∀ (s : State),
    (∀ cycles, s.hoop.ref.last.isSome = true → s.refDue = false → 9999998 ≤ cycles → cycles ≤ 10000002 →
      Gives (.hoopPps cycles true) s fun t => t.hoop.ref.edges = s.hoop.ref.edges + 1 ∧ t.hoop.ref.last = some s.clock ∧
        (s.hoop.qual.testBit 1 = true ∨ 3 ≤ s.hoop.ref.edges → t.hoop.qual.testBit 1 = true)) ∧
    (∀ cycles, Gives (.hoopPps cycles false) s fun t => t.hoop.ref.edges = 1 ∧ t.hoop.ref.last = some s.clock) ∧
    (∀ d u, Gives (.ptpMessage false d (some u)) s fun t => t = { s with hoop := { s.hoop with ptpUtc := some u.toNat } }) ∧
    (∀ d, s.ptpDue = false →
      let l := ((d + s.stake.hoopCfg.ptpAsym.toInt) :: s.hoop.sync).take 16
      Gives (.ptpMessage true d none) s fun t => t.hoop.sync = l ∧ t.hoop.lastSync = s.clock ∧
        (l.length = 16 → withinNs (spread l) 100 = true → t.hoop.qual.testBit 2 = true)) ∧
    (∀ n : Fin 3, Gives (.sourceLost n true) s fun t => t.hoop.qual.testBit (n.val + 1) = false ∧ t.hoop.offs.has (n.val + 1) = false) ∧
    (∀ v d, s.hoop.ref.given = some (v, d) → d + 3 * 2 ^ 31 ≤ s.clock → Gives .hoopSecondsDiscard s fun t => t.hoop.ref.given = none ∧
      t.hoop.sec = s.hoop.sec ∧ t.hoop.offs = s.hoop.offs) ∧
    (s.hoop.slew = true ∨ s.hoop.cal = true → s.hoop.src ≠ 0 → Gives .slewComplete s fun t => t.hoop.st = 1 ∧ t.hoop.src = s.hoop.src ∧
      t.hoop.slew = false ∧ t.hoop.cal = false ∧ (t.hoop.offs.get 0 s.hoop.src).natAbs ≤ 42) ∧
    (s.hoop.st = 2 → s.hoop.alarm = false → s.hoop.lostAt + s.stake.hoopCfg.alarm * 2 ^ 32 ≤ s.clock →
      Gives .holdoverAlarm s fun t => t.hoop = { s.hoop with alarm := true }) ∧
    (s.hoop.saved.getD 0 < s.hoop.sec / 64 * 64 →
      Gives .hoopSecondsSave s fun t => t = { s with hoop := { s.hoop with saved := some (s.hoop.sec / 64 * 64) } }) ∧
    (s.board.ppsSec ≠ s.hoop.sec → Gives .hoopPpsOut s fun t => t.board.pps = s.board.pps + 1 ∧ t.board.ppsSec = s.hoop.sec ∧
      t.emitted = s.emitted ++ [{ kind := 7, words := [s.hoop.sec] }] ∧ t.hoop = s.hoop)

/-- 15/R443, R453, R462, R464, R465: the Stake's commands for pairing. -/
def Sys2Proof.Claims.PairCommandEffects : Prop :=
  ∀ serial shared storage gens partnerOk, ∀ o, pairCommands serial shared storage gens partnerOk o → o.Completes
/-- 14/R437, 15/R443, R453, R462 to R465: the Stake's commands for the Hoop and for pairing. -/
def Obligations.HoopAndPairCommands : Prop :=
  Claims.HoopCommandEffects ∧ Claims.PairCommandEffects


/-- 15/R439 to R441, R449 to R451, R454: the pairing link: its frames, keys and bundles, commits and heartbeats. -/
def Obligations.PairLinkEvents : Prop :=
  ∀ (s : State),
    (s.linkUp = true → s.pair.keyAt + 60 * 2 ^ 32 ≤ s.now → Gives .linkRekey s fun t => t.pair.keys = s.pair.keys + 1 ∧ t.pair.sent = 0) ∧
    (∀ b : Fin 8, s.pair.up.testBit b.val = true →
      (s.pair.resv.testBit b.val = false → Gives (.bundleFailure b) s fun t => t.pair.resv = s.pair.resv + 2 ^ b.val ∧ t.pair.up = s.pair.up) ∧
      (s.pair.resv.testBit b.val = true → Gives (.bundleFailure b) s fun t => t.pair.up.testBit b.val = false)) ∧
    (∀ id c n, s.commitOf id = some c → c.who = .core n → Gives (.commitAcknowledgement id) s fun t =>
      t.pair.commits = s.pair.commits.filter (fun d => d.id ≠ c.id) ∧ n ∈ t.pair.released) ∧
    (∀ id c, s.commitOf id = some c → c.who ≠ .none → c.late = false → c.since + fld c.cfg 31 16 * 2 ^ 32 / 10000000 ≤ s.clock →
      (tbit c.cfg 3 = false → Gives (.commitDeadline id) s fun t =>
        t.pair.commits = s.pair.commits.map fun d => if d.id = id then { d with late := true } else d) ∧
      (∀ n, c.who = .core n → tbit c.cfg 3 = true → Gives (.commitDeadline id) s fun t =>
        t.pair.commits = s.pair.commits.filter (fun d => d.id ≠ c.id) ∧ n ∈ t.pair.released ∧ tbit (t.pair.stat.get 0 c.creel) 1 = true)) ∧
    (∀ cr : CreelId, tbit (s.pairCfg cr) 2 = true → s.lagging cr = true → Gives (.lagAlarm cr) s fun t => tbit (t.pair.stat.get 0 cr) 2 = true) ∧
    (∀ (cr c' : CreelId) ms id rest, s.role cr = 2 → s.paused = false → s.pair.inbox.get [] cr = ms ++ .marker c' id :: rest →
      (∀ m ∈ ms, isMarker m = false) → Gives (.commitApply cr) s fun t => t.pair.inbox.get [] cr = rest ∧
        (t.pair.unacked.getLast?.map fun f => (f.cls, f.msg)) = some (2, .ack id)) ∧
    (s.linkUp = true → Gives .frameRetransmit s fun t =>
      (∀ f ∈ s.pair.unacked, s.clock < f.sent + 20 * 2 ^ 32 / 10000000 → f ∈ t.pair.unacked) ∧
      (∀ f ∈ t.pair.unacked, f ∈ s.pair.unacked ∨ ∃ g ∈ s.pair.unacked, f = { g with sent := s.clock })) ∧
    (∀ (cls : Fin 7) (cr : CreelId) no b p, s.linkUp = true → s.pair.st ≠ 0 → s.role cr = 2 → cls ≠ 6 →
      Gives (.linkFrame cls (s.pair.rx.get 0 cls) true (.line cr no b p)) s fun t =>
        t.pair.inbox.get [] cr = s.pair.inbox.get [] cr ++ [.line cr no b p] ∧ t.pair.rx.get 0 cls = s.pair.rx.get 0 cls + 1 ∧ t.mem = s.mem) ∧
    (∀ (cls : Fin 7) n m, s.linkUp = true → s.pair.st ≠ 0 → n ≠ s.pair.rx.get 0 cls → exec (.linkFrame cls n true m) s = .next s) ∧
    (∀ (cls : Fin 7) n m a b, s.linkUp = true → s.pair.st ≠ 0 → s.pair.tagFails = [a, b] → s.clock < a + 2 ^ 32 / 1000 → s.clock < b + 2 ^ 32 / 1000 →
      Gives (.linkFrame cls n false m) s fun t => t.pair.up = 0 ∧ t.pair.rx = s.pair.rx ∧ t.mem = s.mem) ∧
    (s.linkUp = true → s.pair.st ≠ 0 → s.stake.debug = false → s.pair.hbSent + 5 * 2 ^ 32 / 10000000 ≤ s.clock →
      Gives .heartbeatSend s fun t => t.pair.hbSeq = s.pair.hbSeq + 1 ∧ t.pair.hbSent = s.clock ∧ ∃ l,
        t.emitted = s.emitted ++ { kind := 8, words := [s.pair.hbSeq, s.hoop.sec, s.hoop.frac, s.hoop.st, s.hoop.src, s.pair.st, b2n s.pair.holds,
          s.bbkm.epoch, b2n s.pair.advised] } :: l) ∧
    (∀ n sec frac hst src pst fence (epoch : W64) adv, s.linkUp = true → s.pair.st ≠ 0 →
      (n = s.pair.rx.get 0 1 → Gives (.heartbeat n sec frac hst src pst fence epoch adv) s fun t => t.pair.hbAt = s.clock ∧
        t.pair.pst = pst.toNat ∧ t.pair.pfence = fence ∧ t.pair.padvised = adv ∧ t.bbkm.epoch = max s.bbkm.epoch epoch.toNat ∧
        t.pair.rx.get 0 1 = n + 1) ∧
      (n ≠ s.pair.rx.get 0 1 → exec (.heartbeat n sec frac hst src pst fence epoch adv) s = .next s)) ∧
    (∀ cr : CreelId, s.linkUp = true → s.pair.st ≠ 0 → s.role cr = 2 → Gives (.linkFrame 2 (s.pair.rx.get 0 2) true (.move cr true)) s fun t =>
      t.role cr = 1 ∧ homeIx (t.pairCfg cr) = s.pair.index % 2 ∧ ∀ r ∈ t.stake.started, ¬ (r.cmd.creel = cr.val ∧ r.why = .moving))

/-- 15/R455 to R461, R465: loss of the partner, the fence, the witness, the takeover, and the way back through the resync copy. -/
def Obligations.FenceWitnessAndResync : Prop :=
  ∀ (s : State),
    let solo := fun (t : State) => t.pair.st = 5 ∧ t.pair.lost = none ∧ ∀ c, c < 64 → (s.role c = 1 ∨ s.role c = 2 → t.role c = 3) ∧ (s.role c = 5 → t.role c = 4)
    let fenced := fun (t : State) => t.pair.st = 6 ∧ t.pair.fenceOut = false ∧ t.pair.holds = false ∧ ∀ c, c < 64 → s.role c ≠ 0 → t.role c = 4
    (s.pair.st = 2 ∨ s.pair.st = 3 ∨ s.pair.st = 4 → s.pair.lost = none → s.linkUp = false ∨ s.pair.hbAt + 40 * 2 ^ 32 / 10000000 ≤ s.clock →
      (s.pair.holds = false → Gives .partnerLoss s fun t => t.pair.lost = some s.clock ∧ t.pair.st = 1) ∧
      (s.pair.holds = true → Gives .partnerLoss s solo)) ∧
    (∀ d, s.pair.lost = some d → d + 50 * s.pair.index * 2 ^ 32 / 10000000 ≤ s.clock → s.pair.fenceOut = false → s.pair.fenceIn = false →
      Gives .fenceClaim s fun t => t.pair.fenceOut = true ∧ t.pair.claimAt = some s.clock) ∧
    (s.pair.lost.isSome = true → s.pair.fenceIn = true → s.pair.claimAt = none → s.pair.holds = false → Gives .fenceClaim s fenced) ∧
    (∀ d, s.pair.claimAt = some d → d + 10 * 2 ^ 32 / 10000000 ≤ s.clock →
      (s.pair.fenceIn = false → Gives .fenceCheck s fun t => t.pair.holds = true ∧ t.pair.claimAt = none ∧ t.pair.fenceOut = s.pair.fenceOut) ∧
      (s.pair.fenceIn = true → s.pair.index = 1 → Gives .fenceCheck s fenced) ∧
      (s.pair.fenceIn = true → s.pair.index = 0 → exec .fenceCheck s = .next s)) ∧
    (s.pair.st ≠ 0 → s.pair.st ≠ 6 → s.pair.claimAt = none → s.power = 2 → Gives (.pfenceIn true) s fun t => fenced t ∧ t.pair.fenceIn = true) ∧
    (Gives (.pfenceIn false) s fun t => t.pair.fenceIn = false ∧ t.pair.st = s.pair.st ∧ t.pair.holds = s.pair.holds) ∧
    (s.pair.holds = true → s.stake.witness.enable = true → s.pair.lost.isSome = true → s.pair.wit = none →
      Gives .witnessClaim s fun t => ∃ w, t.pair.wit = some w ∧ w.epoch = s.bbkm.epoch + 1 ∧ w.granted = false ∧ w.at_ = s.clock ∧
        let head := [5209, s.stake.witness.addr.1.toNat, s.stake.witness.addr.2.toNat, s.stake.witness.port]
        t.emitted = s.emitted ++ [{ kind := 10, words := head ++ (claimBytes s w).map (·.toNat) }]) ∧
    (∀ w m, s.pair.wit = some w → w.granted = false →
      let c := claimBytes s w
      m.length = 144 → m.drop 96 = hmac 2 s.bbkm.witnessKey (m.take 96) → beNat (m.take 4) = 2 → (m.drop 8).take 40 = (c.drop 8).take 40 →
      (m.drop 64).take 16 = (c.drop 64).take 16 →
        (beNat ((m.drop 4).take 4) = 1 → (m.drop 48).take 16 = (c.drop 48).take 16 → Gives (.witnessGrant m) s fun t =>
          t.pair.wit = some { w with granted := true } ∧ t.bbkm.epoch = max s.bbkm.epoch w.epoch) ∧
        (beNat ((m.drop 4).take 4) ≠ 1 → Gives (.witnessGrant m) s fenced)) ∧
    (∀ w m, s.pair.wit = some w → m.drop 96 ≠ hmac 2 s.bbkm.witnessKey (m.take 96) → exec (.witnessGrant m) s = .next s) ∧
    (∀ w, s.pair.wit = some w → w.granted = false → w.at_ + 10 * s.stake.witness.timeout * 2 ^ 32 / 10000000 ≤ s.clock →
      Gives .witnessTimeout s fenced) ∧
    (∀ d, s.pair.lost = some d → s.pair.holds = true → d + (170 + 50 * s.pair.index) * 2 ^ 32 / 10000000 ≤ s.clock → s.paused = false →
      (s.stake.witness.enable = false ∨ ∃ w, s.pair.wit = some w ∧ w.granted = true) → Gives .takeover s solo) ∧
    (s.pair.st = 1 → s.linkUp = false → s.pair.lost = none → s.pair.startAt + 2 * 2 ^ 32 ≤ s.clock →
      Gives .linkDownTimeout s fun t => t.pair.lost = some s.clock ∧ t.pair.st = 1) ∧
    (∀ b : BitVec 8, s.pair.st ≠ 0 → 4 ≤ popCount8 b.toNat → s.linkUp = false → s.power = 2 → s.stake.debug = false →
      Gives (.linkBringUp b) s fun t => t.pair.st = 2 ∧ t.pair.up = b.toNat ∧ t.pair.tx = [] ∧ t.pair.rx = [] ∧ t.pair.keys = s.pair.keys + 1) ∧
    (∀ cfgs, s.pair.st = 2 → s.linkUp = true → Gives (.joiningEnd cfgs) s fun t => (t.pair.st = 3 ∨ t.pair.st = 4) ∧
      ∀ c, c < 64 →
        let source : Prop := s.pair.holds = true ∨ s.pair.pfence = false ∧ homeIx (s.pairCfg c) = s.pair.index
        (source → t.pairCfg c = s.pairCfg c ∧ t.role c = b2n (tbit (s.pairCfg c) 0)) ∧
        (¬ source → t.pairCfg c = cfgs.getD c (s.pairCfg c) ∧ t.role c = 5 * b2n (tbit (t.pairCfg c) 0))) ∧
    (∀ (cr : CreelId) l r, s.pair.st = 3 → s.pair.copies.has cr = true → s.linkUp = true → (s.pair.copies.get copyReset cr).lines = l :: r →
      Gives (.resyncLineCopy cr) s fun t => (t.pair.copies.get copyReset cr).lines = r ∧
        (t.pair.unacked.getLast?.map fun f => (f.cls, f.msg)) =
          some (6, .line cr (BitVec.ofNat 46 l) (s.rdBytes (64 * l) 64) (s.poisoned l)) ∧ t.mem = s.mem) ∧
    (∀ cr : CreelId, s.pair.st = 3 → s.pair.copies.has cr = true → s.pair.copies.get copyReset cr = { lines := [], handles := [], sess := [] } →
      Gives (.resyncCopyEnd cr) s fun t => t.pair.copies.has cr = false ∧
        (t.pair.unacked.getLast?.map fun f => (f.cls, f.msg)) = some (6, .copyEnd cr))

/-! # Starts, updates, configuration, reserve, power (18, 19, 22) -/

namespace Sys2Proof.Claims
open Sys2Proof Sys2Proof.Machine

/-- No command of the slot is in the pause of an update already. -/
def unpaused (u : State) (c : Cmd) : Prop := ∀ r ∈ u.stake.started, ¬ (r.cmd.port = c.port ∧ r.cmd.slot = c.slot ∧ r.why = .activating)
/-- No creel is in reset, and no core has a store that is not performed or not acknowledged (05/R172). -/
def StoresDone (u : State) : Prop :=
  (∀ n, n < 64 → (u.creel n).st ≠ .resetting) ∧ (∀ n, (u.core n).sb = [] ∧ (u.core n).wc = [] ∧ (u.core n).strict = []) ∧
    ∀ p ∈ u.resetting, p.2 ≠ 2
/-- The warm reset has put every lane group into start-up, or the reset of a creel holds it (18/R522, 05/R172). -/
def WarmStarted (u t : State) : Prop :=
  ((∀ n, n < 10 → (t.lg n).ctl = 1) ∨ t.stake.warm = true ∧ ∃ p ∈ t.resetting, p.2 = 2) ∧
    (StoresDone u → ∀ n, n < 10 → (t.lg n).ctl = 1)
/-- The slot that ran before runs again, and the other is REJECTED (18/R545). -/
def FellBack (u t : State) : Prop :=
  t.stake.upd.st = 0 ∧ t.stake.upd.running = 1 - u.stake.upd.running ∧ (t.img u.stake.upd.running).status = 0
/-- The field update (18/R537 to R547). -/
def updateCommands (o : MbxOp) : Prop := o ∈ ([
   ⟨.updateStage, 0x0501, fun u c => u.stake.upd.st ≤ 1 ∧ arg c 4 ≤ 0x1FFF000 ∧ u.dmaOk (arg c 2) (arg c 3) (arg c 4) false = true ∧
      u.bundleCheck (u.rdBytes (arg c 3) (arg c 4)) = 0, fun u c t => Answered t c 0 0 [] ∧ t.stake.upd.st = 1 ∧
      t.img (1 - u.stake.upd.running) =
        { bytes := u.rdBytes (arg c 3) (arg c 4), seq := (u.img u.stake.upd.running).seq + 1, status := 0xFF }⟩,
   ⟨.updateStage, 0x0501, fun u c => u.stake.upd.st ≤ 1 ∧ arg c 4 ≤ 0x1FFF000 ∧ u.dmaOk (arg c 2) (arg c 3) (arg c 4) false = true ∧
      u.bundleCheck (u.rdBytes (arg c 3) (arg c 4)) = 2, fun u c t => Answered t c 0x0601 0 [] ∧ t.stake.imgs = u.stake.imgs⟩,
   ⟨.updateStage, 0x0501, fun u _ => 2 ≤ u.stake.upd.st, fun u c t => Answered t c 0x0304 (w64 u.stake.upd.st) [] ∧ t.stake.imgs = u.stake.imgs⟩,
   ⟨.activate, 0x0502, fun u c => unpaused u c ∧ (∀ n, n < 64 → (u.creel n).st ≠ .migrating) ∧ u.pair.st ≠ 3 ∧ u.stake.upd.st = 1 ∧
      u.stake.upd.lowVbat = false ∧ u.quiet = true ∧ u.stake.upd.running ≤ 1,
    fun u c t => (∃ r, Answered t c 0 r []) ∧
      ((t.stake.upd.st = 3 ∧ t.stake.upd.running = 1 - u.stake.upd.running ∧ (t.img (1 - u.stake.upd.running)).status = 0x7F) ∨
       (t.stake.upd.st = 0 ∧ t.stake.upd.running = u.stake.upd.running ∧ (t.img (1 - u.stake.upd.running)).status = 0))⟩,
   ⟨.activate, 0x0502, fun u c => unpaused u c ∧ (∀ n, n < 64 → (u.creel n).st ≠ .migrating) ∧ u.pair.st ≠ 3 ∧ u.stake.upd.st = 1 ∧
      u.stake.upd.lowVbat = false ∧ u.quiet = false, fun u c t => Waits t c .activating ∧ t.stake.upd.st = 2 ∧ t.stake.upd.began = u.clock⟩,
   ⟨.activate, 0x0502, fun u c => unpaused u c ∧ (∀ n, n < 64 → (u.creel n).st ≠ .migrating) ∧ u.pair.st ≠ 3 ∧ u.stake.upd.st = 1 ∧
      u.stake.upd.lowVbat = true, fun _ c t => Answered t c 0x0304 8 []⟩,
   ⟨.updateConfirm, 0x0503, fun u _ => u.stake.upd.st = 3 ∧ u.healthy = true, fun u c t => Answered t c 0 0 [] ∧ t.stake.upd.st = 0 ∧
      (t.img u.stake.upd.running).status = 0x3F ∧ t.stake.floor = max u.stake.floor (bundleNat (u.img u.stake.upd.running).bytes 0x0E 2)⟩,
   ⟨.updateConfirm, 0x0503, fun u _ => u.stake.upd.st = 3 ∧ u.healthy = false, fun _ c t => Answered t c 0x0401 0 [] ∧ t.stake.upd.st = 3⟩,
   ⟨.updateReject, 0x0504, fun u c => unpaused u c ∧ u.stake.upd.st = 3 ∧ u.quiet = true, fun u c t => (∃ r, Answered t c 0 r []) ∧ FellBack u t⟩,
   ⟨.updateReject, 0x0504, fun u c => unpaused u c ∧ u.stake.upd.st = 3 ∧ u.quiet = false, fun _ c t => Waits t c .activating ∧ t.stake.upd.st = 4⟩,
   ⟨.updateStatus, 0x0505, always, fun u c t => ∃ l, l.length = 8 ∧ replied t c (w64 u.stake.upd.st :: w64 u.stake.upd.running :: l)⟩] : List MbxOp)

/-- The configuration (18/R531, R534 to R536, R544, R548) and the warm reset (18/R522). -/
def configCommands (o : MbxOp) : Prop := o ∈ ([
   ⟨fun p k => .configSave p k false, 0x0506, always, fun u c t =>
      let n := max (u.stake.cfgs.get cfgSlotReset 0).seq (u.stake.cfgs.get cfgSlotReset 1).seq + 1
      Answered t c 0 (w64 n) [] ∧ t.stake.cfgLast = 1 - u.stake.cfgLast ∧ (t.stake.cfgs.get cfgSlotReset (1 - u.stake.cfgLast)).seq = n ∧
      (t.stake.cfgs.get cfgSlotReset (1 - u.stake.cfgLast)).body = u.cfgRecord⟩,
   ⟨fun p k => .configSave p k true, 0x0506, always, fun u c t => Answered t c 0x0701 0 [] ∧ t.stake.cfgs.has (1 - u.stake.cfgLast) = false ∧
     t.reserve.flash.get 0 1 = u.reserve.flash.get 0 1 + 1⟩,
   ⟨.configRead, 0x0507, fun u c => u.stake.cfgs.has (arg c 2) = true, fun u c t =>
      let x := u.stake.cfgs.get cfgSlotReset (arg c 2)
      replied t c [0x314643383032414D, w64 x.seq, w64 (x.bodyLen * 2 ^ 32 + x.fmt), if u.cfgValid (arg c 2) then 1 else 0]⟩,
   ⟨.creelBootSet, 0x0508, fun u c => ((u.creel (arg c 2)).st = .unassigned ∨ (u.creel (arg c 2)).st = .stopped) ∧ arg c 5 + arg c 4 ≤ u.installed ∧
      u.inGrant (arg c 2) (arg c 3) (arg c 3 + arg c 4) = true ∧ u.inGrant (arg c 2) (arg c 5) (arg c 5 + arg c 4) = true,
    fun u c t => Answered t c 0 0 [] ∧ t.stake.bootImgs.get [] (arg c 2) = u.rdBytes (arg c 3) (arg c 4) ∧
      t.stake.boots.get bootRecReset (arg c 2) =
        { loadAddr := arg c 5, length := arg c 4, entry := arg c 6, digest := sha384 (u.rdBytes (arg c 3) (arg c 4)),
          autostart := tbit (c.words.getD 5 0) 0, retain := tbit (c.words.getD 5 0) 1 }⟩,
   ⟨.creelBootSet, 0x0508, fun u c => (u.creel (arg c 2)).st = .running, fun u c t => Answered t c 0x0301 2 [] ∧ t.stake.boots = u.stake.boots⟩,
   ⟨.deviceConfig, 0x0509, fun _ c => arg c 2 = 1, fun _ c t => Answered t c 0 0 [] ∧ t.stake.dev.lg.get 0 (arg c 3) = c.words.getD 2 0⟩,
   ⟨.deviceConfig, 0x0509, fun u c => arg c 2 = 2 ∧ c.words.getD 2 0 &&& u.stake.dev.hamask.get 0 (17 - arg c 3) = 0,
     fun _ c t => Answered t c 0 0 [] ∧ t.stake.dev.hamask.get 0 (arg c 3) = c.words.getD 2 0⟩,
   ⟨.deviceConfig, 0x0509, fun u c => arg c 2 = 2 ∧ c.words.getD 2 0 &&& u.stake.dev.hamask.get 0 (17 - arg c 3) ≠ 0,
     fun u c t => Answered t c 0x0204 0 [] ∧ t.stake.dev = u.stake.dev⟩,
   ⟨.deviceConfig, 0x0509, fun _ c => arg c 2 = 3, fun _ c t => Answered t c 0 0 [] ∧ t.stake.dev.line.get 0 (arg c 3) = c.words.getD 2 0⟩,
   ⟨.deviceConfig, 0x0509, fun _ c => arg c 2 = 4, fun _ c t => Answered t c 0 0 [] ∧
     t.stake.dev.addr.get (0, 0) (arg c 3) = (c.words.getD 2 0, c.words.getD 3 0)⟩,
   ⟨.deviceConfig, 0x0509, fun _ c => arg c 2 = 5, fun _ c t => Answered t c 0 0 [] ∧ t.stake.dev.skmUnits = arg c 4⟩,
   ⟨.deviceConfig, 0x0509, fun _ c => arg c 2 = 6, fun _ c t => Answered t c 0 0 [] ∧ t.stake.dev.reserveRank = tbit (c.words.getD 2 0) 0⟩,
   ⟨.updateWindow, 0x050A, always, fun _ c t => Answered t c 0 0 [] ∧ t.stake.upd.window = arg c 2 ∧ t.stake.upd.mode = tbit (c.words.getD 1 0) 0⟩,
   ⟨.warmReset, 0x050B, always, fun u _ t => WarmStarted u t⟩] : List MbxOp)

end Sys2Proof.Claims

open Sys2Proof Sys2Proof.Machine Sys2Proof.Claims

/-- 18/R522, R531, R534 to R548: the Stake's commands for the field update and the configuration, and its warm reset. -/
def Obligations.UpdateAndConfigurationEffects : Prop := ∀ o, updateCommands o ∨ configCommands o → o.Completes

/-- 18/R520 to R530, R542 to R545, 17/R518: what resets and starts leave, the recovery bundle, the release of creels, the end
of an update's window. -/
def Obligations.StartsAndResets : Prop :=
  ∀ (s : State),
    (∀ ns cut, ns < 100 → exec (.sysResetN ns cut) s = .next s) ∧
    (∀ ns cut, 100 ≤ ns → ns < 1000 → Gives (.sysResetN ns cut) s fun t => t = s.spend ∨ t.power = 0) ∧
    (∀ ns cut, 1000 ≤ ns → Gives (.sysResetN ns cut) s fun t => t.power = 0 ∧ t.mem = State.reset.mem ∧ t.cores = [] ∧
      t.vault = State.reset.vault ∧ t.bbkm = s.bbkm ∧ t.log = s.log ∧ t.stake.up = false ∧
      (cut = false ∨ s.stake.accepted = [] → t.stake.imgs = s.stake.imgs ∧ t.stake.cfgs = s.stake.cfgs) ∧
      (∀ c, cut = true → s.power = 2 → s.stake.accepted.head? = some c →
        (c.op = 0x0501 → (t.img (1 - s.stake.upd.running)).bytes = []) ∧ (c.op = 0x0506 → t.stake.cfgs.has (1 - s.stake.cfgLast) = false))) ∧
    (∀ u code, s.power = 2 → Gives (.fatalDeviceError u code) s fun t => t.power = 1 ∧ t.mem = State.reset.mem ∧ t.bbkm = s.bbkm ∧
      t.hoop = s.hoop ∧ t.board.fatalLow = true ∧ ∃ r, t.log = s.log ++ [r] ∧ fld r.w0 31 28 = 5 ∧ fld r.w0 15 0 = code.toNat) ∧
    (∀ i, s.power ≠ 2 → i.bbkmOk = true → i.borderOk = true →
      (s.bootSlot = none → Gives (.coldStart i) s fun t => t.power = 2 ∧ t.stake.rom = s.romStatus ∧ t.stake.up = s.stake.up ∧
        t.seq 86 = { seqReset with run := true } ∧ t.bbkm.startCount = s.bbkm.startCount + 1) ∧
      (∀ n, s.bootSlot = some n → Gives (.coldStart i) s fun t => t.power = 2 ∧ t.stake.up = true ∧ t.stake.rom = 0 ∧
        t.stake.upd.running = n ∧ t.bbkm.startCount = s.bbkm.startCount + 1)) ∧
    (∀ ns, 1000 ≤ ns → s.power = 2 → s.stake.up = true → Gives (.warmResetN ns) s (WarmStarted s)) ∧
    (∀ ns, ns < 1000 → exec (.warmResetN ns) s = .next s) ∧
    (∀ b, s.stake.rom ≠ 0 → s.power = 2 → s.stake.up = false →
      (s.bundleCheck b = 0 → Gives (.recoveryBundle b) s fun t => t.power = 1 ∧ t.stake.rom = 0 ∧ t.img 0 = { bytes := b, seq := 1, status := 0x3F }) ∧
      (s.bundleCheck b ≠ 0 → Gives (.recoveryBundle b) s fun t => t.stake.rom = s.bundleCheck b ∧ t.stake.imgs = s.stake.imgs ∧ t.power = 2)) ∧
    (∀ (cr : CreelId) (r : Fin 4), s.stake.due.has cr = true → s.stake.due.get 0 cr = r.val → (s.creel cr).st = .stopped → s.stake.debug = false → s.bbkm.life < 6 →
      sha384 (s.stake.bootImgs.get [] cr) = (s.stake.boots.get bootRecReset cr).digest →
      Gives (.creelReleaseBoot cr r) s fun t => t.stake.due.has cr = false ∧ (t.creel cr).st = .running) ∧
    (∀ n : CoreId, (s.core n).run = .held → (∃ p ∈ (s.core n).svec, p.2 ≠ 0) →
      Gives (.heldCoreStart n) s fun t => t = s.setCore n { s.core n with run := .running }) ∧
    (s.stake.upd.st = 3 → s.stake.upd.mode = false → s.healthy = true → Gives .healthConfirmation s fun t =>
      t.stake.upd.st = 0 ∧ (t.img s.stake.upd.running).status = 0x3F ∧ t.stake.upd.running = s.stake.upd.running) ∧
    (s.stake.upd.st = 3 → s.stake.upd.failed = true → s.quiet = true → Gives .healthConfirmation s (FellBack s)) ∧
    (s.stake.upd.st = 3 → s.stake.upd.began + 60 * s.stake.upd.window * 2 ^ 32 ≤ s.clock → s.quiet = true → Gives .healthWindowExpiry s (FellBack s)) ∧
    (s.stake.upd.st = 3 → s.quiet = true → Gives .healthCheckFailure s (FellBack s)) ∧
    (s.stake.upd.st = 4 → s.stake.upd.retry = true → s.stake.upd.began + 2 ^ 32 ≤ s.clock → s.quiet = true → Gives .fallBackRetry s (FellBack s))

/-- 19/R549 to R557: samples, retirements and swaps; 20/R567, 21/R568, R569, 22/R590, R594 to R600: the border, the
governor, the pins and the clocks. -/
def Obligations.ReserveAndPower : Prop :=
  ∀ (s : State),
    (∀ (k : Fin 9) (u : BitVec 12) r, s.power = 2 → s.monitored k.val u.toNat = true →
      let key := 4096 * k.val + u.toNat
      let l := (r :: s.reserve.samples.get [] key).take 64
      (l.length < 64 → Gives (.slackSample k u r) s fun t => t.reserve.samples.get [] key = l ∧ t.reserve.margins.get 0 key = median l) ∧
      (k.val = 1 → l.length = 64 → 60 ≤ median l → median l < 75 → s.reserve.baseOk = true → (1, u.toNat) ∉ s.reserve.replacing →
        (s.freeTile (u.toNat / 56)).isSome = true → Gives (.slackSample k u r) s fun t => (1, u.toNat) ∈ t.reserve.replacing)) ∧
    (∀ u : BitVec 12, u.toNat < 3584 → (s.slice (u.toNat / 16)).reserveUsed < 2 → Gives (.retirementTrigger 2 u) s fun t =>
      (t.slice (u.toNat / 16)).reserveUsed = (s.slice (u.toNat / 16)).reserveUsed + 1 ∧
      (t.slice (u.toNat / 16)).wayMap.get (u.toNat % 16) (u.toNat % 16) = 16 + (s.slice (u.toNat / 16)).reserveUsed) ∧
    (∀ u : BitVec 12, s.tileErrors u.toNat = false → exec (.retirementTrigger 1 u) s = .next s) ∧
    (∀ u : BitVec 12, u.toNat < 128 → Gives (.retirementTrigger 5 u) s fun t =>
      t.chan (u.toNat / 8) = (s.chan (u.toNat / 8)).startCopy (u.toNat % 8) ∧ t.mem = s.mem) ∧
    (∀ (n : CoreId) new, s.reserve.replacing.head? = some (1, s.tileOf n) → (∀ c, s.creelOf n = some c → (s.creel c).st ≠ .resetting) →
      s.paused = false → (s.core n).dev = none → s.freeTile (s.tileOf n / 56) = some new → Gives (.coreSwap n) s fun t =>
        t.tileOf n = new ∧ (t.core n).x = (s.core n).x ∧ (t.core n).tlb = [] ∧ (t.core n).sb = [] ∧ s.tileOf n ∈ t.reserve.oldTiles) ∧
    (∀ p : Fin 224, p.val ∈ s.reserve.oldTiles → Gives (.oldTilePowerOff p) s fun t =>
      p.val ∉ t.reserve.oldTiles ∧ t.tile p.val = tileReset) ∧
    (∀ (f : Fin 2) b, Gives (.flashBlockRetirement f b) s fun t => t.reserve.flash.get 0 f.val = s.reserve.flash.get 0 f.val + 1) ∧
    (∀ (k : Fin 7) v, s.power = 2 → Gives (.borderTrip k v false) s fun t => t.bbkm.life = (if s.bbkm.life = 7 then 7 else 6) ∧
      t.bbkm.root = zeros 32 ∧ t.vault.objs = [] ∧ t.seals = [] ∧ t.stake.tampered = true ∧ t.board.fatalLow = true ∧
      t.stake.accepted = [] ∧ ∀ n, s.cores.has n = true → (t.core n).run = .stopped) ∧
    (s.board.governor = true → Gives (.pwrbrakeN false) s fun t => t.board.brake = true ∧ ∀ d, d < 4 → t.setpoint d = 665) ∧
    (s.board.brake = true → Gives (.pwrbrakeN true) s fun t => t.board.brake = false ∧ t.board.brakeUp = s.clock ∧ t.board.setp = s.board.setp) ∧
    (∀ pw cu tj, s.board.governor = true → s.power = 2 →
      (s.braked = true → Gives (.governorTick pw cu tj) s fun t => ∀ d, d < 4 → t.setpoint d = 665) ∧
      (s.braked = false → (∀ d, d < 4 → s.setpoint d ≤ 930) → Gives (.governorTick pw cu tj) s fun t =>
        ∀ d, d < 4 → 665 ≤ t.setpoint d ∧ t.setpoint d ≤ 930)) ∧
    (∀ die, Gives (.thermtrip die) s fun t => t = { s with board := { s.board with thermtrip := true } }) ∧
    (s.power = 2 →
      (∀ n, Gives (.referenceClockLoss (.lg n)) s fun t => (t.lg n.val).linkUp = 0) ∧
      (s.linkUp = true → Gives (.referenceClockLoss .pair) s fun t => t.pair.up = 0) ∧
      (Gives (.referenceClockLoss .linePorts) s fun t => ∀ p, p < 8 → (t.lport p).up = false) ∧
      (Gives (.referenceClockLoss .memory) s fun t => ∀ ch, ch < 16 → (s.chan ch).ranks ≠ 0 → (t.chan ch).st = .degraded) ∧
      (Gives (.referenceClockLoss .hoopXo) s fun t => t.power = 1 ∧ t.hoop.st = 0)) ∧
    (∀ rail mv, s.power = 2 → 580 ≤ mv → mv < 650 → Gives (.railExcursion rail mv) s fun t => ∃ r, t = { s with log := s.log ++ [r] }) ∧
    (s.power = 2 → s.lastHubLog + 60 ≤ s.hoop.sec → Gives .hubPortCountLog s fun t =>
      t.log.length = s.log.length + 32 ∧ t.lastHubLog = s.hoop.sec ∧ t.hubTraffic = s.hubTraffic)

/-! # The Hamper (11, 12) -/

namespace Sys2Proof.Claims
open Sys2Proof Sys2Proof.Machine

/-- The command's work has ended with this status and result (12/R348, R349). -/
def Ended (t : State) (id st : Nat) (r : W64) : Prop :=
  ∃ h ∈ t.vault.active, h.id = id ∧ ∃ d, h.out = some d ∧ d.status = st ∧ d.result = r
/-- The output of a ring's command stands in memory, where its range is memory and no rank of the device is fenced. -/
def Wrote (s : State) (c : HCmd) (t : State) (b : Bytes) : Prop :=
  c.isRing = true → c.outAddr + b.length ≤ 0x100000000000 → (∀ ch, (s.chan ch).fenced = 0) →
    ∀ i, i < b.length → t.mem.read (c.outAddr + i) = b.getD i 0
/-- The handle that a key field names: itself, or that of the session's slot (12/R350). -/
def named (s : State) (c : HCmd) (i : Nat) : W64 :=
  if c.sess = true then (s.session (fld (c.w 1) 43 32)).slots.get 0 (fld (c.w i) 3 0) else c.w i
/-- A key is in its validity, and has the uses left that the command counts (11/R321, R322). -/
def Usable (s : State) (uses : Nat) (k : KeyObj) : Prop :=
  ((k.notBefore = 0 ∧ k.notAfter = BitVec.allOnes 64) ∨ s.hoop.st ≠ 0) ∧ k.notBefore.toNat ≤ s.hoop.sec ∧ s.hoop.sec ≤ k.notAfter.toNat ∧
    (k.useLimit = 0 ∨ k.useCount.toNat + uses ≤ k.useLimit.toNat)
/-- A buffer in physical memory that the creel's grants allow, without poison where it is read; an unused one is empty. -/
def BufOk (s : State) (c : HCmd) (used : Bool) (a n : Nat) (write : Bool) : Prop :=
  n = 0 ∨ (used = true ∧ a < 0x8000000000000000 ∧ s.dmaOk c.creel a n write = true ∧ (write = false → s.poisonedRange a n = false))
/-- A command of the Hamper: its opcode, the operands it uses, its parameter words, whether it counts a use of its keys, may work in
place; when it has its effect, and the effect. -/
structure HRow where
  instr : Nat → Instr
  op : Nat
  inp : Bool
  out : Bool
  aux : Bool
  k1 : Bool
  k2 : Bool
  params : List Nat
  counted : Bool
  inPlace : Bool
  ok : State → HCmd → List KeyObj → Prop
  effect : State → Nat → HCmd → List KeyObj → State → Prop
def HRow.keys (o : HRow) (s : State) (c : HCmd) : List W64 := (if o.k1 then [named s c 2] else []) ++ (if o.k2 then [named s c 3] else [])
/-- What R345, R347 and R351 ask of every command, of a ring or of a job, alone or in a session, without sealed operands: it may run,
its creel runs or moves, the vault is sound, its fields are in form, its buffers are its creel's and do not overlap, its keys are usable. -/
def HRow.Ready (o : HRow) (s : State) (id : Nat) (c : HCmd) (ks : List KeyObj) : Prop :=
  let n := fld (c.w 1) 43 32
  s.hReady id o.op = some c ∧ s.vault.broken = false ∧ s.vault.entropy = 0 ∧
  ((s.creel c.creel).st = .running ∨ (s.creel c.creel).st = .migrating) ∧ c.creel < 64 ∧
  fld (c.w 0) 37 35 = 0 ∧ fld (c.w 0) 47 38 = 0 ∧ fld (c.w 1) 31 24 = 1 ∧ fld (c.w 1) 23 0 = 0 ∧ fld (c.w 8) 31 0 = 0 ∧
  ((c.sess = false ∧ fld (c.w 1) 63 32 = 0) ∨
   (c.sess = true ∧ s.vault.sess.has n = true ∧ (s.session n).gen % 2 ^ 20 = fld (c.w 1) 63 44 ∧ (s.session n).creel = c.creel ∧ (s.session n).closed = 0 ∧
    ((s.session n).expiry = BitVec.allOnes 64 ∨ s.hoop.sec ≤ (s.session n).expiry.toNat) ∧ (s.session n).families.testBit (o.op / 256 - 1) = true ∧
    (o.k1 = true → (c.w 2).toNat < 16) ∧ (o.k2 = true → (c.w 3).toNat < 16))) ∧
  (o.k1 = false → c.w 2 = 0) ∧ (o.k2 = false → c.w 3 = 0) ∧ (o.inp = false → c.w 4 = 0) ∧ (o.out = false → c.w 6 = 0) ∧ (o.aux = false → c.w 7 = 0) ∧
  (∀ i, 9 ≤ i → i ≤ 15 → i ∉ o.params → c.w i = 0) ∧
  BufOk s c o.inp c.inAddr c.inLen false ∧ BufOk s c o.out c.outAddr c.outCap true ∧ BufOk s c o.aux c.auxAddr c.auxLen false ∧
  (overlapR c.inAddr c.inLen c.outAddr c.outCap = false ∨ (o.inPlace = true ∧ c.inAddr = c.outAddr ∧ c.inLen ≤ c.outCap)) ∧
  overlapR c.inAddr c.inLen c.auxAddr c.auxLen = false ∧ overlapR c.outAddr c.outCap c.auxAddr c.auxLen = false ∧
  (o.keys s c).map (s.objOf c.creel) = ks.map some ∧
  (∀ k ∈ ks, k.bad = false ∧ s.poisonedRange (s.skmBase + 4096 * handleIx k.handle) (64 + k.secret.length + k.pub.length) = false ∧
    (o.counted = true → Usable s ((o.keys s c).count k.handle) k))
def HRow.Completes (o : HRow) : Prop :=
  ∀ (s : State) (id : Nat) (c : HCmd) (ks : List KeyObj), o.Ready s id c ks → o.ok s c ks → ∃ t, exec (o.instr id) s = .next t ∧ o.effect s id c ks t
def Returns (s : State) (id : Nat) (c : HCmd) (t : State) (st : Nat) (r : W64) (b : Bytes) : Prop := Ended t id st r ∧ Wrote s c t b
def lenOf (b : Bytes) : W64 := w64 b.length
def k1 (ks : List KeyObj) : KeyObj := ks.getD 0 keyReset
def k2 (ks : List KeyObj) : KeyObj := ks.getD 1 keyReset
def inOf (s : State) (c : HCmd) : Bytes := s.rdBytes c.inAddr c.inLen
def auxOf (s : State) (c : HCmd) : Bytes := s.rdBytes c.auxAddr c.auxLen
def MiB : Nat := 2 ^ 20
/-- The command gives this result and output; where the output does not fit, 0x0202 and its length. -/
def Fits (s : State) (id : Nat) (c : HCmd) (t : State) (r : W64) (b : Bytes) : Prop :=
  if b.length ≤ c.outCap then Returns s id c t 0 r b else Ended t id 0x0202 (lenOf b)
/-- An effect that gives one output and its length. -/
def gives (f : State → HCmd → List KeyObj → Bytes) (s : State) (id : Nat) (c : HCmd) (ks : List KeyObj) (t : State) : Prop :=
  Fits s id c t (lenOf (f s c ks)) (f s c ks)

/-! ## Keys and sessions -/

/-- A template of attributes that R314 to R316 allow. -/
def tmplOk (c : HCmd) : Prop :=
  fld (c.w 9) 42 42 = 0 ∧ fld (c.w 9) 41 32 = 0 ∧ fld (c.w 9) 31 0 = 0 ∧ attrOk (c.w 9) = true ∧ (c.w 12 = 0 ∨ attrExport (c.w 9) = 0)
/-- The vault has room for one more object of the creel (11/R317). -/
def Room (s : State) (c : HCmd) : Prop :=
  s.vault.cap ≤ 2 ^ 22 ∧ (s.objCount c.creel + 1 < s.quota c.creel 6 ∨
    (s.objCount c.creel < s.quota c.creel 6 ∧ (mapKeys s.vault.objs).Pairwise (· < ·))) ∧
  ∃ i, i < s.vault.cap ∧ s.vault.objs.has i = false ∧ s.vault.recGen.get 0 i < 0xFFFFFF
/-- A new object of the creel stands under the handle that the command returns. -/
def Makes (w0 nb na lim : W64) (sec pub : Bytes) (s : State) (id : Nat) (c : HCmd) (t : State) : Prop :=
  ∃ h k, Ended t id 0 h ∧ s.objOf c.creel h = none ∧ t.objOf c.creel h = some k ∧ k.secret = sec ∧ k.pub = pub ∧ k.useCount = 0 ∧
    k.notBefore = nb ∧ k.notAfter = na ∧ k.useLimit = lim ∧ attrAlg k.w0 = attrAlg w0 ∧ attrUsage k.w0 = attrUsage w0 ∧ attrExport k.w0 = attrExport w0
def makesTmpl (sec pub : Bytes) (s : State) (id : Nat) (c : HCmd) (t : State) : Prop := Makes (c.w 9) (c.w 10) (c.w 11) (c.w 12) sec pub s id c t
/-- A key block opens to material whose attributes are allowed. -/
def Opens (key : Bytes) (b : Bytes) (x : BlockOut) (l : List W64) (cr g : Nat) : Prop :=
  openBlock key b = some x ∧ x.attrs = some (l, cr, g) ∧ attrOk (l.getD 0 0) = true ∧ keyLenOk (attrAlg (l.getD 0 0)) x.secret.length = true ∧
    (l.getD 3 0 = 0 ∨ attrExport (l.getD 0 0) = 0)
def asKek (k : KeyObj) : Prop := k.alg = 3 ∧ attrKek k.w0 = true ∧ k.may 50 = true
def keyRows (o : HRow) : Prop := o ∈ ([
   ⟨fun id => .keyGen id false, 0x0101, false, true, false, false, false, [9, 10, 11, 12], true, false,
    fun _ c _ => tmplOk c ∧ isAsym (attrAlg (c.w 9)) = true ∧ (c.outCap = 0 ∨ pubLen (attrAlg (c.w 9)) ≤ c.outCap),
    fun s id _ _ t => Ended t id 0x0701 0 ∧ t.vault.objs = s.vault.objs⟩,
   ⟨fun id => .keyGen id true, 0x0101, false, true, false, false, false, [9, 10, 11, 12], true, false,
    fun s c _ => tmplOk c ∧ Room s c ∧ (c.outCap = 0 ∨ isAsym (attrAlg (c.w 9)) = false ∨ pubLen (attrAlg (c.w 9)) ≤ c.outCap),
    fun s id c _ t => ∃ sec, makesTmpl sec (publicOf (attrAlg (c.w 9)) sec) s id c t ∧ (c.outCap ≠ 0 → Wrote s c t (publicOf (attrAlg (c.w 9)) sec))⟩,
   ⟨.keyImport, 0x0102, true, false, false, true, false, [9, 10, 11, 12, 13], true, false,
    fun s c ks => c.w 13 = 0 ∧ (∀ i ∈ [9, 10, 11, 12], c.w i = 0) ∧ 1 ≤ c.inLen ∧ c.inLen ≤ 8192 ∧ asKek (k1 ks) ∧ Room s c ∧
      ∃ x l cr g, Opens (k1 ks).secret (inOf s c) x l cr g,
    fun s id c ks t => ∀ x l cr g, Opens (k1 ks).secret (inOf s c) x l cr g →
      Makes (l.getD 0 0) (l.getD 1 0) (l.getD 2 0) (l.getD 3 0) x.secret (publicOf (attrAlg (l.getD 0 0)) x.secret) s id c t⟩,
   ⟨.keyImport, 0x0102, true, false, false, true, false, [9, 10, 11, 12, 13], true, false,
    fun s c ks => c.w 13 = 0 ∧ (∀ i ∈ [9, 10, 11, 12], c.w i = 0) ∧ 1 ≤ c.inLen ∧ c.inLen ≤ 8192 ∧ asKek (k1 ks) ∧ openBlock (k1 ks).secret (inOf s c) = none,
    fun _ id _ _ t => Ended t id 0x0601 0⟩,
   ⟨.keyImport, 0x0102, true, false, false, true, false, [9, 10, 11, 12, 13], true, false,
    fun s c ks => c.w 13 = 1 ∧ tmplOk c ∧ attrExport (c.w 9) ≤ 1 ∧ 1 ≤ c.inLen ∧ c.inLen ≤ 8192 ∧ ((k1 ks).alg = 0x21 ∨ (k1 ks).alg = 0x22) ∧
      (k1 ks).may 50 = true ∧ (k1 ks).secret ≠ [] ∧ c.inLen = (k1 ks).secret.length ∧ Room s c ∧
      ∃ m, oaepDecode (rsaPriv (k1 ks).secret (inOf s c)) = some m ∧ keyLenOk (attrAlg (c.w 9)) m.length = true,
    fun s id c ks t => ∀ m, oaepDecode (rsaPriv (k1 ks).secret (inOf s c)) = some m → makesTmpl m (publicOf (attrAlg (c.w 9)) m) s id c t⟩,
   ⟨.keyExport, 0x0103, false, true, false, true, true, [], true, false,
    fun _ c ks => attrExport (k1 ks).w0 = 2 ∧ (k1 ks).secret ≠ [] ∧ asKek (k2 ks) ∧ attrDual (k1 ks).w0 = false ∧ blockLen (k1 ks) ≤ c.outCap,
    fun s id c ks t => ∃ f : Bytes, f.length = 16 ∧ gives (fun s c ks => keyBlock (k2 ks).secret (k1 ks) (s.bbkm.gens.get 0 c.creel) f) s id c ks t⟩,
   ⟨.keyExport, 0x0103, false, true, false, true, true, [], true, false,
    fun _ c ks => attrExport (k1 ks).w0 ≠ 2 ∧ blockLen (k1 ks) ≤ c.outCap, fun s id _ _ t => Ended t id 0x0102 0 ∧ t.mem = s.mem⟩,
   ⟨.keyStore, 0x0104, false, true, false, true, false, [], false, false,
    fun _ c ks => attrExport (k1 ks).w0 ≠ 0 ∧ (k1 ks).secret ≠ [] ∧ attrDual (k1 ks).w0 = false ∧ blockLen (k1 ks) ≤ c.outCap,
    fun s id c ks t => ∃ f : Bytes, f.length = 16 ∧ gives (fun s c ks => keyBlock (s.storageKey c.creel) (k1 ks) (s.bbkm.gens.get 0 c.creel) f) s id c ks t⟩,
   ⟨.keyLoad, 0x0105, true, false, false, false, false, [], true, false,
    fun s c _ => 1 ≤ c.inLen ∧ c.inLen ≤ 8192 ∧ Room s c ∧ ∃ x l, Opens (s.storageKey c.creel) (inOf s c) x l c.creel (s.bbkm.gens.get 0 c.creel),
    fun s id c _ t => ∀ x l, Opens (s.storageKey c.creel) (inOf s c) x l c.creel (s.bbkm.gens.get 0 c.creel) →
      Makes (l.getD 0 0) (l.getD 1 0) (l.getD 2 0) (l.getD 3 0) x.secret (publicOf (attrAlg (l.getD 0 0)) x.secret) s id c t⟩,
   ⟨.keyInfo, 0x0106, false, true, false, true, false, [], false, false, fun _ c _ => 64 ≤ c.outCap,
    fun s id c ks t => let k := k1 ks
      Returns s id c t 0 64 (([k.w0.toNat, k.notBefore.toNat, k.notAfter.toNat, k.useLimit.toNat, k.useCount.toNat, k.kcv * 2 ^ 40, k.version.toNat,
        k.handle.toNat].flatMap fun w => toLe 8 w))⟩,
   ⟨.keyModify, 0x0107, false, false, false, true, false, [9, 10, 11, 12], false, false,
    fun _ c ks => fld (c.w 9) 41 38 = 0 ∧ fld (c.w 9) 31 0 = 0 ∧ attrOk (c.w 9) = true ∧ attrDual (k1 ks).w0 = false ∧
      narrows (k1 ks) (c.w 9) (c.w 10) (c.w 11) (c.w 12) = true ∧ (c.w 12 = 0 ∨ attrExport (c.w 9) = 0),
    fun s id c ks t => Ended t id 0 ((k1 ks).version + 1) ∧ t.objOf c.creel (named s c 2) =
      some { k1 ks with w0 := c.w 9, notBefore := c.w 10, notAfter := c.w 11, useLimit := c.w 12, version := (k1 ks).version + 1 }⟩,
   ⟨.keyModify, 0x0107, false, false, false, true, false, [9, 10, 11, 12], false, false,
    fun _ c ks => fld (c.w 9) 41 38 = 0 ∧ fld (c.w 9) 31 0 = 0 ∧ attrOk (c.w 9) = true ∧ attrDual (k1 ks).w0 = false ∧
      narrows (k1 ks) (c.w 9) (c.w 10) (c.w 11) (c.w 12) = false,
    fun s id c ks t => Ended t id 0x0107 0 ∧ t.objOf c.creel (named s c 2) = some (k1 ks)⟩,
   ⟨.keyDestroy, 0x0108, false, false, false, true, false, [], false, false, fun _ _ ks => attrDual (k1 ks).w0 = false,
    fun s id c _ t => Ended t id 0 0 ∧ t.objOf c.creel (named s c 2) = none⟩,
   ⟨.keyDestroy, 0x0108, false, false, false, true, false, [], false, false, fun s c ks => attrDual (k1 ks).w0 = true ∧
      ∀ a ∈ s.stake.approvals, ¬ (a.creel = c.creel ∧ a.name = named s c 2 ∧ a.op = 0x0108),
    fun s id c ks t => Ended t id 0x0106 0 ∧ t.objOf c.creel (named s c 2) = some (k1 ks)⟩,
   ⟨.keyPublic, 0x0109, false, true, false, true, false, [], false, false, fun _ c ks => isAsym (k1 ks).alg = true ∧ (k1 ks).pub.length ≤ c.outCap,
    gives fun _ _ ks => (k1 ks).pub⟩,
   ⟨.keyImportPublic, 0x010A, true, false, false, false, false, [9, 10, 11, 12], true, false,
    fun s c _ => tmplOk c ∧ isAsym (attrAlg (c.w 9)) = true ∧ (attrUsage (c.w 9) = 0x80 ∨ (attrUsage (c.w 9) = 4 ∧ isRsa (attrAlg (c.w 9)) = false)) ∧
      c.inLen = pubLen (attrAlg (c.w 9)) ∧ Room s c,
    fun s id c _ t => makesTmpl [] (inOf s c) s id c t⟩,
   ⟨.keyCombine, 0x010B, false, false, false, false, false, [9, 10, 11, 12, 13], true, false,
    fun s c _ => let a := attrAlg (c.w 9)
      let set := s.stake.comps.filter fun x => x.creel = c.creel ∧ x.set = fld (c.w 13) 15 0
      (c.w 13).toNat < 65536 ∧ tmplOk c ∧ (isAes a = true ∨ a = 8) ∧ Room s c ∧ (∃ e, s.officer = some e) ∧
      (∃ p ∈ s.stake.approvals, p.creel = c.creel ∧ p.name = c.w 13 ∧ p.op = 0x010B ∧ p.by0 = true ∧ p.by1 = true ∧ s.clock < p.since + 600 * 2 ^ 32) ∧
      2 ≤ set.length ∧ (set.map (·.card)).Nodup ∧
      ∀ x ∈ set, x.key.length = (match a with | 1 => 16 | 2 => 24 | 3 => 32 | _ => 16) ∧ kcvOf a x.key = x.kcv,
    fun s id c _ t => let set := s.stake.comps.filter fun x => x.creel = c.creel ∧ x.set = fld (c.w 13) 15 0
      makesTmpl ((set.map (·.key)).tail.foldl xorBytes ((set.map (·.key)).headD [])) [] s id c t ∧
      ∀ x ∈ t.stake.comps, ¬ (x.creel = c.creel ∧ x.set = fld (c.w 13) 15 0)⟩] : List HRow)
def sessionRows (o : HRow) : Prop := o ∈ ([
   ⟨.sessionOpen, 0x0201, true, false, false, false, false, [9, 10, 11], true, false,
    fun s c _ => (c.w 9).toNat < 512 ∧ c.inLen % 8 = 0 ∧ c.inLen ≤ 128 ∧ (∀ h ∈ handleList (inOf s c), h = 0 ∨ (s.objOf c.creel h).isSome = true) ∧
      s.sessCount c.creel < s.quota c.creel 5 ∧ ∃ n, n < 4096 ∧ (s.session n).closed ≠ 0,
    fun s id c _ t => ∃ n, n < 4096 ∧ (s.session n).closed ≠ 0 ∧ (t.session n).closed = 0 ∧ (t.session n).creel = c.creel ∧
      (t.session n).gen = (s.session n).gen + 1 ∧ (t.session n).families = fld (c.w 9) 8 0 ∧ (t.session n).expiry = c.w 10 ∧
      (t.session n).maxCmd = fld (c.w 11) 63 32 ∧ (t.session n).maxFail = fld (c.w 11) 31 0 ∧ Ended t id 0 (w64 (sessHandle n (t.session n).gen))⟩,
   ⟨.sessionOpen, 0x0201, true, false, false, false, false, [9, 10, 11], true, false,
    fun s c _ => (c.w 9).toNat < 512 ∧ c.inLen = 0 ∧ s.quota c.creel 5 ≤ s.sessCount c.creel, fun _ id _ _ t => Ended t id 0x0502 0⟩,
   ⟨.sessionBind, 0x0202, false, false, false, false, false, [9, 10], true, false,
    fun s c _ => c.sess = true ∧ (c.w 9).toNat < 16 ∧ (c.w 10 = 0 ∨ (s.objOf c.creel (c.w 10)).isSome = true),
    fun _ id c _ t => Ended t id 0 0 ∧ (t.session (fld (c.w 1) 43 32)).slots.get 0 (c.w 9).toNat = c.w 10⟩,
   ⟨.sessionClose, 0x0203, false, false, false, false, false, [], true, false, fun _ c _ => c.sess = true,
    fun _ id c _ t => Ended t id 0 0 ∧ (t.session (fld (c.w 1) 43 32)).closed = 1⟩,
   ⟨.sessionInfo, 0x0204, false, true, false, false, false, [], true, false, fun _ c _ => c.sess = true ∧ 192 ≤ c.outCap,
    fun s id c _ t => Returns s id c t 0 192 (sessionBlock (fld (c.w 1) 43 32) (s.session (fld (c.w 1) 43 32)))⟩] : List HRow)

/-! ## Ciphers, hashes, random bits -/

/-- The key that works, of this algorithm: key1 itself with the usage bit, or a working key that DUKPT derives from it (12/R361). -/
def Works (c : HCmd) (k : KeyObj) (u : KeyUse) (bit alg : Nat) (key : Bytes) : Prop :=
  (c.w 13 = 0 ∧ c.w 14 = 0 ∧ c.w 15 = 0 ∧ alg = k.alg ∧ key = k.secret ∧ k.may bit = true) ∨
  (fld (c.w 13) 63 60 = 1 ∧ fld (c.w 13) 55 0 = 0 ∧ fld (c.w 15) 63 32 = 0 ∧ alg = fld (c.w 13) 59 56 ∧ (isAes alg = true ∨ alg = 8) ∧
    k.may 53 = true ∧ isAes k.alg = true ∧ (alg = 8 ∨ alg ≤ k.alg) ∧ aesDukpt k.secret k.alg alg (c.bytes 14 12) u = some key) ∨
  (fld (c.w 13) 63 60 = 2 ∧ fld (c.w 13) 59 0 = 0 ∧ fld (c.w 15) 63 16 = 0 ∧ alg = 8 ∧ k.may 53 = true ∧ k.alg = 8 ∧
    tdeaDukpt k.secret (c.bytes 14 10) u = some key)
def blockOf (alg : Nat) : Nat := if alg = 8 then 8 else 16
/-- A block mode over the input, of whole blocks up to 16 MiB, into an output that holds it. -/
def Blocks (c : HCmd) (alg : Nat) : Prop := c.inLen % blockOf alg = 0 ∧ 0 < c.inLen ∧ c.inLen ≤ 16 * MiB ∧ c.inLen ≤ c.outCap
def encrypts (k : KeyObj) : Prop := isAes k.alg = true ∧ k.may 48 = true
def Deciphers (c : HCmd) (k : KeyObj) (alg : Nat) (key : Bytes) : Prop := Works c k .data 49 alg key ∧ (isAes alg = true ∨ alg = 8)
def noDukpt (c : HCmd) : Prop := c.w 13 = 0 ∧ c.w 14 = 0 ∧ c.w 15 = 0
def tagOf (c : HCmd) : Nat := fld (c.w 9) 12 8
def symRows (o : HRow) : Prop := o ∈ ([
   ⟨.symEcb, 0x0301, true, true, false, true, false, [9, 13, 14, 15], true, true,
    fun _ c ks => c.w 9 = 0 ∧ noDukpt c ∧ encrypts (k1 ks) ∧ Blocks c 1, gives fun s c ks => ecb (aesCipher (k1 ks).secret).enc 16 (inOf s c)⟩,
   ⟨.symEcb, 0x0301, true, true, false, true, false, [9, 13, 14, 15], true, true,
    fun _ c ks => c.w 9 = 1 ∧ ∃ alg key, Deciphers c (k1 ks) alg key ∧ Blocks c alg,
    fun s id c ks t => ∀ alg key, Deciphers c (k1 ks) alg key → gives (fun s c _ => ecb (cipherOf alg key).dec (blockOf alg) (inOf s c)) s id c ks t⟩,
   ⟨.symEcb, 0x0301, true, true, false, true, false, [9, 13, 14, 15], true, true,
    fun _ c ks => c.w 9 = 0 ∧ noDukpt c ∧ ¬ encrypts (k1 ks) ∧ Blocks c 1, fun s id _ _ t => Ended t id 0x0102 0 ∧ t.mem = s.mem⟩,
   ⟨.symCbc, 0x0302, true, true, false, true, false, [9, 10, 11, 13, 14, 15], true, true,
    fun _ c ks => c.w 9 = 0 ∧ noDukpt c ∧ encrypts (k1 ks) ∧ Blocks c 1,
    fun s id c ks t => let b := cbcEnc (aesCipher (k1 ks).secret) (c.bytes 10 16) (inOf s c)
      Fits s id c t (w64 (leNat ((b.drop (b.length - 16)).take 8))) b⟩,
   ⟨.symCbc, 0x0302, true, true, false, true, false, [9, 10, 11, 13, 14, 15], true, true,
    fun _ c ks => c.w 9 = 1 ∧ ∃ alg key, Deciphers c (k1 ks) alg key ∧ Blocks c alg ∧ (alg = 8 → c.w 11 = 0),
    fun s id c ks t => ∀ alg key, Deciphers c (k1 ks) alg key →
      let b := cbcDec (cipherOf alg key) (c.bytes 10 (blockOf alg)) (inOf s c)
      Fits s id c t (w64 (leNat (((inOf s c).drop (c.inLen - blockOf alg)).take 8))) b⟩,
   ⟨.symCtr, 0x0303, true, true, false, true, false, [9, 10, 11], true, true,
    fun _ c ks => (c.w 9 = 0 ∨ c.w 9 = 1) ∧ 0 < c.inLen ∧ c.inLen ≤ 16 * MiB ∧ c.inLen ≤ c.outCap ∧ isAes (k1 ks).alg = true ∧
      (k1 ks).may (if c.w 9 = 1 then 49 else 48) = true,
    gives fun s c ks => ctrMode (aesCipher (k1 ks).secret) (c.bytes 10 16) (inOf s c)⟩,
   ⟨.symGcm, 0x0304, true, true, true, true, false, [9, 10, 11], true, true,
    fun _ c ks => c.w 9 = w64 (256 * tagOf c) ∧ fld (c.w 11) 63 32 = 0 ∧ 12 ≤ tagOf c ∧ tagOf c ≤ 16 ∧ c.auxLen ≤ 65536 ∧ c.inLen ≤ 16 * MiB ∧
      c.inLen + tagOf c ≤ c.outCap ∧ encrypts (k1 ks),
    gives fun s c ks => let x := aesCipher (k1 ks).secret
      gcmCrypt x (c.bytes 10 12) (inOf s c) ++ gcmTag x (c.bytes 10 12) (auxOf s c) (gcmCrypt x (c.bytes 10 12) (inOf s c)) (tagOf c)⟩,
   ⟨.symGcm, 0x0304, true, true, true, true, false, [9, 10, 11], true, true,
    fun _ c ks => c.w 9 = w64 (256 * tagOf c + 2) ∧ c.w 10 = 0 ∧ c.w 11 = 0 ∧ 12 ≤ tagOf c ∧ tagOf c ≤ 16 ∧ c.auxLen ≤ 65536 ∧ c.inLen ≤ 16 * MiB ∧
      (c.inAddr ≠ c.outAddr ∨ c.inLen = 0) ∧ c.inLen + tagOf c + 12 ≤ c.outCap ∧ encrypts (k1 ks),
    fun s id c ks t => ∃ iv : Bytes, iv.length = 12 ∧ gives (fun s c ks => let x := aesCipher (k1 ks).secret
      iv ++ gcmCrypt x iv (inOf s c) ++ gcmTag x iv (auxOf s c) (gcmCrypt x iv (inOf s c)) (tagOf c)) s id c ks t⟩,
   ⟨.symGcm, 0x0304, true, true, true, true, false, [9, 10, 11], true, true,
    fun _ c ks => c.w 9 = w64 (256 * tagOf c + 1) ∧ fld (c.w 11) 63 32 = 0 ∧ 12 ≤ tagOf c ∧ tagOf c ≤ 16 ∧ c.auxLen ≤ 65536 ∧ tagOf c ≤ c.inLen ∧
      c.inLen ≤ 16 * MiB + 16 ∧ c.inLen - tagOf c ≤ c.outCap ∧ isAes (k1 ks).alg = true ∧ (k1 ks).may 49 = true,
    fun s id c ks t => let x := aesCipher (k1 ks).secret
      let ct := (inOf s c).take (c.inLen - tagOf c)
      let p := gcmCrypt x (c.bytes 10 12) ct
      (gcmTag x (c.bytes 10 12) (auxOf s c) ct (tagOf c) = (inOf s c).drop (c.inLen - tagOf c) →
        Fits s id c t (w64 (c.inLen - tagOf c)) p) ∧
      (gcmTag x (c.bytes 10 12) (auxOf s c) ct (tagOf c) ≠ (inOf s c).drop (c.inLen - tagOf c) → Returns s id c t 1 0 (zeros c.outCap))⟩,
   ⟨.symXts, 0x0305, true, true, false, true, true, [9, 10, 11], true, true,
    fun _ c ks => (c.w 9 = 0 ∨ c.w 9 = 1) ∧ 16 ≤ c.inLen ∧ c.inLen ≤ 16 * MiB ∧ c.inLen ≤ c.outCap ∧
      (∀ k ∈ ks, k.alg = 3 ∧ k.may (if c.w 9 = 1 then 49 else 48) = true) ∧ (k1 ks).secret ≠ (k2 ks).secret,
    gives fun s c ks => xts (aesCipher (k1 ks).secret) (aesCipher (k2 ks).secret) (c.w 9 == 0) (c.bytes 10 16) (inOf s c)⟩,
   ⟨.symCmac, 0x0306, true, true, true, true, false, [9, 13, 14, 15], true, false,
    fun _ c ks => c.w 9 = w64 (256 * tagOf c) ∧ noDukpt c ∧ 4 ≤ tagOf c ∧ tagOf c ≤ 16 ∧ c.inLen ≤ 16 * MiB ∧ c.auxLen = 0 ∧ tagOf c ≤ c.outCap ∧
      isAes (k1 ks).alg = true ∧ (k1 ks).may 51 = true,
    gives fun s c ks => (cmac (aesCipher (k1 ks).secret) (inOf s c)).take (tagOf c)⟩,
   ⟨.symCmac, 0x0306, true, true, true, true, false, [9, 13, 14, 15], true, false,
    fun _ c ks => c.w 9 = w64 (256 * tagOf c + 1) ∧ 4 ≤ tagOf c ∧ tagOf c ≤ 16 ∧ c.inLen ≤ 16 * MiB ∧ c.auxLen = tagOf c ∧
      ∃ alg key, Works c (k1 ks) .mac 51 alg key ∧ (isAes alg = true ∨ (alg = 8 ∧ tagOf c ≤ 8)),
    fun s id c ks t => ∀ alg key, Works c (k1 ks) .mac 51 alg key →
      Ended t id (if (cmac (cipherOf alg key) (inOf s c)).take (tagOf c) = auxOf s c then 0 else 1) 0⟩,
   ⟨.hash, 0x0601, true, true, false, false, false, [9], true, false,
    fun _ c _ => 1 ≤ (c.w 9).toNat ∧ (c.w 9).toNat ≤ 6 ∧ c.inLen ≤ 64 * MiB ∧ (hashLen (c.w 9).toNat).getD 0 ≤ c.outCap,
    gives fun s c _ => hashOf (c.w 9).toNat (inOf s c)⟩,
   ⟨.hmac, 0x0602, true, true, true, true, false, [9], true, false,
    fun _ c ks => let h := fld (c.w 9) 3 0; let n := fld (c.w 9) 16 10
      c.w 9 = w64 (h + 1024 * n) ∧ 1 ≤ h ∧ h ≤ 6 ∧ 16 ≤ n ∧ n ≤ (hashLen h).getD 0 ∧ c.inLen ≤ 64 * MiB ∧ c.auxLen = 0 ∧ n ≤ c.outCap ∧
        (k1 ks).alg = 0x10 ∧ (k1 ks).may 51 = true,
    gives fun s c ks => (hmac (fld (c.w 9) 3 0) (k1 ks).secret (inOf s c)).take (fld (c.w 9) 16 10)⟩,
   ⟨.hmac, 0x0602, true, true, true, true, false, [9], true, false,
    fun _ c ks => let h := fld (c.w 9) 3 0; let n := fld (c.w 9) 16 10
      c.w 9 = w64 (h + 256 + 1024 * n) ∧ 1 ≤ h ∧ h ≤ 6 ∧ 16 ≤ n ∧ n ≤ (hashLen h).getD 0 ∧ c.inLen ≤ 64 * MiB ∧ c.auxLen = n ∧
        (k1 ks).alg = 0x10 ∧ (k1 ks).may 51 = true,
    fun s id c ks t =>
      Ended t id (if (hmac (fld (c.w 9) 3 0) (k1 ks).secret (inOf s c)).take (fld (c.w 9) 16 10) = auxOf s c then 0 else 1) 0⟩,
   ⟨.rand, 0x0701, false, true, false, false, false, [], true, false, fun _ c _ => 1 ≤ c.outCap ∧ c.outCap ≤ 65536,
    fun s id c _ t => ∃ b : Bytes, b.length = c.outCap ∧ Returns s id c t 0 (w64 c.outCap) b⟩] : List HRow)

/-! ## Payment -/

def pinForm (c : HCmd) : Prop :=
  (fld (c.w 9) 63 60 = 0 ∨ fld (c.w 9) 63 60 = 1 ∨ fld (c.w 9) 63 60 = 3 ∨ fld (c.w 9) 63 60 = 4) ∧ fld (c.w 9) 55 0 = 0 ∧
    12 ≤ c.auxLen ∧ c.auxLen ≤ 19 ∧ c.inLen = (if fld (c.w 9) 63 60 = 4 then 16 else 8)
/-- The PIN that the incoming block holds under the key that works (12/R359, R361). -/
def PinIn (s : State) (c : HCmd) (ks : List KeyObj) (pan pin : List Nat) : Prop :=
  panOf (auxOf s c) = some pan ∧ isAes (k2 ks).alg = true ∧ (k2 ks).may 52 = true ∧ ∃ alg key, Works c (k1 ks) .pin 52 alg key ∧
    (if fld (c.w 9) 63 60 = 4 then isAes alg = true ∧ pinOf16 (aesCipher key) (inOf s c) pan = some pin
     else alg = 8 ∧ pinOf8 (fld (c.w 9) 63 60) (tdeaDec key (inOf s c)) pan = some pin)
def emvKey (k : KeyObj) : Prop := (isAes k.alg = true ∨ k.alg = 8) ∧ k.may 51 = true
def cryptoOf (c : HCmd) (k : KeyObj) (p : List Nat × List Nat) : Bytes := sessionKey k.alg (cardKey k.alg k.secret p.1 p.2) (fld (c.w 10) 15 0)
def cvcForm (c : HCmd) : Prop := fld (c.w 9) 63 56 = 0 ∧ (c.bytes 9 7).all isDigit = true ∧ 12 ≤ c.inLen ∧ c.inLen ≤ 19
def cvcCode (c : HCmd) (k : KeyObj) (pan : List Nat) : Bytes :=
  digitBytes (cvcOf k.secret pan ((digitsOf (c.bytes 9 7)).take 4) ((digitsOf (c.bytes 9 7)).drop 4))
def ffForm (c : HCmd) : Prop :=
  let r := fld (c.w 9) 7 0; let h := fld (c.w 9) 11 8; let l := fld (c.w 9) 15 12; let m := fld (c.w 9) 17 16; let t := fld (c.w 9) 28 24
  fld (c.w 9) 23 18 = 0 ∧ fld (c.w 9) 63 29 = 0 ∧ (∀ b ∈ (c.bytes 10 24).drop t, b = 0) ∧ (r = 10 ∨ (r = 36 ∧ m = 0)) ∧ h ≤ 8 ∧ l ≤ 4 ∧ m ≠ 3 ∧ t ≤ 24 ∧
    1 ≤ c.inLen ∧ c.inLen ≤ 56 ∧ 1000000 ≤ r ^ (c.inLen - h - l - (if m = 0 then 0 else 1)) ∧ c.inLen ≤ c.outCap
def payRows (o : HRow) : Prop := o ∈ ([
   ⟨.pinTranslate, 0x0401, true, true, true, true, true, [9, 13, 14, 15], true, false,
    fun s c ks => pinForm c ∧ fld (c.w 9) 59 56 = 4 ∧ 16 ≤ c.outCap ∧ ∃ pan pin, PinIn s c ks pan pin,
    fun s id c ks t => ∀ pan pin, PinIn s c ks pan pin → ∃ f : Bytes, f.length = 8 ∧
      gives (fun _ _ ks => pinBlock4 (aesCipher (k2 ks).secret) pin pan f) s id c ks t⟩,
   ⟨.pinVerify, 0x0402, true, false, true, true, true, [9, 10, 11, 13, 14, 15], true, false,
    fun s c ks => pinForm c ∧ fld (c.w 9) 59 56 = 0 ∧ ∃ pan pin ref, PinIn s c ks pan pin ∧ pinOf16 (aesCipher (k2 ks).secret) (c.bytes 10 16) pan = some ref,
    fun s id c ks t => ∀ pan pin ref, PinIn s c ks pan pin → pinOf16 (aesCipher (k2 ks).secret) (c.bytes 10 16) pan = some ref →
      Ended t id (if pin = ref then 0 else 1) 0⟩,
   ⟨.emvArqcVerify, 0x0403, true, false, true, true, false, [9, 10], true, false,
    fun s c ks => fld (c.w 10) 63 16 = 0 ∧ 1 ≤ c.inLen ∧ c.inLen ≤ 256 ∧ emvKey (k1 ks) ∧ ∃ p, panPsn (auxOf s c) = some p,
    fun s id c ks t => ∀ p, panPsn (auxOf s c) = some p → let k := k1 ks
      (emvMac k.alg (cryptoOf c k p) (inOf s c) = c.bytes 9 8 → Ended t id 0 0 ∧ (k.alg = 8 → ∃ e ∈ t.vault.arqc.get [] c.creel,
        e.key = k.handle ∧ e.hash = sha256 (auxOf s c) ∧ e.atc = fld (c.w 10) 15 0 ∧ e.arqc = c.w 9 ∧ e.since = s.now)) ∧
      (emvMac k.alg (cryptoOf c k p) (inOf s c) ≠ c.bytes 9 8 → Ended t id 1 0 ∧ t.vault.arqc = s.vault.arqc)⟩,
   ⟨.emvArpc, 0x0404, false, true, true, true, false, [9, 10, 11, 12], true, false,
    fun s c ks => fld (c.w 10) 63 16 = 0 ∧ c.w 11 = 0 ∧ fld (c.w 12) 63 16 = 0 ∧ c.auxLen ≤ 29 ∧ 8 ≤ c.outCap ∧ isAes (k1 ks).alg = true ∧
      (k1 ks).may 51 = true ∧ ∃ p, panPsn (auxOf s c) = some p,
    fun s id c ks t => ∀ p, panPsn (auxOf s c) = some p →
      gives (fun _ c ks => arpc1 (k1 ks).alg (cryptoOf c (k1 ks) p) (c.bytes 9 8) (c.bytes 12 2)) s id c ks t⟩,
   ⟨.emvArpc, 0x0404, false, true, true, true, false, [9, 10, 11, 12], true, false,
    fun s c ks => fld (c.w 10) 63 16 = 0 ∧ c.w 11 = 0 ∧ fld (c.w 12) 63 16 = 0 ∧ c.auxLen ≤ 29 ∧ 8 ≤ c.outCap ∧ (k1 ks).alg = 8 ∧
      (k1 ks).may 51 = true ∧ (∃ p, panPsn (auxOf s c) = some p) ∧
      ∀ e ∈ s.vault.arqc.get [] c.creel, ¬ (s.now < e.since + 2 ^ 32 ∧ e.key = (k1 ks).handle ∧ e.hash = sha256 (auxOf s c) ∧ e.atc = fld (c.w 10) 15 0 ∧ e.arqc = c.w 9),
    fun s id _ _ t => Ended t id 0x010A 0 ∧ t.mem = s.mem⟩,
   ⟨.emvArpc, 0x0404, false, true, true, true, false, [9, 10, 11, 12], true, false,
    fun s c ks => fld (c.w 10) 63 16 = 0 ∧ c.w 11 = 0 ∧ fld (c.w 12) 63 16 = 0 ∧ c.auxLen ≤ 29 ∧ 8 ≤ c.outCap ∧ (k1 ks).alg = 8 ∧
      (k1 ks).may 51 = true ∧ (∃ p, panPsn (auxOf s c) = some p) ∧
      ∃ e ∈ s.vault.arqc.get [] c.creel, s.now < e.since + 2 ^ 32 ∧ e.key = (k1 ks).handle ∧ e.hash = sha256 (auxOf s c) ∧ e.atc = fld (c.w 10) 15 0 ∧ e.arqc = c.w 9,
    fun s id c ks t => ∀ p, panPsn (auxOf s c) = some p →
      gives (fun _ c ks => arpc1 8 (cryptoOf c (k1 ks) p) (c.bytes 9 8) (c.bytes 12 2)) s id c ks t⟩,
   ⟨.emvArpc, 0x0404, false, true, true, true, false, [9, 10, 11, 12], true, false,
    fun _ c ks => fld (c.w 10) 63 16 = 0 ∧ tbit (c.w 11) 0 = true ∧ fld (c.w 11) 63 48 = 0 ∧ fld (c.w 11) 15 1 = 0 ∧ c.w 12 = 0 ∧ c.auxLen ≤ 29 ∧
      4 ≤ c.outCap ∧ isAes (k1 ks).alg = true ∧ (k1 ks).may 51 = true,
    fun s id c ks t => let m := (auxOf s c).take (Config.arpcSplit (auxOf s c)); let prop := (auxOf s c).drop (Config.arpcSplit (auxOf s c))
      (panPsn m = none → Ended t id 0x0204 0) ∧
      ∀ p, panPsn m = some p → prop.length ≤ 8 →
        gives (fun _ c ks => arpc2 (k1 ks).alg (cryptoOf c (k1 ks) p) (c.bytes 9 8) (toLe 4 (fld (c.w 11) 47 16)) prop) s id c ks t⟩,
   ⟨.cvcGenerate, 0x0405, true, true, false, true, false, [9], true, false,
    fun s c ks => cvcForm c ∧ 3 ≤ c.outCap ∧ (k1 ks).alg = 8 ∧ (k1 ks).may 51 = true ∧ ∃ pan, panOf (inOf s c) = some pan,
    fun s id c ks t => ∀ pan, panOf (inOf s c) = some pan → gives (fun _ c ks => cvcCode c (k1 ks) pan) s id c ks t⟩,
   ⟨.cvcVerify, 0x0406, true, false, false, true, false, [9, 10], true, false,
    fun s c ks => cvcForm c ∧ fld (c.w 10) 63 24 = 0 ∧ (c.bytes 10 3).all isDigit = true ∧ (k1 ks).alg = 8 ∧ (k1 ks).may 51 = true ∧
      ∃ pan, panOf (inOf s c) = some pan,
    fun s id c ks t => ∀ pan, panOf (inOf s c) = some pan → Ended t id (if cvcCode c (k1 ks) pan = c.bytes 10 3 then 0 else 1) 0⟩,
   ⟨.ff1Tokenise, 0x0408, true, true, false, true, false, [9, 10, 11, 12], true, false,
    fun s c ks => ffForm c ∧ encrypts (k1 ks) ∧ ∃ b, ffRun (k1 ks).secret c true (inOf s c) = some b,
    fun s id c ks t => ∀ b, ffRun (k1 ks).secret c true (inOf s c) = some b → gives (fun _ _ _ => b) s id c ks t⟩,
   ⟨.ff1Detokenise, 0x0409, true, true, false, true, false, [9, 10, 11, 12], true, false,
    fun s c ks => ffForm c ∧ c.isRing = true ∧ isAes (k1 ks).alg = true ∧ (k1 ks).may 49 = true ∧ ∃ b, ffRun (k1 ks).secret c false (inOf s c) = some b,
    fun s id c ks t => ∀ b, ffRun (k1 ks).secret c false (inOf s c) = some b → gives (fun _ _ _ => b) s id c ks t⟩] : List HRow)

/-! ## Signatures, audit, attestation -/

def isHashed (a : Nat) : Bool := isRsa a || a == 0x28 || a == 0x29
/-- The parameters of a signature, as R368 and R369 allow them for the key's algorithm. -/
def sigForm (c : HCmd) (a : Nat) : Prop :=
  let h := fld (c.w 9) 3 0; let n := fld (c.w 9) 21 16; let p := fld (c.w 9) 11 10
  fld (c.w 9) 63 22 = 0 ∧ fld (c.w 9) 15 12 = 0 ∧ fld (c.w 9) 9 9 = 0 ∧ fld (c.w 9) 7 4 = 0 ∧ n ≤ 48 ∧ (∀ b ∈ (c.bytes 10 48).drop n, b = 0) ∧
    p ≤ 1 ∧ h ≤ 6 ∧ c.inLen ≤ 64 * MiB ∧ (isHashed a = true → 1 ≤ h ∧ n = 0) ∧
    (isHashed a = false → h = 0 ∧ tbit (c.w 9) 8 = false ∧ p = 0 ∧ (a = 0x2A → n = 0)) ∧ (tbit (c.w 9) 8 = true → c.inLen = (hashLen h).getD 0)
def signRows (o : HRow) : Prop := o ∈ ([
   ⟨.sign, 0x0501, true, true, false, true, false, [9, 10, 11, 12, 13, 14, 15], true, false,
    fun _ c ks => sigForm c (k1 ks).alg ∧ isAsym (k1 ks).alg = true ∧ (k1 ks).may 54 = true ∧ (k1 ks).secret ≠ [] ∧ sigLen (k1 ks).alg ≤ c.outCap,
    fun s id c ks t => ∃ r, gives (fun s c ks => signWith (k1 ks).alg (k1 ks).secret c (inOf s c) r) s id c ks t⟩,
   ⟨.sign, 0x0501, true, true, false, true, false, [9, 10, 11, 12, 13, 14, 15], true, false,
    fun _ c ks => sigForm c (k1 ks).alg ∧ (k1 ks).may 54 = false, fun s id _ _ t => Ended t id 0x0102 0 ∧ t.mem = s.mem⟩,
   ⟨.verify, 0x0502, true, false, true, true, false, [9, 10, 11, 12, 13, 14, 15], true, false,
    fun _ c ks => sigForm c (k1 ks).alg ∧ isAsym (k1 ks).alg = true ∧ (k1 ks).may 55 = true,
    fun s id c ks t => Ended t id (if verifyWith (k1 ks).alg (k1 ks).pub c (inOf s c) (auxOf s c) = true then 0 else 1) 0⟩,
   ⟨.kemEncap, 0x0503, false, true, false, true, false, [9, 10, 11, 12], true, false,
    fun s c ks => tmplOk c ∧ attrAlg (c.w 9) = 3 ∧ isKem (k1 ks).alg = true ∧ (k1 ks).may 50 = true ∧ kemCt (k1 ks).alg ≤ c.outCap ∧ Room s c,
    fun s id c ks t => ∃ r, let e := Config.kemEncap (k1 ks).alg (k1 ks).pub r
      makesTmpl (fitLen 32 e.2) [] s id c t ∧ Wrote s c t (fitLen (kemCt (k1 ks).alg) e.1)⟩,
   ⟨.kemDecap, 0x0504, true, false, false, true, false, [9, 10, 11, 12], true, false,
    fun s c ks => tmplOk c ∧ attrAlg (c.w 9) = 3 ∧ isKem (k1 ks).alg = true ∧ (k1 ks).may 50 = true ∧ (k1 ks).secret ≠ [] ∧
      c.inLen = kemCt (k1 ks).alg ∧ Room s c,
    fun s id c ks t => makesTmpl (fitLen 32 (Config.kemDecap (k1 ks).alg (k1 ks).secret (inOf s c))) [] s id c t⟩,
   ⟨.auditSetup, 0x0801, false, false, false, false, false, [9, 10, 11, 12], true, false,
    fun s c _ => 10 ≤ (c.w 10).toNat ∧ (c.w 10).toNat ≤ 24 ∧ 8 ≤ (c.w 12).toNat ∧ (c.w 12).toNat ≤ 256 ∧
      s.dmaOk c.creel (c.w 9).toNat (128 * 2 ^ (c.w 10).toNat) true = true ∧ s.dmaOk c.creel (c.w 11).toNat (40960 * (c.w 12).toNat) true = true,
    fun _ id c _ t => Ended t id 0 0 ∧ (t.audit c.creel).set = true ∧ (t.audit c.creel).ring = (c.w 9).toNat ∧ (t.audit c.creel).log2n = (c.w 10).toNat ∧
      (t.audit c.creel).area = (c.w 11).toNat ∧ (t.audit c.creel).slots = (c.w 12).toNat⟩,
   ⟨.auditConsumed, 0x0802, false, false, false, false, false, [9, 10], true, false,
    fun s c _ => (s.audit c.creel).consumed ≤ (c.w 9).toNat ∧ (c.w 9).toNat ≤ (s.chain c.creel).seq ∧
      (c.w 10 = 0 ∨ (c.w 10).toNat < (s.chain c.creel).cps),
    fun s id c _ t => Ended t id 0 (w64 ((c.w 9).toNat + 2 ^ (s.audit c.creel).log2n - (s.chain c.creel).seq)) ∧
      (t.audit c.creel).consumed = (c.w 9).toNat⟩,
   ⟨.auditConsumed, 0x0802, false, false, false, false, false, [9, 10], true, false,
    fun s c _ => (s.chain c.creel).seq < (c.w 9).toNat, fun s id c _ t => Ended t id 0x0204 0 ∧ t.audit c.creel = s.audit c.creel⟩,
   ⟨.auditCheckpoint, 0x0803, false, false, false, false, false, [], true, false, fun _ _ _ => True,
    fun s id c _ t => Ended t id 0 (w64 (s.chain c.creel).cps) ∧ (t.chain c.creel).cps = (s.chain c.creel).cps + 1 ∧
      ∃ b, (t.audit c.creel).waiting = (s.audit c.creel).waiting ++ [((s.chain c.creel).cps, b)]⟩,
   ⟨.auditHead, 0x0804, false, true, false, false, false, [], true, false, fun _ c _ => 56 ≤ c.outCap,
    gives fun s c _ => toLe 8 (s.chain c.creel).seq ++ (s.chain c.creel).head.take 48⟩,
   ⟨.attestReport, 0x0901, false, true, false, false, false, [9, 10, 11, 12], true, false, fun _ c _ => 36624 ≤ c.outCap,
    fun s id c _ t => ∃ sig : Bytes, sig.length = 36048 ∧ Returns s id c t 0 36624 (reportBody s c ++ sig)⟩,
   ⟨.attestIdentity, 0x0902, false, true, false, false, false, [], true, false, fun _ _ _ => True,
    gives fun s _ _ => toLe 4 Config.identityRecord.length ++ Config.identityRecord ++ toLe 4 s.akRecord.length ++ s.akRecord⟩] : List HRow)

end Sys2Proof.Claims

open Sys2Proof Sys2Proof.Machine Sys2Proof.Claims

/-- 11/R313 to R320, 12/R352 to R355, R614: what the KEY and SESSION commands of the Hamper do. -/
def Obligations.HamperKeysAndSessions : Prop := ∀ o, keyRows o ∨ sessionRows o → o.Completes
/-- 11/R329, R330, 12/R356 to R358, R361: what the SYM, HASH and RAND commands of the Hamper give. -/
def Sys2Proof.Claims.HamperCiphersAndHashes : Prop := ∀ o, symRows o → o.Completes
/-- 12/R359 to R367: what the PAY commands of the Hamper give. -/
def Sys2Proof.Claims.HamperPayments : Prop := ∀ o, payRows o → o.Completes
/-- 12/R356 to R367: the ciphers, hashes and payment commands of the Hamper. -/
def Obligations.HamperCiphersAndPayments : Prop :=
  Claims.HamperCiphersAndHashes ∧ Claims.HamperPayments

/-- 11/R332 to R338, 12/R368 to R371: what the ASYM, AUDIT and ATTEST commands of the Hamper give. -/
def Obligations.HamperSignaturesAndAudit : Prop := ∀ o, signRows o → o.Completes

namespace Sys2Proof.Claims

/-- Bytes stand in memory, where they lie below the windows and no rank of the device is fenced. -/
def Lands (s t : State) (a : Nat) (b : Bytes) : Prop :=
  a + b.length ≤ 0x100000000000 → (∀ ch, (s.chan ch).fenced = 0) → ∀ i, i < b.length → t.mem.read (a + i) = b.getD i 0
/-- Creel cr holds Hamper ring r. -/
def Holds (s : State) (r cr : Nat) : Prop := s.ringHolder.has r = true ∧ s.ringHolder.get 0 r = cr
/-- A ring's doorbell: prod moves forwards and stays within the ring. -/
def doorbellOk (x : Ring) (p : Nat) : Prop := diff32 p x.prod < 2 ^ 31 ∧ diff32 p x.taken ≤ x.size
/-- A doorbell of creel cr's ring: prod takes the value, or the ring faults with code 3 and stops (12/R341); an idle ring takes none, and
one that a fault has stopped takes none and records it in its unit's bank (05/R160). -/
def DoorbellRule (s : State) (cr : Nat) (of : State → Ring) (i : W64 → Instr) : Prop :=
  let x := of s
  ∀ v, ((s.creel cr).st ≠ .resetting → x.enabled = true →
      (doorbellOk x (fld v 31 0) → x.fault = 0 → Gives (i v) s fun t => (of t).prod = fld v 31 0 ∧ (of t).taken = x.taken ∧ (of t).fault = x.fault ∧ t.mem = s.mem) ∧
      (¬ doorbellOk x (fld v 31 0) → x.fault = 0 → Gives (i v) s fun t =>
        of t = { x with fault := 3 } ∧ t.log.length = s.log.length + 1 ∧ t.mem = s.mem) ∧
      (x.fault ≠ 0 → Gives (i v) s fun t => of t = x ∧ t.log = s.log ∧ t.mem = s.mem ∧ ∃ k b r, t.banks = s.banks.set k b ∧
        b.recs = (s.banks.get ubankReset k).recs ++ [r])) ∧
    (x.enabled = false ∨ (s.creel cr).st = .resetting → Gives (i v) s fun t => of t = x ∧ t.mem = s.mem)
/-- A control register of creel cr's ring, which takes `word v`: enabling checks the ring, then empties it; a failed check is the ring's
fault; enable 0 with nothing in flight clears fault and stop (12/R339, R340). -/
def ControlRule (s : State) (cr : Nat) (k : RingKind) (word : W64 → W64) (extra : W64 → Nat) (inFlight : Nat) (of : State → Ring) (i : W64 → Instr) : Prop :=
  let x := of s
  ∀ v, let y := { x with ctl := word v }
    let code := if s.ringCheck cr k y ≠ 0 then s.ringCheck cr k y else if x.enabled = true then 0 else extra v
    (tbit v 0 = false → inFlight = 0 → Gives (i v) s fun t => of t = { x with ctl := setFld (word v) 1 1 0, fault := 0 } ∧ t.mem = s.mem) ∧
    (tbit v 0 = true → code = 0 → x.enabled = false → Gives (i v) s fun t =>
      of t = { y with prod := 0, taken := 0, cqProd := 0, cons := 0, posted := [] } ∧ t.mem = s.mem) ∧
    (tbit v 0 = true → code = 0 → x.enabled = true → Gives (i v) s fun t => of t = y ∧ t.mem = s.mem) ∧
    (tbit v 0 = true → code ≠ 0 → Gives (i v) s fun t => of t = { y with fault := code } ∧ s.log.length < t.log.length ∧ t.mem = s.mem)

end Sys2Proof.Claims

open Sys2Proof Sys2Proof.Machine Sys2Proof.Claims

/-- 12/R339 to R343, 13/R378 to R381, 16/R494: the control, doorbell and consumer registers of Hamper rings, Plaiter queues and line queues. -/
def Obligations.RingRegisters : Prop :=
  ∀ (s : State),
    (∀ (r : Fin 1024) (cr : Nat), Holds s r cr →
      ControlRule s cr hrKind (fun v => w64 (fld v 2 0 + fld v 28 16 * 2 ^ 16)) (fun _ => 0) (s.hInFlight r) (fun t => t.hring r) (.hrCtrl r) ∧
      DoorbellRule s cr (fun t => t.hring r) (.hrDoorbell r) ∧
      ∀ v, Gives (.hrCqCons r v) s fun t => t.mem = s.mem ∧
        t.hring r = (if (s.hring r).size < diff32 (s.hring r).cqProd (fld v 31 0) then s.hring r else { s.hring r with cons := fld v 31 0 })) ∧
    (∀ (n : Fin 256), s.pqHolder.has n = true → let cr := s.pqHolder.get 0 n
      ControlRule s cr pqKind (fun v => setFld (setFld (setFld v 47 36 0) 31 29 0) 15 4 0)
        (fun v => if s.unitCreel.has (fld v 35 32) = true ∧ s.unitCreel.get 64 (fld v 35 32) = cr then 0 else 6)
        (s.pqInFlight n) (fun t => (t.pq n).ring) (.pqCtrl n) ∧
      DoorbellRule s cr (fun t => (t.pq n).ring) (.pqDoorbell n) ∧
      ∀ v, Gives (.pqCqCons n v) s fun t => t.mem = s.mem ∧ (t.pq n).trace = (s.pq n).trace ∧ (let x := (s.pq n).ring
        (t.pq n).ring = if x.size < diff32 x.cqProd (fld v 31 0) then x else { x with cons := fld v 31 0 })) ∧
    (∀ (cr : CreelId) (slot : Fin 16), let k := 16 * cr.val + slot.val
      s.lqs.has k = true →
      ControlRule s cr lrxKind (fun v => w64 (fld v 34 32 * 2 ^ 32 + fld v 28 16 * 2 ^ 16 + fld v 2 0)) (fun _ => 0) (s.linePending k false)
        (fun t => (t.lq k).rx) (.lqCtrl cr slot) ∧
      DoorbellRule s cr (fun t => (t.lq k).rx) (.lqRxdb cr slot) ∧ DoorbellRule s cr (fun t => (t.lq k).tx) (.lqTxdb cr slot) ∧
      ∀ v, Gives (.lqCtrl cr slot v) s fun t => fld (t.lq k).ctl 34 32 = fld v 34 32 ∧ fld (t.lq k).ctl 28 16 = fld v 28 16 ∧
        tbit (t.lq k).ctl 0 = tbit v 0 ∧ tbit (t.lq k).ctl 2 = tbit v 2) ∧
    (∀ (cr : CreelId) (slot : Fin 16) v, s.lqs.has (16 * cr.val + slot.val) = false →
      exec (.lqCtrl cr slot v) s = .next s ∧ exec (.lqRxdb cr slot v) s = .next s ∧ exec (.lqTxdb cr slot v) s = .next s)

/-- 12/R343, R344, R348, R351, 11/R332, R333: the taking of a descriptor from a Hamper ring, and its completion. -/
def Obligations.HamperRings : Prop :=
  ∀ (s : State) (r : Fin 1024) (cr : Nat), Holds s r cr →
    let x := s.hring r
    ((s.creel cr).st = .running → s.runsRole cr = true → s.paused = false → s.hInFlight r < 256 →
      (x.ready (s.hInFlight r) = false → exec (.descriptorTake r) s = .next s) ∧
      (x.ready (s.hInFlight r) = true →
        (∀ code, s.ringRead cr hrKind x = .inl code → Gives (.descriptorTake r) s fun t =>
          (t.hring r).fault = code ∧ (t.hring r).taken = x.taken ∧ t.vault.active = s.vault.active) ∧
        (∀ ws, s.ringRead cr hrKind x = .inr ws →
          (s.vaultOpen cr (ws.getD 0 0) = true → s.hTurn ≠ some r.val → exec (.descriptorTake r) s = .next s) ∧
          (s.vaultOpen cr (ws.getD 0 0) = true → s.hTurn = some r.val → fld (ws.getD 0 0) 63 48 ∈ hamperOps → Gives (.descriptorTake r) s fun t =>
            (t.hring r).taken = (x.taken + 1) % 2 ^ 32 ∧ t.mem = s.mem ∧ ∃ c, t.vault.active = s.vault.active ++ [c] ∧ c.words = ws ∧
              c.origin = .ring r ∧ c.creel = cr ∧ c.index = x.taken ∧ c.taken = true ∧ c.out = none ∧
              c.live = s.sessLive cr (ws.getD 1 0)) ∧
          (s.vaultOpen cr (ws.getD 0 0) = true → s.hTurn = some r.val → fld (ws.getD 0 0) 63 48 ∉ hamperOps → Gives (.descriptorTake r) s fun t =>
            (t.hring r).taken = (x.taken + 1) % 2 ^ 32 ∧ Ended t s.vault.nextId 0x0201 0) ∧
          (s.vaultOpen cr (ws.getD 0 0) = false → Gives (.descriptorTake r) s fun t =>
            t.vault = s.vault ∧ t.mem = s.mem)))) ∧
    (∀ id c o, s.vault.active.find? (fun c => c.id = id) = some c → c.out = some o → c.origin = .ring r → c.creel = cr →
      (o.waits = true → exec (.hamperCompletion id) s = .next s) ∧
      (o.waits = false → o.recorded = true → (s.audit cr).held = [] → c.lost = true → Gives (.hamperCompletion id) s fun t =>
        t.vault.active = s.vault.active.filter (fun d => d.id ≠ id) ∧ t.hring r = x ∧ t.mem = s.mem ∧ t.log.length = s.log.length + 1) ∧
      (o.waits = false → o.recorded = true → (s.audit cr).held = [] → c.lost = false → s.dmaOk cr (x.cqBase + 32 * (x.cqProd % x.size)) 32 true = true →
        Gives (.hamperCompletion id) s fun t => t.vault.active = s.vault.active.filter (fun d => d.id ≠ id) ∧
          (t.hring r).cqProd = (x.cqProd + 1) % 2 ^ 32 ∧ (t.hring r).taken = x.taken ∧
          Lands s t (x.cqBase + 32 * (x.cqProd % x.size)) (entryBytes
            [w64 (fld (c.w 0) 31 0 * 2 ^ 32 + o.status % 65536 * 65536 + c.index % 65536), w64 o.sec, w64 (o.st % 4 * 2 ^ 32 + o.frac % 2 ^ 32),
             o.result]) ∧
          (tbit (c.w 0) 33 = true → tbit x.ctl 2 = true → (s.src x.event).holder = some cr → (t.src x.event).pending = true)) ∧
      (o.waits = false → o.recorded = false → cr < 64 → Gives (.hamperCompletion id) s fun t => (t.chain cr).seq = (s.chain cr).seq + 1))

/-- 11/R323, R324, R326, R330, R331, R335, R336, 12/R364, 21/R579: what the Hamper does of itself: sessions that expire, the cache, the
random number generators, checkpoints, the tests of its engines. -/
def Obligations.HamperHousekeeping : Prop :=
  ∀ (s : State),
    (∀ n : Fin 4096, s.vault.sess.has n = true → (s.session n).closed = 0 → (s.session n).expiry ≠ BitVec.allOnes 64 →
      (s.hoop.sec ≤ (s.session n).expiry.toNat → exec (.sessionExpiry n) s = .next s) ∧
      ((s.session n).expiry.toNat < s.hoop.sec → Gives (.sessionExpiry n) s fun t =>
        t.session n = { s.session n with closed := 2 } ∧ t.vault.objs = s.vault.objs ∧ t.mem = s.mem)) ∧
    (∀ cr : CreelId, Gives (.arqcEntryExpiry cr) s fun t =>
      t.vault.arqc.get [] cr = (s.vault.arqc.get [] cr).filter (fun e => s.now < e.since + 2 ^ 32) ∧
        t.mem = s.mem ∧ t.vault.objs = s.vault.objs) ∧
    (∀ (cr : CreelId) n body rest, (s.audit cr).waiting = (n, body) :: rest → (s.audit cr).set = true → n < (s.audit cr).cpUsed + (s.audit cr).slots →
      s.dmaOk cr ((s.audit cr).area + 40960 * (n % max 1 (s.audit cr).slots)) 40960 true = true → Gives (.checkpointSigned cr) s fun t =>
        (t.chain cr).seq = (s.chain cr).seq + 1 ∧ ((t.chain cr).seq % 65536 ≠ 0 → (t.audit cr).waiting = rest)) ∧
    (∀ cr : CreelId, (s.audit cr).waiting = [] → exec (.checkpointSigned cr) s = .next s) ∧
    (∀ (cr : CreelId) h k, s.objOf cr h = some k →
      (Gives (.keyCacheFill cr h .none) s fun t => t.vault.cache.get [] cr = (handleIx h :: (s.vault.cache.get [] cr).filter (· ≠ handleIx h)).take
        (s.quota cr 7) ∧ t.vault.objs = s.vault.objs) ∧
      (Gives (.keyCacheFill cr h .dataUncorrectable) s fun t => t.objOf cr h = some { k with bad := true } ∧ t.log.length = s.log.length + 1 ∧
        t.vault.cache = s.vault.cache)) ∧
    (∀ inst : Fin 65, s.vault.entropy = 0 → 65536 ≤ (s.vault.drbg.get drbgReset inst).requests ∨ (s.vault.drbg.get drbgReset inst).since + 2 ^ 32 ≤ s.now →
      Gives (.drbgReseed inst) s fun t => t.vault.drbg.get drbgReset inst = { requests := 0, since := s.now } ∧ t.vault.objs = s.vault.objs) ∧
    (s.vault.entropy = 0 → Gives .healthTestFailure s fun t => t = { s with vault := { s.vault with entropy := 1, reruns := 0 } }) ∧
    (s.vault.entropy = 1 →
      (Gives (.healthTestRerun true) s fun t => t.vault.entropy = 0 ∧ ∀ i, i < 65 → t.vault.drbg.get drbgReset i = { requests := 0, since := s.now }) ∧
      (s.vault.reruns < 2 → Gives (.healthTestRerun false) s fun t => t = { s with vault := { s.vault with reruns := s.vault.reruns + 1 } }) ∧
      (s.vault.reruns = 2 → Gives (.healthTestRerun false) s fun t => t.vault.entropy = 2 ∧ t.log.length = s.log.length + 1)) ∧
    (∀ e : Fin 70,
      (Gives (.knownAnswerTest e true) s fun t => t.vault.engines.has e = false ∧ t.vault.broken = s.vault.broken) ∧
      (68 ≤ e.val → Gives (.knownAnswerTest e false) s fun t => t = { s with vault := { s.vault with broken := true } }) ∧
      (e.val < 68 → s.vault.engines.get 0 e = 0 → Gives (.knownAnswerTest e false) s fun t =>
        t = { s with vault := { s.vault with engines := s.vault.engines.set e 1 } }) ∧
      (e.val < 68 → s.vault.engines.get 0 e ≠ 0 → Gives (.knownAnswerTest e false) s fun t =>
        t.vault.engines.has e = false ∧ t.log.length = s.log.length + 1 ∧
        (let c := hamperClass e; let n := s.reserve.hamper.get 0 c; n < hamperReserve c → t.reserve.hamper.get 0 c = n + 1)))

namespace Sys2Proof.Claims

/-- The sequencer of unit u, number k, as the Plaiter's rows name it. -/
def plSeq (u : Fin 16) (k : Fin 4) : SeqId := .plaiter (Fin.ofNat 18 u.val) (Fin.ofNat 4 k.val)
/-- A load of a door starts: the sequencer runs it in the local space, a job is there, and an operation may still start (13/R407). -/
structure DoorRuns (s : State) (u : Fin 16) (k : Fin 4) (g : PReg) (d : Reg) (w : State) : Prop where
  seq : SeqRuns s (plSeq u k) g [] [d.toNat] w
  localMode : tbit (w.seq (seqIx (plSeq u k))).mode 1 = false
  job : w.hasJob u k = true
  open_ : (w.job u k).ending = none
  room : (w.job u k).ops.length < 4
/-- The operation is added to the job's, its destination is busy, and the instruction completes in four beats (13/R407). -/
def doorAfter (y : State) (u : Fin 16) (k : Fin 4) (d : Reg) (pc : W64) (op : DoorOp) : State :=
  let i := seqIx (plSeq u k)
  let z := y.modJob u k fun j => { j with ops := j.ops ++ [op] }
  seqNext (if d.toNat = 0 then z else z.modSeq i fun q => { q with busy := q.busy ++ [d.toNat] }) (plSeq u k) pc 4 (some d.toNat)
/-- A door whose operation leaves the state `y` with this result. -/
def DoorGives (i : Instr) (s v y : State) (u : Fin 16) (k : Fin 4) (d : Reg) (p : BitVec 16) (r : W64) : Prop :=
  exec i s = .next (doorAfter y u k d ((v.seq (seqIx (plSeq u k))).x.pc + 4) { dest := d.toNat, call := none, p := p.toNat, result := some r })
/-- What the check of a job's descriptor says (13/R383, R386): the first of these that applies. -/
def jobStatus (s : State) (u : Nat) (j : Job) : Nat :=
  let w := fun i => j.words.getD i 0
  let e := ((s.unit u).img.bind fun i => i.entries[fld (w 0) 63 56]?).getD 0
  let n := fld (w 2) 63 32
  let cap := fld (w 2) 31 0
  let top := if w 5 ≠ 0 then 65564 else if fld e 55 48 = 3 ∨ fld e 55 48 = 4 then 0x1000000 else 65536
  let least := if w 5 ≠ 0 then 29 else 1
  if fld (w 0) 55 35 ≠ 0 ∨ tbit (w 0) 32 = true ∨ w 6 ≠ 0 then 0x0203
  else if (s.unit u).img = none then 0x0301
  else if tbit e 63 = false then 0x0201
  else if n < least ∨ top < n then 0x0202
  else if s.dmaOk (s.unitCr u) (w 1).toNat n false = false ∨ (cap ≠ 0 ∧ s.dmaOk (s.unitCr u) (w 3).toNat cap true = false) then 0x0109
  else 0

end Sys2Proof.Claims

open Sys2Proof Sys2Proof.Machine Sys2Proof.Claims

/-- 13/R382 to R388, R392, R396, R405, R417, R421: a job of the Plaiter from its queue to its end, and the load of an image. -/
def Obligations.PlaiterJobs : Prop :=
  ∀ (s : State) (u : Fin 16) (k : Fin 4),
    (∀ q ws, s.unitCreel.has u = true → (s.creel (s.unitCr u)).st = .running → s.runsRole (s.unitCr u) = true → (s.unit u).leaving = false →
      (s.unit u).load = none → s.paused = false → s.idleSeq u = some k →
      ((upto ((s.unit u).turn + 1) 256).map (· % 256)).find? (s.pqReady u) = some q → s.ringRead (s.unitCr u) pqKind (s.pq q).ring = .inr ws →
      let j : Job := { jobReset with queue := q, index := (s.pq q).ring.taken, words := ws, sec := s.hoop.sec, frac := s.hoop.frac, st := s.hoop.st }
      (fld (ws.getD 0 0) 63 56 ≠ 0xFF → Gives (.jobTake u) s fun t => (t.pq q).ring.taken = ((s.pq q).ring.taken + 1) % 2 ^ 32 ∧
        (t.unit u).turn = q ∧ (jobStatus s u j = 0 → t.job u k = j) ∧
        (jobStatus s u j ≠ 0 → ∃ e, (t.job u k).ending = some e ∧ e.status = jobStatus s u j ∧ (t.job u k).phase = .ready) ∧ t.mem = s.mem) ∧
      (fld (ws.getD 0 0) 63 56 = 0xFF → Gives (.jobTake u) s fun t => (t.pq q).ring.taken = ((s.pq q).ring.taken + 1) % 2 ^ 32 ∧
        (t.unit u).load.isSome = true ∧ (t.unit u).jobs = (s.unit u).jobs ∧ t.mem = s.mem)) ∧
    (∀ j, (s.unit u).load = some j →
      let m := (j.words.getD 1 0).toNat
      let b := s.rdBytes m (fld (j.words.getD 2 0) 63 32)
      ((s.unit u).jobs ≠ [] → exec (.imageLoad u) s = .next s) ∧
      ((s.unit u).jobs = [] → j.ending = none → s.poisonedRange m (fld (j.words.getD 2 0) 63 32) = false →
        (imageFault b = none → sha256 (b.take (b.length - 32)) = b.drop (b.length - 32) → Gives (.imageLoad u) s fun t =>
          (t.unit u).img = some (imageOf b) ∧ (t.unit u).load = none ∧
          ∀ n i, n < 4 → i < (imageOf b).data.length → FMap.get 0 ((t.unit u).data.get [] n) i = (imageOf b).data.getD i 0) ∧
        (imageFault b ≠ none → Gives (.imageLoad u) s fun t => (t.unit u).img = (s.unit u).img ∧ (t.unit u).load = none))) ∧
    (s.hasJob u k = true → (s.job u k).phase = .taken → (s.job u k).words.getD 5 0 ≠ 0 → (s.job u k).ending = none →
      s.poisonedRange ((s.job u k).words.getD 1 0).toNat 12 = false → Gives (.ingestDecryption u k) s fun t =>
        (t.job u k).phase = .ingest s.vault.nextId ∧ (t.job u k).calls = (s.job u k).calls + 1 ∧ ∃ c, t.vault.active = s.vault.active ++ [c] ∧
          c.id = s.vault.nextId ∧ c.origin = .plaiter u k 64 ∧ c.op = 0x0304 ∧ c.w 2 = (s.job u k).words.getD 5 0 ∧ c.creel = s.unitCr u) ∧
    (∀ e, s.hasJob u k = true → (s.job u k).ending = none → (s.job u k).phase = .taken → (s.job u k).words.getD 5 0 = 0 → s.jobEntry u k = some e →
      let m := ((s.job u k).words.getD 1 0).toNat
      let n := fld ((s.job u k).words.getD 2 0) 63 32
      let v := s.modJob u k fun x => { x with msg := s.rdBytes m n }
      (s.poisonedRange m n = true → Gives (.fieldExtraction u k) s fun t => ∃ d, (t.job u k).ending = some d ∧ d.status = 0x0603) ∧
      (s.poisonedRange m n = false →
        (∀ x d, v.extract u k e = .inl (x, d) → Gives (.fieldExtraction u k) s fun t => (t.job u k).ending = some d ∧ t.seqs = x.seqs) ∧
        (fld e 55 48 = 0 → Gives (.fieldExtraction u k) s fun t => (t.job u k).text = s.rdBytes m n ∧ (t.job u k).phase = .run ∧
          (t.seq (plaiterSeq u k)).run = true ∧ (t.seq (plaiterSeq u k)).x.pc = w64 (fld e 15 0) ∧
          (t.seq (plaiterSeq u k)).x.rd 1 = w64 (s.rdBytes m n).length ∧ (t.seq (plaiterSeq u k)).x.rd 2 = (s.job u k).words.getD 4 0 ∧
          (t.seq (plaiterSeq u k)).x.rd 3 = (s.job u k).words.getD 7 0 ∧ (t.seq (plaiterSeq u k)).x.rd 4 = (s.job u k).words.getD 3 0 ∧ t.mem = s.mem))) ∧
    (∀ e, s.hasJob u k = true → (s.job u k).ops = [] → (s.job u k).phase = .run → (s.seq (plaiterSeq u k)).run = false →
      (s.seq (plaiterSeq u k)).miss = none → (s.seq (plaiterSeq u k)).ops = [] → (s.job u k).ending = some e → s.role (s.unitCr u) ≠ 1 →
      let j := s.job u k
      let r := (s.pq j.queue).ring
      let tooLong := e.status = 0 ∧ fld (j.words.getD 2 0) 31 0 < e.outLen
      s.pqHolder.has j.queue = true → s.dmaOk (s.pqHolder.get 0 j.queue) (r.cqBase + 64 * (r.cqProd % r.size)) 64 true = true →
      Gives (.end_ u k) s fun t => t.hasJob u k = false ∧ (∀ p ∈ t.seals, p.2.seq ≠ some (4 * u.val + k.val)) ∧
        (t.pq j.queue).ring.cqProd = (r.cqProd + 1) % 2 ^ 32 ∧
        Lands s t (r.cqBase + 64 * (r.cqProd % r.size)) (entryBytes [
          w64 (fld (j.words.getD 0 0) 31 0 * 2 ^ 32 + (if tooLong then 0x0211 else e.status) % 65536 * 2 ^ 16 + j.index % 65536),
          w64 s.hoop.sec, w64 (s.hoop.st * 2 ^ 32 + s.hoop.frac),
          w64 (if e.status = 0 ∧ ¬ tooLong then e.outLen % 2 ^ 32 * 2 ^ 32 + e.result % 2 ^ 32 else 0)])) ∧
    (s.hasJob u k = true → (s.job u k).ops ≠ [] → exec (.end_ u k) s = .next s) ∧
    (let lim := fld (s.pq (s.job u k).queue).ring.ctl 63 48
     s.hasJob u k = true → (s.job u k).phase = .run → (s.seq (plaiterSeq u k)).run = true →
      (lim ≠ 0 → lim * 2 ^ 32 < (s.now - (s.job u k).since) * 1000000 → Gives (.jobTimeLimit u k) s fun t =>
        (t.seq (plaiterSeq u k)).run = false ∧ ∃ e, (t.job u k).ending = some e ∧ e.status = 0x0211 ∧ e.fault = 0x22 ∧ t.mem = s.mem) ∧
      (lim = 0 → exec (.jobTimeLimit u k) s = .next s)) ∧
    ((s.unit u).leaving = true → (s.unit u).jobs = [] → Gives (.plaiterUnitReplacement u) s fun t =>
      t.unit u = { s.unit u with leaving := false } ∧ t.mem = s.mem)

/-- 13/R403, R404, R407 to R413: the doors of the Plaiter: what each operation does and answers, and when its result is there. -/
def Obligations.PlaiterDoors : Prop :=
  ∀ (s w : State) (u : Fin 16) (k : Fin 4) (g : PReg) (d : Reg) (p : BitVec 16),
    (∀ o, (s.job u k).ops.find? (fun o => o.result.isSome) = some o → Gives (.doorOperationCompletion u k) s fun t =>
      (t.job u k).ops = (s.job u k).ops.erase o ∧ t.mem = s.mem ∧
      (o.dest ≠ 0 → t.seq (plaiterSeq u k) = { s.seq (plaiterSeq u k) with
        x := (s.seq (plaiterSeq u k)).x.wr o.dest (o.result.getD 0), busy := (s.seq (plaiterSeq u k)).busy.erase o.dest })) ∧
    (DoorRuns s u k g d w →
      let v := seqBody w (plSeq u k) [d.toNat]
      let w0 := v.paramWord u k p.toNat 0
      let w1 := (v.paramWord u k p.toNat 1).toNat
      let w2 := (v.paramWord u k p.toNat 2).toNat
      let w3 := (v.paramWord u k p.toNat 3).toNat
      let j := v.job u k
      (p.toNat % 128 = 0 → Gives (.callDoor u k g d p) s fun t => (t.job u k).calls = j.calls + 1 ∧
        (t.job u k).ops = j.ops ++ [{ dest := d.toNat, call := some v.vault.nextId, p := p.toNat, result := none }] ∧ ∃ c,
          t.vault.active = v.vault.active ++ [c] ∧ c.id = v.vault.nextId ∧ c.creel = v.unitCr u ∧ c.out = none ∧
          c.words = (List.range 16).map (v.paramWord u k p.toNat)) ∧
      (p.toNat % 8 = 0 → p.toNat + 32 ≤ 0x10000 →
        let n := fld w0 31 0
        let known := charsetOk (fld w0 63 60) = true ∧ charsetOk (fld w0 59 56) = true
        let ranges := localReadable w1 n = true ∧ localWritable w2 w3 = true
        (¬ known → DoorGives (.convert u k g d p) s v v u k d p (w64 0x0203)) ∧
        (known → ¬ ranges → DoorGives (.convert u k g d p) s v v u k d p (w64 0x0109)) ∧
        (∀ b, known → ranges → convertText (fld w0 63 60) (fld w0 59 56) (tbit w0 55) (v.localRead u k w1 n) = .inr b →
          (b.length ≤ w3 → DoorGives (.convert u k g d p) s v (v.localWrite u k w2 b) u k d p (w64 (b.length * 65536))) ∧
          (w3 < b.length → DoorGives (.convert u k g d p) s v v u k d p (w64 0x0202)))) ∧
      (p.toNat % 8 = 0 → p.toNat + 24 ≤ 0x10000 → charsetOk (fld w0 59 56) = true ∨ fld w0 59 56 = 4 → fld w0 47 40 ≤ 2 →
        let len := decimalLen (fld w0 59 56) (fld w0 31 16)
        (fld w0 63 60 = 0 → localReadable w1 len = true → localWritable w2 48 = true →
          (∀ neg c e, parseDecimal (fld w0 47 40) (signed 8 (fld w0 55 48)) (decimalChars (fld w0 59 56) (fld w0 31 16) (v.localRead u k w1 len)) =
              some (neg, c, e) → DoorGives (.decimal u k g d p) s v (v.localWrite u k w2 (valueBlock neg c e)) u k d p 0) ∧
          (parseDecimal (fld w0 47 40) (signed 8 (fld w0 55 48)) (decimalChars (fld w0 59 56) (fld w0 31 16) (v.localRead u k w1 len)) = none →
            DoorGives (.decimal u k g d p) s v v u k d p (w64 0x0207))) ∧
        (∀ b, fld w0 63 60 = 1 → localReadable w1 48 = true → localWritable w2 len = true →
          formatDecimal (fld w0 59 56) (fld w0 47 40) (fld w0 31 16) (signed 8 (fld w0 55 48)) (v.localRead u k w1 48) = some b →
          DoorGives (.decimal u k g d p) s v (v.localWrite u k w2 b) u k d p 0)) ∧
      (p.toNat % 8 = 0 → p.toNat + 24 ≤ 0x10000 →
        let own := some (4 * u.val + k.val)
        let cap := w2 % 2 ^ 32
        (v.sealOf own (v.unitCr u) (fld w0 31 0) = none → DoorGives (.emit u k g d p) s v v u k d p (w64 0x0108)) ∧
        (∀ e b, v.sealOf own (v.unitCr u) (fld w0 31 0) = some e →
          (e.emittable = false → DoorGives (.emit u k g d p) s v v u k d p (w64 0x0108)) ∧
          (e.emittable = true → emitText (fld w0 35 32) e.bytes = some b → fld w0 35 32 ≤ 4 →
            localBase ≤ w1 → localWritable (w1 - localBase) cap = true →
              (b.length ≤ cap → DoorGives (.emit u k g d p) s v (v.localWrite u k (w1 - localBase) b) u k d p (w64 (b.length * 65536))) ∧
              (cap < b.length → DoorGives (.emit u k g d p) s v v u k d p (w64 0x0202))) ∧
          (e.emittable = true → emitText (fld w0 35 32) e.bytes = some b → fld w0 35 32 ≤ 4 → b.length ≤ cap →
            w1 < localBase → v.dmaOk (v.unitCr u) w1 cap true = true →
            DoorGives (.emit u k g d p) s v (v.unitWrite (v.unitCr u) w1 b) u k d p (w64 (b.length * 65536))))) ∧
      ((j.toks.length ≤ j.tokAt + j.flds.length → DoorGives (.next u k g d) s v v u k d 0 (w64 1)) ∧
        (∀ e x, j.tokAt + j.flds.length < j.toks.length → v.jobEntry u k = some e →
          v.loadSegment u k (j.tokAt + j.flds.length) (v.jobMap u e).ents = .inr x → (x.job u k).ending = none → (x.job u k).flds.length < 2 ^ 32 →
          DoorGives (.next u k g d) s v (x.modJob u k fun y => { y with segNo := j.segNo + 1 }) u k d 0 (w64 ((x.job u k).flds.length * 65536)))) ∧
      (∀ e, p.toNat % 8 = 0 → p.toNat + 24 ≤ 0x10000 → v.jobEntry u k = some e →
        let a := j.tokAt + fld w0 15 0
        let b := j.tokAt + fld w0 31 16 + 1
        (fld e 55 48 ≠ 3 → DoorGives (.canon u k g d p) s v v u k d p (w64 0x0204)) ∧
        (fld e 55 48 = 3 → a < b → b ≤ j.tokAt + j.flds.length → localWritable w1 w2 = true →
          ((∃ x ∈ (j.toks.drop a).take (b - a), x.own.isSome = true) → DoorGives (.canon u k g d p) s v v u k d p (w64 0x0208)) ∧
          ((∀ x ∈ (j.toks.drop a).take (b - a), x.own = none) → j.canon = none → (canonText j.toks a b).length ≤ w2 →
            DoorGives (.canon u k g d p) s v ((v.localWrite u k w1 (canonText j.toks a b)).modJob u k fun x => { x with canon := some (a, b) })
              u k d p (w64 ((canonText j.toks a b).length * 65536))))))

namespace Sys2Proof.Claims

/-- A completion that a lane group sends: to a port or function, its status (0 good, 1 unsupported request), poison, data. -/
def completion (lg fn st : Nat) (poison : Bool) (b : Bytes) : Emit :=
  { kind := 11, words := lg :: fn :: st :: (if poison then 1 else 0) :: b.map (·.toNat) }
/-- Two staged windows share host offsets (16/R485). -/
def windowsMeet (a b : W64 × W64) : Prop :=
  fld a.2 35 12 * 4096 < fld b.2 35 12 * 4096 + 2 ^ fld b.1 5 0 ∧ fld b.2 35 12 * 4096 < fld a.2 35 12 * 4096 + 2 ^ fld a.1 5 0
/-- Why a decoder is not enabled (16/R473): its limit is below its base, its root port has no CXL link, or another enabled decoder of the
device shares an address with it. -/
def decoderRefused (s : State) (lg : Fin 10) (k : Fin 8) (v : W64) : Prop :=
  fld v 48 34 < fld v 63 49 ∨ (s.lg lg).cxlUp.testBit (fld v 7 6) = false ∨
    ∃ m, m < 10 ∧ ∃ p ∈ (s.lg m).hdm, (m ≠ lg.val ∨ p.1 ≠ k.val) ∧ tbit p.2 0 = true ∧ fld v 63 49 ≤ fld p.2 48 34 ∧ fld p.2 63 49 ≤ fld v 48 34
/-- A request is outstanding and waits for its completion. -/
def Waiting (s : State) (lg : Fin 10) (tag : BitVec 10) (r : LgReq) : Prop :=
  (s.lg lg).reqs.find? (fun r => r.tag = tag.toNat) = some r ∧ r.abandoned = false
/-- A request serves a core's device load of one request. -/
def Serves (r : LgReq) (d : DevLoad) : Prop := ∃ p, d.parts = [p] ∧ p.tag = r.tag
/-- The request has ended. -/
def Ends (s t : State) (lg : Fin 10) (r : LgReq) : Prop := (t.lg lg).reqs = (s.lg lg).reqs.filter fun x => x.tag ≠ r.tag

end Sys2Proof.Claims

open Sys2Proof Sys2Proof.Machine Sys2Proof.Claims

/-- 16/R471 to R475, R483, R485, R486: the registers of the lane groups' control pages and of the host-attach functions. -/
def Obligations.LaneGroupRegisters : Prop :=
  ∀ (s : State) (lg : Fin 10) (v : W64),
    (Gives (.lgcCtl lg v) s fun t => t.lg lg = (if fld v 2 0 < 4 then { s.lg lg with ctl := w64 (fld v 2 0) } else s.lg lg) ∧ t.mem = s.mem) ∧
    (Gives (.lgcTags lg v) s fun t => t.lg lg = { s.lg lg with tags := (t.lg lg).tags } ∧ ∀ i, i < 4 → let c := fld v (10 * i + 9) (10 * i)
      fld (t.lg lg).tags (10 * i + 9) (10 * i) = if c = 0 ∨ 768 < c then fld (s.lg lg).tags (10 * i + 9) (10 * i) else c) ∧
    (∀ k : Fin 16, Gives (.lgcStrict lg k v) s fun t => (t.lg lg).strict.get 0 k = setFld v 11 1 0 ∧ (t.lg lg).hdm = (s.lg lg).hdm) ∧
    (∀ k : Fin 8,
      let old := (s.lg lg).hdm.get 0 k
      let m := setFld (setFld v 33 8 0) 4 2 0
      let become := fun (w : W64) => Gives (.lgcHdm lg k v) s fun t => (t.lg lg).hdm.get 0 k = w ∧ (t.lg lg).strict = (s.lg lg).strict ∧ t.mem = s.mem
      (tbit old 0 = true → setFld m 1 0 0 ≠ setFld old 1 0 0 → become old) ∧
      (tbit old 0 = true → setFld m 1 0 0 = setFld old 1 0 0 → become (setFld old 0 0 (fld v 0 0))) ∧
      (tbit old 0 = false → tbit v 0 = false → become (setFld m 1 1 (fld old 1 1))) ∧
      (tbit old 0 = false → tbit v 0 = true → decoderRefused s lg k v → become (setFld old 1 0 2)) ∧
      (tbit old 0 = false → tbit v 0 = true → ¬ decoderRefused s lg k v → become (setFld m 1 0 1))) ∧
    (∀ (ep : Fin 2) (cr : CreelId),
      let f := s.hf ep (cr.val + 1)
      let l := ((List.range 8).map fun k => (f.tgt.get 0 k, f.host.get 0 k)).filter fun p => fld p.1 5 0 ≠ 0
      let gives := fun (g : HostFn) => Gives (.hfCommit ep cr v) s fun t => t.hf ep (cr.val + 1) = g ∧ t.mem = s.mem
      let sized := ∀ p ∈ l, 12 ≤ fld p.1 5 0 ∧ fld p.1 5 0 ≤ 36
      let aligned := ∀ p ∈ l, fld p.2 35 12 * 4096 % 2 ^ fld p.1 5 0 = 0 ∧ fld p.1 51 12 * 4096 % 2 ^ fld p.1 5 0 = 0
      (tbit v 0 = false → gives f) ∧
      (tbit v 0 = true → sized → aligned → l.Pairwise (fun a b => ¬ windowsMeet a b) → gives { f with act := l, gen := (f.gen + 1) % 2 ^ 32 }) ∧
      (tbit v 0 = true → ¬ sized → gives { f with err := 3, cerr := true }) ∧
      (tbit v 0 = true → sized → ¬ aligned → gives { f with err := 1, cerr := true }) ∧
      (tbit v 0 = true → sized → aligned → ¬ l.Pairwise (fun a b => ¬ windowsMeet a b) → gives { f with err := 2, cerr := true })) ∧
    (∀ (ep : Fin 2) (cr : CreelId) (j : Fin 16), j.val ≠ 0 → let f := s.hf ep (cr.val + 1)
      Gives (.hfExport ep cr j v) s fun t => t.mem = s.mem ∧
        t.hf ep (cr.val + 1) = if fld v 15 14 = 3 then f else { f with exports := f.exports.set j (setFld (setFld v 63 16 0) 13 10 0) })

/-- 05/R160, R173, 16/R476 to R480: completions that arrive, that time out, that come late; the end of a tag's quarantine. -/
def Obligations.LaneCompletions : Prop :=
  ∀ (s : State) (lg : Fin 10) (tag : BitVec 10),
    let again := fun (t : State) => (t.lg lg).unexpected = (s.lg lg).unexpected + 1 ∧ (t.lg lg).aer = (s.lg lg).aer + 1 ∧ t.cores = s.cores ∧ t.mem = s.mem
    (∀ st b p, (s.lg lg).reqs.find? (fun r => r.tag = tag.toNat) = none → Gives (.completionArrival lg tag st b p) s again) ∧
    (∀ st b p r, (s.lg lg).reqs.find? (fun r => r.tag = tag.toNat) = some r → r.abandoned = true → Gives (.completionArrival lg tag st b p) s again) ∧
    (∀ r, Waiting s lg tag r →
      (∀ b (n : CoreId) d reg sz sg, r.what = 0 → r.core = n.val → (s.core n).dev = some d → Serves r d → d.lg = lg.val → d.dest = .reg reg sz sg → reg ≠ 0 →
        Gives (.completionArrival lg tag .ok b false) s fun t => Ends s t lg r ∧ (t.core n).dev = none ∧ (t.core n).x.pc = (s.core n).x.pc + 4 ∧
          (t.core n).x.rd reg = extend sz sg (leNat (b.take sz)) ∧ t.mem = s.mem) ∧
      (∀ b (n : CoreId) d, r.what = 0 → r.core = n.val → (s.core n).dev = some d → d.lg = lg.val → (∃ p ∈ d.parts, p.tag = r.tag) →
        (∃ p ∈ d.parts, p.tag ≠ r.tag ∧ p.data = none) → Gives (.completionArrival lg tag .ok b false) s fun t =>
          Ends s t lg r ∧ t.core n = { s.core n with dev := some (d.take r.tag b) } ∧ t.mem = s.mem) ∧
      (∀ st b p (n : CoreId) d, r.what = 0 → r.core = n.val → (s.core n).dev = some d → Serves r d → d.lg = lg.val → st ≠ .ok →
        (∀ cr, s.creelOf n = some cr → tbit ((s.core n).sysr 0x41) 7 = false) → Gives (.completionArrival lg tag st b p) s fun t =>
          Ends s t lg r ∧ (t.core n).dev = none ∧ (t.lg lg).aer = (s.lg lg).aer + 1 ∧ t.mem = s.mem ∧
          (∀ cr, s.creelOf n = some cr → (t.core n).sysr 0x40 = (s.core n).x.pc)) ∧
      (∀ b p, r.what = 4 → s.resetting = [] → s.stake.warm = false → Gives (.completionArrival lg tag .ok b p) s fun t => Ends s t lg r ∧
        t.mem = s.mem ∧ (t.seq r.core).strict = (s.seq r.core).strict.filter fun x => !(x.tag == r.tag && x.lg == lg.val)) ∧
      (∀ b p, r.what = 1 → s.resetting = [] → s.stake.warm = false → Gives (.completionArrival lg tag .ok b p) s fun t => Ends s t lg r ∧ t.mem = s.mem ∧
        (t.core r.core).strict = (s.core r.core).strict.filter fun x => !(x.tag == r.tag && x.lg == lg.val)) ∧
      (∀ b p i o d, r.what = 2 → r.core = i → (s.seq i).ops = [o] → o.dev = some (1024 * lg.val + r.tag, d) →
        Gives (.completionArrival lg tag .ok b p) s fun t => Ends s t lg r ∧
          (t.seq i).ops = [{ o with vals := (((regsOfDest d).zip (destVals d b)).filter (·.1 ≠ 0)).map (·.2), poison := p, done := true }]) ∧
      (∀ st b p, r.what = 3 → Gives (.completionArrival lg tag st b p) s fun t => Ends s t lg r ∧ t.cores = s.cores ∧
        (st ≠ .ok → t.log.length = s.log.length + 1))) ∧
    (∀ r, (s.lg lg).reqs.find? (fun r => r.tag = tag.toNat) = some r →
      (s.clock < r.due → exec (.completionTimeout lg tag) s = .next s) ∧
      (r.due ≤ s.clock → s.resetting = [] → s.stake.warm = false → (r.what ≠ 0 ∧ r.what ≠ 6) ∨ tbit ((s.core r.core).sysr 0x41) 7 = false →
        Gives (.completionTimeout lg tag) s fun t =>
        t.mem = s.mem ∧ Ends s t lg r ∧ (t.lg lg).quarantine = (s.lg lg).quarantine ++ [(r.tag, s.clock + 2 * s.cto lg)] ∧
          (t.lg lg).aer = (s.lg lg).aer + 1) ∧
      (r.due ≤ s.clock → r.what = 1 → s.resetting = [] → s.stake.warm = false → r.creel < 64 → Gives (.completionTimeout lg tag) s fun t =>
        tbit ((t.core r.core).sysr 0x12) 0 = true ∧ s.log.length < t.log.length)) ∧
    (Gives (.lateCompletion lg tag) s fun t => if (∃ q ∈ (s.lg lg).quarantine, q.1 = tag.toNat) then again t else t = s) ∧
    (Gives (.quarantineEnd lg tag) s fun t => ∀ q, q ∈ (t.lg lg).quarantine ↔ (q ∈ (s.lg lg).quarantine ∧ (q.1 ≠ tag.toNat ∨ s.clock < q.2)))

/-- 16/R468, R472, R480 to R482, R484, R485, R488, 17/R505: requests of devices and hosts, MSIs, a host's accesses to exported pages, outbound
accesses, MSI-X messages and what a host configures. -/
def Obligations.InboundAndHostAccesses : Prop :=
  ∀ (s : State) (lg : Fin 10) (fn : Fin 65),
    (∀ rq, s.laneUp lg fn = false → exec (.inboundRequest lg fn rq) s = .next s) ∧
    (s.laneUp lg fn = true →
      (∀ a n, 4096 < a.toNat % 4096 + n → Gives (.inboundRequest lg fn (.read a n)) s fun t =>
        (t.lg lg).aer = (s.lg lg).aer + 1 ∧ t.emitted = s.emitted ∧ t.mem = s.mem) ∧
      (∀ a n, a.toNat % 4096 + n ≤ 4096 → s.laneCreel lg fn = none → Gives (.inboundRequest lg fn (.read a n)) s fun t =>
        (t.lg lg).aer = (s.lg lg).aer + 1 ∧ t.mem = s.mem ∧ t.emitted = s.emitted ++ [completion lg fn 1 false []]) ∧
      (∀ cr pa, s.laneCreel lg fn = some cr → pa < msgPage →
        (∀ a n, a.toNat % 4096 + n ≤ 4096 → s.inboundPa lg fn a.toNat n = some pa → s.inboundMem pa n = true → s.dmaOk cr pa n false = true →
          (s.poisonedRange pa n = false → Gives (.inboundRequest lg fn (.read a n)) s fun t =>
            t.emitted = s.emitted ++ [completion lg fn 0 false (s.rdBytes pa n)] ∧ t.mem = s.mem) ∧
          (s.poisonedRange pa n = true → Gives (.inboundRequest lg fn (.read a n)) s fun t =>
            t.emitted = s.emitted ++ [completion lg fn 0 true (s.rdBytes pa n)] ∧ t.mem = s.mem ∧ s.log.length < t.log.length)) ∧
        (∀ a n, a.toNat % 4096 + n ≤ 4096 → s.inboundPa lg fn a.toNat n = some pa → s.dmaOk cr pa n false = false →
          Gives (.inboundRequest lg fn (.read a n)) s fun t => t.emitted = s.emitted ++ [completion lg fn 1 false []] ∧ t.mem = s.mem ∧
            t.log.length = s.log.length + 1) ∧
        (∀ a b, b.length ≤ 512 → a.toNat % 4096 + b.length ≤ 4096 → s.inboundPa lg fn a.toNat b.length = some pa → s.inboundMem pa b.length = true →
          (s.dmaOk cr pa b.length true = true → Gives (.inboundRequest lg fn (.write a b false)) s fun t => Lands s t pa b) ∧
          (s.dmaOk cr pa b.length true = false → Gives (.inboundRequest lg fn (.write a b false)) s fun t => t.mem = s.mem ∧ t.emitted = s.emitted)) ∧
        (∀ a n op x y, n = 4 ∨ n = 8 ∨ (n = 16 ∧ op = .cas) → a.toNat % 4096 + n ≤ 4096 → s.inboundPa lg fn a.toNat n = some pa → pa % n = 0 →
          s.region pa = .dram → s.inboundMem pa n = true → s.dmaOk cr pa n false = true → s.dmaOk cr pa n true = true → s.poisonedRange pa n = false →
          let old := leNat (s.rdBytes pa n)
          Gives (.inboundRequest lg fn (.atomic a n op x y)) s fun t => t.emitted.getLast? = some (completion lg fn 0 false (toLe n old)) ∧
            Lands s t pa (toLe n (match op with | .fetchAdd => old + x | .swap => x | .cas => if old = y % 2 ^ (8 * n) then x else old)))) ∧
      (∀ cr (data : W32), let src := data.toNat % 8192
        s.laneCreel lg fn = some cr →
        ((s.src src).holder = some cr → s.role cr ≠ 1 → Gives (.inboundMsi lg fn 0 data) s fun t => t.src src = { s.src src with pending := true } ∧
          t.mem = s.mem) ∧
        ((s.src src).holder ≠ some cr → Gives (.inboundMsi lg fn 0 data) s fun t => t.src src = s.src src ∧ t.log.length = s.log.length + 1))) ∧
    (∀ (ep : Fin 2) (v : W64), s.hostMode (8 + ep.val) = true → s.laneUp (8 + ep.val) fn = true → fn.val ≠ 0 →
      (s.vfLive ep fn = false → Gives (.hostPageAccess ep fn 0 false 8 v) s fun t =>
        t.emitted = s.emitted ++ [completion (8 + ep.val) fn 1 false (toLe 8 0)] ∧ t.mem = s.mem) ∧
      (s.vfLive ep fn = true →
        (Gives (.hostPageAccess ep fn 0 false 8 v) s fun t => t.mem = s.mem ∧ t.emitted = s.emitted ++
          [completion (8 + ep.val) fn 0 false (toLe 8 (w64 (s.role (fn.val - 1) % 16 * 16 + creelCode (s.creel (fn.val - 1)).st)).toNat)]) ∧
        (exec (.hostPageAccess ep fn 0 true 8 v) s = .next s) ∧
        (∀ (off : BitVec 16) pg, 1 ≤ off.toNat / 4096 → off.toNat % 8 = 0 →
          let w := (s.hf ep fn).exports.get 0 (off.toNat / 4096)
          fld w 15 14 ≠ 0 → s.exportPage (fn.val - 1) w = some pg →
          exec (.hostPageAccess ep fn off true 8 v) s = .next (s.regWrite none 64 (pg + off.toNat % 4096) 8 v.toNat) ∧
          Gives (.hostPageAccess ep fn off false 8 v) s fun t =>
            t.emitted.getLast? = some (completion (8 + ep.val) fn 0 false (toLe 8 (s.regRead none 64 (pg + off.toNat % 4096) 8).2))))) ∧
    (∀ (ep : Fin 2) (cr : CreelId) (off : BitVec 31) (data : Bytes), s.hostMode (8 + ep.val) = true → tbit (s.lg (8 + ep.val)).hamask cr = true →
      let at_ := 0x200000000 + 0x80000000 * cr.val + off.toNat
      let pa := 0x100000000000 + 0x4000000000 * (8 + ep.val) + at_
      let f := s.hf ep (cr.val + 1)
      let host := fld f.outb 63 12 * 4096 + off.toNat
      let write : Emit := { kind := 15, words := ep.val :: (cr.val + 1) :: data.zipIdx.flatMap fun p => [host + p.2, p.1.toNat] }
      (data ≠ [] → host < 2 ^ 64 → f.bme = true → s.segOk cr pa { r := false, w := true, x := false, dma := true } = true →
        (s.strictWindow (8 + ep.val) at_ = none → Gives (.outboundAccess ep cr off true none data) s fun t =>
          t.mem = s.mem ∧ t.emitted = s.emitted ++ [write]) ∧
        (∀ w tag, s.strictWindow (8 + ep.val) at_ = some w → s.freeTag (8 + ep.val) (cr.val + 1) = some tag →
          Gives (.outboundAccess ep cr off true none data) s fun t => t.mem = s.mem ∧
            t.emitted = s.emitted ++ [write, { kind := 16, words := [8 + ep.val, cr.val + 1, tag, host, 0] }] ∧
            ∃ r, (t.lg (8 + ep.val)).reqs = (s.lg (8 + ep.val)).reqs ++ [r] ∧ r.tag = tag ∧ r.what = 5 ∧ r.creel = cr.val ∧
              r.due = s.clock + s.cto (8 + ep.val))) ∧
      (∀ tag, f.bme = true → s.segOk cr pa { r := true, w := false, x := false, dma := true } = true → s.freeTag (8 + ep.val) (cr.val + 1) = some tag →
        Gives (.outboundAccess ep cr off false none data) s fun t => ∃ r, (t.lg (8 + ep.val)).reqs = (s.lg (8 + ep.val)).reqs ++ [r] ∧ r.tag = tag ∧
          r.port = cr.val + 1 ∧ r.pa = pa ∧ r.due = s.clock + s.cto (8 + ep.val) ∧ r.abandoned = false) ∧
      (f.bme = false → s.segOk cr pa { r := true, w := false, x := false, dma := true } = true → Gives (.outboundAccess ep cr off false none data) s fun t =>
        t.log.length = s.log.length + 1 ∧ t.emitted = s.emitted ∧ t.lg (8 + ep.val) = { s.lg (8 + ep.val) with aer := (s.lg (8 + ep.val)).aer + 1 })) ∧
    (∀ (ep : Fin 2) (vec : Fin 2048), let f := s.hf ep fn; let m := f.msix.get msixReset vec
      (s.laneUp (8 + ep.val) 0 = true → s.vfLive ep fn = true → f.bme = true → f.fmask = false → m.mask = false → m.pend = true →
        Gives (.msiXMessage ep fn vec) s fun t => t.emitted = s.emitted ++ [{ kind := 4, words := [ep.val, fn.val, m.addr.toNat, m.data.toNat] }] ∧
          (t.hf ep fn).msix.get msixReset vec = { m with pend := false } ∧ t.mem = s.mem) ∧
      (f.fmask = true ∨ m.mask = true ∨ m.pend = false → exec (.msiXMessage ep fn vec) s = .next s)) ∧
    (∀ ep : Fin 2, s.hostMode (8 + ep.val) = true → s.laneUp (8 + ep.val) 0 = true →
      (∀ on, Gives (.hostConfigWrite ep 0 (.busMaster on)) s fun t => t.hf ep 0 = { s.hf ep 0 with bme := on }) ∧
      (∀ on, Gives (.hostConfigWrite ep 0 (.functionMask on)) s fun t => t.hf ep 0 = { s.hf ep 0 with fmask := on }) ∧
      (∀ n, n ≤ 64 → (s.hf ep 0).vfEnable = false → Gives (.hostConfigWrite ep 0 (.numVfs n)) s fun t => (t.hf ep 0).numVfs = n) ∧
      (Gives (.hostConfigWrite ep 0 (.vfEnable true)) s fun t => t.hf ep 0 = { s.hf ep 0 with vfEnable := true }) ∧
      (Gives (.hostConfigWrite ep 0 (.vfEnable false)) s fun t => (t.hf ep 0).vfEnable = false ∧ ∀ v, 1 ≤ v → v ≤ 64 → (t.hf ep v).bme = false) ∧
      (∀ n a d mk, n < 2048 → Gives (.hostConfigWrite ep 0 (.vector n a d mk)) s fun t => (t.hf ep 0).msix.get msixReset n =
        { addr := a, data := d, mask := mk, pend := ((s.hf ep 0).msix.get msixReset n).pend }) ∧
      (∀ enc : BitVec 4, Gives (.hostConfigWrite ep 0 (.timeout enc)) s fun t =>
        (t.lg (8 + ep.val)).cto = if enc.toNat ∈ [0, 1, 2, 5, 6, 9, 10, 13, 14] then enc.toNat else (s.lg (8 + ep.val)).cto))

/-- 16/R479, R487, 17/R499, 23/R609: resets of a host-attach endpoint, and links that train, fall and come back. -/
def Obligations.EndpointResetsAndLinks : Prop :=
  ∀ (s : State),
    (∀ ep : Fin 2, let lg := 8 + ep.val
      (s.hostMode lg = true → Gives (.perstN ep) s fun t => (∀ n, n < 65 → t.hf ep n = (s.hf ep n).hostReset) ∧ t.lg lg = { s.lg lg with
        ctl := 1, cto := 0, linkUp := 0, reqs := (s.lg lg).reqs.map fun r => { r with abandoned := true } } ∧ t.mem = s.mem) ∧
      (s.hostMode lg = true → Gives (.functionLevelReset ep 0) s fun t => (∀ n, n < 65 → t.hf ep n = (s.hf ep n).hostReset) ∧ t.lg lg = { s.lg lg with
        ctl := 1, cto := 0, reqs := (s.lg lg).reqs.map fun r => { r with abandoned := true } } ∧ t.mem = s.mem) ∧
      (∀ fn : Fin 65, fn.val ≠ 0 → s.hostMode lg = true → s.resetting = [] → s.stake.warm = false → Gives (.functionLevelReset ep fn) s fun t =>
        let strict := fun (r : LgReq) => decide (r.port = fn.val) && (r.what == 1 || r.what == 4 || r.what == 5)
        t.hf ep fn = (s.hf ep fn).hostReset ∧ (∀ n, n ≠ fn.val → n < 65 → t.hf ep n = s.hf ep n) ∧ t.mem = s.mem ∧ t.log = s.log ∧
        (t.lg lg).reqs = ((s.lg lg).reqs.filter fun r => !strict r).map (fun r => if r.port = fn.val then { r with abandoned := true } else r) ∧
        (t.lg lg).quarantine = (s.lg lg).quarantine ++ ((s.lg lg).reqs.filter strict).map fun r => (r.tag, s.clock + 2 * s.cto lg)) ∧
      (s.hostMode lg = false → exec (.perstN ep) s = .next s)) ∧
    (∀ (lg : Fin 10) (p : Fin 4), p.val < (s.lg lg).ports →
      ((s.lg lg).linkUp.testBit p = true → Gives (.linkStateChange lg p) s fun t => (t.lg lg).ctl = 3 ∧ (t.lg lg).linkUp = (s.lg lg).linkUp - 2 ^ p.val ∧
        t.mem = s.mem) ∧
      ((s.lg lg).linkUp.testBit p = false → exec (.linkStateChange lg p) s = .next s) ∧
      (Gives (.dpcRelease lg p true) s fun t => t.lg lg = { s.lg lg with ctl := 3 }) ∧ (exec (.dpcRelease lg p false) s = .next s) ∧
      (∀ cxl narrow, (s.lg lg).linkUp.testBit p = false → Gives (.linkTrained (.root lg p cxl narrow)) s fun t =>
        t.perstPin lg p = (if s.hostMode lg then none else some true) ∧
        (t.bank 4 lg).corrected = (s.bank 4 lg).corrected + (if narrow then 1 else 0) ∧
        (t.lg lg).linkUp = (s.lg lg).linkUp ||| 2 ^ p.val ∧ (t.lg lg).ctl = (if (s.lg lg).wasUp.testBit p then 3 else (s.lg lg).ctl) ∧
        (t.lg lg).cxlUp.testBit p = ((s.lg lg).cxlUp.testBit p || (cxl && tbit (s.lg lg).cfg 3)))) ∧
    (∀ lg : Fin 10, s.hostMode lg = true → Gives (.linkTrained (.endpoint lg)) s fun t => t.lg lg = { s.lg lg with linkUp := 1 }) ∧
    (∀ p : Fin 8, (fld (s.lport p).set 2 0 ≠ 0 → (s.lport p).up = false → Gives (.linkTrained (.line p)) s fun t =>
        t.lport p = { s.lport p with up := true, paused := 0, prios := [] } ∧ t.mem = s.mem) ∧
      ((s.lport p).up = true → Gives (.linePortLinkDown p) s fun t => t.lport p = { s.lport p with up := false } ∧ t.mem = s.mem) ∧
      ((s.lport p).up = false → exec (.linePortLinkDown p) s = .next s))

/-- 16/R490 to R496: the reception and the transmission of a frame on a line port. -/
def Obligations.LinePortFrames : Prop :=
  ∀ (s : State) (port : Fin 8),
    (∀ b ok, (s.lport port).up = false → exec (.frameReceive port b ok) s = .next s) ∧
    (∀ b ok, (s.lport port).up = true →
      let dropped := Gives (.frameReceive port b ok) s fun t =>
        t.lport port = { s.lport port with drops := (s.lport port).drops + 1 } ∧ t.mem = s.mem ∧ t.lqs = s.lqs
      (ok = false ∨ b.length < 60 ∨ 9216 < b.length → dropped) ∧
      (ok = true → 60 ≤ b.length → b.length ≤ 9216 →
        (frameType b = 0x8808 → Gives (.frameReceive port b ok) s fun t => t.lqs = s.lqs ∧ t.mem = s.mem ∧
          (be16 b 14 = 1 → tbit (s.lport port).set 6 = true →
            (t.lport port).paused = s.clock + be16 b 16 * 512 * 2 ^ 32 / portRate (s.lport port).set) ∧
          (be16 b 14 ≠ 1 ∨ tbit (s.lport port).set 6 = false → (t.lport port).paused = (s.lport port).paused)) ∧
        (frameType b ≠ 0x8808 → s.stakePtp port b = true → exec (.frameReceive port b ok) s = .next s) ∧
        (frameType b ≠ 0x8808 → s.stakePtp port b = false → s.frameCreels port b = [] → dropped) ∧
        (∀ cr slot rule ws, frameType b ≠ 0x8808 → s.stakePtp port b = false → s.frameCreels port b = [cr] → s.lineRuns cr = true → s.frameSlot cr b = some (slot, rule) →
          let k := 16 * cr + slot
          let x := s.lq k
          let buf := (ws.getD 0 0).toNat
          let a := x.rx.cqBase + 32 * ((x.rx.cqProd + s.linePending k false) % x.rx.size)
          s.lqs.has k = true → x.port = port.val → x.rx.ready (s.linePending k false) = true → s.ringRead cr lrxKind x.rx = .inr ws →
          (fld (ws.getD 1 0) 31 0 < b.length → Gives (.frameReceive port b ok) s fun t => t.lqs = s.lqs ∧ t.mem = s.mem) ∧
          (b.length ≤ fld (ws.getD 1 0) 31 0 → s.dmaOk cr buf b.length true = true → s.dmaOk cr a 32 true = true → s.role cr ≠ 1 →
            Gives (.frameReceive port b ok) s fun t => (t.lq k).rx.taken = (x.rx.taken + 1) % 2 ^ 32 ∧ (t.lq k).rx.cqProd = (x.rx.cqProd + 1) % 2 ^ 32 ∧
              (buf + b.length ≤ a ∨ a + 32 ≤ buf → Lands s t buf b) ∧
              Lands s t a (entryBytes
                [w64 (x.rx.taken * 2 ^ 32 + b.length * 65536 + rule * 256 + (if ptpEvent b then 2 else 0) + (if frameTagged b then 1 else 0)),
                 w64 s.hoop.sec, w64 (s.hoop.st % 4 * 2 ^ 32 + s.hoop.frac % 2 ^ 32), w64 (frameTci b)]))))) ∧
    (∀ k ws, s.txReady port = [k] →
      let cr := k / 16
      let x := s.lq k
      let a := x.tx.cqBase + 32 * ((x.tx.cqProd + s.linePending k true) % x.tx.size)
      let src := (ws.getD 0 0).toNat
      let n := fld (ws.getD 1 0) 15 0
      s.ringRead cr ltxKind x.tx = .inr ws → s.role cr ≠ 1 → s.dmaOk cr a 32 true = true →
      Gives (.frameTransmit port) s fun t => (t.lq k).tx.taken = (x.tx.taken + 1) % 2 ^ 32 ∧ (t.lq k).tx.cqProd = (x.tx.cqProd + 1) % 2 ^ 32 ∧
        (t.lport port).turn = k + 1 ∧
        (∀ st, (ws.getD 2 0 ≠ 0 ∨ ws.getD 3 0 ≠ 0 → st = 0x0203) → (ws.getD 2 0 = 0 → ws.getD 3 0 = 0 →
            (n < 60 ∨ 9216 < n → st = 0x0202) ∧ (60 ≤ n → n ≤ 9216 →
              (s.dmaOk cr src n false = false ∨ s.poisonedRange src n = true → st = 0x0109) ∧
              (s.dmaOk cr src n false = true → s.poisonedRange src n = false →
                let mine := (s.lport port).addrs.any fun e => tbit e.2.1 63 && fld e.2.2 19 13 == cr && fld e.2.1 47 0 == macAt (s.rdBytes src n) 6
                (mine = false → st = 0x0204) ∧ (mine = true → st = if (s.lport port).up then 0 else 0x0401)))) →
          (st = 0 → { kind := 5, words := port.val :: (s.rdBytes src n).map (·.toNat) } ∈ t.emitted) ∧
          (st ≠ 0 → ∀ e ∈ t.emitted, e.kind = 5 → e ∈ s.emitted) ∧
          Lands s t a (toLe 8 (w64 (fld (ws.getD 1 0) 63 32 * 2 ^ 32 + st * 65536 + x.tx.taken % 65536)).toNat))) ∧
    (s.txReady port = [] ∨ s.clock < (s.lport port).paused → exec (.frameTransmit port) s = .next s)

/-- 00/R8 to R12, 09/R258, 17/R498 to R506, 20/R566: the interrupt router, events and vectors, the frozen counters, and register writes by
address. -/
def Obligations.RouterAndRegisterPages : Prop :=
  ∀ (s : State) (cr : CreelId) (v : W64),
    (let i := fld v 63 51; let dest := fld v 49 48
     let ok := (s.src i).holder = some cr.val ∧ dest ≠ 3 ∧ (dest = 2 → (s.endpointOf cr).isSome = true ∧ fld v 31 24 ≤ 63) ∧
       (dest ≠ 2 → s.creelOf (fld v 47 40) = some cr.val)
     (ok → Gives (.irSrcWrite cr v) s fun t => t.mem = s.mem ∧ t.src i =
       { holder := some cr.val, dest := dest, core := fld v 47 40, vector := fld v 31 24, mask := tbit v 0,
         pending := ((s.src i).pending && !tbit v 1) || tbit v 2 }) ∧
     (¬ ok → Gives (.irSrcWrite cr v) s fun t => t.log.length = s.log.length + 1 ∧ t.mem = s.mem ∧ t.cores = s.cores ∧
       ((s.src i).holder ≠ some cr.val → t.src i = s.src i))) ∧
    (let n := fld v 47 40
     (s.creelOf n = some cr.val → Gives (.irIpi cr v) s fun t =>
        (tbit v 32 = true → bankBit (t.core n).svec (fld v 31 24) = true) ∧ (tbit v 32 = false → bankBit (t.core n).upend (fld v 31 24) = true) ∧
        (∀ m, m ≠ n → t.core m = s.core m) ∧ t.mem = s.mem) ∧
     (s.creelOf n ≠ some cr.val → Gives (.irIpi cr v) s fun t => t.cores = s.cores ∧ t.log.length = s.log.length + 1)) ∧
    (∀ src : BitVec 13, let i := src.toNat; let e := s.src i
      (e.holder = some cr.val → Gives (.event src cr) s fun t => t = s.setSrc i { e with pending := true }) ∧
      (e.holder ≠ some cr.val → Gives (.event src cr) s fun t => t.src i = e ∧ t.log.length = s.log.length + 1) ∧
      (e.pending = false ∨ e.mask = true → exec (.vectorDelivery src) s = .next s) ∧
      (e.dest ≠ 2 → (s.core e.core).run = .paused → exec (.vectorDelivery src) s = .next s) ∧
      (e.holder = some cr.val → e.pending = true → e.mask = false → (e.dest = 2 ∨ (s.core e.core).run ≠ .paused) →
        (e.dest = 0 → s.creelOf e.core = some cr.val → Gives (.vectorDelivery src) s fun t =>
          bankBit (t.core e.core).upend e.vector = true ∧ t.src i = { e with pending := false }) ∧
        (e.dest = 1 → s.creelOf e.core = some cr.val → Gives (.vectorDelivery src) s fun t =>
          bankBit (t.core e.core).svec e.vector = true ∧ t.src i = { e with pending := false }) ∧
        (e.dest = 2 → ∀ ep, s.endpointOf cr = some ep → Gives (.vectorDelivery src) s fun t =>
          ((t.hf ep (cr.val + 1)).msix.get msixReset e.vector).pend = true ∧ t.src i = { e with pending := false } ∧ t.cores = s.cores) ∧
        (e.dest ≠ 2 → s.creelOf e.core ≠ some cr.val → Gives (.vectorDelivery src) s fun t => t = s.setSrc i { e with pending := false }))) ∧
    (tbit v 0 = true → Gives (.ucFreeze cr v) s fun t => ∀ i, i < 17 → (t.creel cr).ucFrozen.get 0 (8 * i) = s.ucLive cr (8 * i) ∧
      (t.creel cr).uc = (s.creel cr).uc) ∧
    (tbit v 0 = false → exec (.ucFreeze cr v) s = .next s) ∧
    (∀ (core : Option CoreId) (pa : W64), (∀ n, core = some n → s.creelOf n = some cr.val) →
      (s.segOk cr pa.toNat { r := false, w := true, x := false, dma := false } = false → ∀ size, exec (.registerWrite core cr pa size v) s = .next s) ∧
      (∀ size : Fin 9, size.val ≠ 8 ∨ pa.toNat % 8 ≠ 0 → core = none ∨ size = 0 ∨ pa.toNat % size.val = 0 →
        exec (.registerWrite core cr pa size v) s = .next s) ∧
      (∀ n (size : Fin 9), core = some n → s.segOk cr pa.toNat { r := false, w := true, x := false, dma := false } = true → size ≠ 0 →
        pa.toNat % size.val ≠ 0 → exec (.registerWrite core cr pa size v) s = .next (s.takeExc n 8 (some pa) (einfoOf false (log2Size size) 0 4))) ∧
      (s.segOk cr pa.toNat { r := false, w := true, x := false, dma := false } = true →
        let as_ := fun (i : Instr) => Gives (.registerWrite core cr pa 8 v) s fun t => exec i s = .next t
        (∀ r : Fin 1024, pa.toNat = 0xFF00100000000 + 4096 * r.val + 0x10 → as_ (.hrCtrl r v)) ∧
        (∀ r : Fin 1024, pa.toNat = 0xFF00100000000 + 4096 * r.val + 0x18 → as_ (.hrDoorbell r v)) ∧
        (∀ n : Fin 256, pa.toNat = 0xFF00200000000 + 4096 * n.val + 0x18 → as_ (.pqDoorbell n v)) ∧
        (pa.toNat = 0xFF00001000000 + 4096 * cr.val → as_ (.irSrcWrite cr v)) ∧
        (pa.toNat = 0xFF00001000000 + 4096 * cr.val + 0x18 → as_ (.irIpi cr v)) ∧
        (pa.toNat = 0xFF00400000000 + 4096 * cr.val + 0x100 → as_ (.ucFreeze cr v))))

open Sys2Proof Sys2Proof.Machine Sys2Proof.Claims

/-- A step takes the command at the front of the queue and answers its outcome on the state with the queue's rest. -/
def Sys2Proof.Claims.StepRunsTheFrontCommand : Prop :=
  ∀ (c : Instr) (r : List Instr) (s : State), s.pending = c :: r → Machine.step s = exec c { s with pending := r }

/-- With no command waiting only time passes, and no power, no Hoop time (the model's choice, log entry 24). -/
def Sys2Proof.Claims.EmptyQueuePassesTime : Prop :=
  ∀ (s : State), s.pending = [] → ∃ t, Machine.step s = .next t ∧ s.clock < t.clock ∧
    (s.power = 0 → t = { s with clock := t.clock, free := t.free }) ∧
    (s.power ≠ 0 → t = { s with clock := t.clock, free := t.free, hoop := t.hoop } ∧ t.now = s.now + (t.clock - s.clock) ∧
      t.hoop = { s.hoop with sec := t.hoop.sec, frac := t.hoop.frac, saved := t.hoop.saved } ∧
      (t.hoop.saved = s.hoop.saved ∨ t.hoop.saved = some (t.hoop.sec / 64 * 64)))
/-- A step runs the front command on the rest of the queue; with none waiting only time passes (the model's choice, log entry 24). -/
def Obligations.StepRunsTheQueue : Prop :=
  Claims.StepRunsTheFrontCommand ∧ Claims.EmptyQueuePassesTime


/-- No command ends in a fault or a refusal: on every state each has an effect. -/
def Obligations.EveryCommandAnswersANextState : Prop := ∀ (c : Instr) (s : State), ∃ t, exec c s = .next t

/-- Memory keeps its canonical form in every step. -/
def Obligations.StepKeepsMemoryCanonical : Prop :=
  ∀ (s t : State), s.memOk → Machine.step s = .next t → t.memOk

/-- After reset: memory is canonical and lists nothing, and what the spec gives a reset value holds it (03/R98, R101, R102, 08/R249, 09/R255,
12/R339, 15/R453, 16/R471, R475, 17/R500, R509, 20/R558, 18/R519). -/
def Obligations.ResetValues : Prop :=
  let s := State.reset
  s.memOk ∧ s.mem.cells = [] ∧ s.pending = [] ∧
  (∀ n, (s.core n).run = .stopped ∧ (s.core n).sysr 0 = 1 ∧ (s.core n).sb = [] ∧
    ∀ r ∈ [0x001, 0x004, 0x010, 0x011, 0x012, 0x021, 0x022, 0x041, 0x080, 0x081], (s.core n).sysr r = 0) ∧
  (∀ i, (s.seq i).run = false ∧ (s.seq i).mode = 0) ∧ (∀ c, (s.chan c).st = .untrained) ∧
  (∀ c, (s.creel c).st = .unassigned ∧ (s.creel c).notice = 0 ∧ (s.creel c).eb.prod = 0 ∧ (s.creel c).eb.cons = 0) ∧
  (∀ r, (s.hring r).ring = 4 ∧ (s.hring r).ctl = 0 ∧ (s.hring r).prod = 0 ∧ (s.hring r).cons = 0) ∧
  (∀ q, (s.pq q).ring.ring = 4 ∧ (s.pq q).ring.ctl = 0 ∧ (s.pq q).trace = 0) ∧
  (∀ i, s.src i = { holder := none, dest := 1, core := 0, vector := 0, mask := true, pending := false }) ∧
  (∀ g, (s.lg g).ctl = 1 ∧ ∀ i, i < 4 → fld (s.lg g).tags (10 * i + 9) (10 * i) = 0x300) ∧
  (∀ e n, (s.hf e n).ctl = 0x300) ∧ (∀ c, s.pairCfg c = 0x3E8001E0000 ∧ s.role c = 0) ∧ s.hoop.st = 0
end

