-- ==== Sys2Proof/Laws/Map.lean ====
section
/-!
SUPPORT. The laws of the sparse map: what a key reads as after a write or a removal.
-/
namespace Sys2Proof

variable {α : Type}

@[simp] theorem FMap.get_nil (d : α) (k : Nat) : FMap.get d [] k = d := rfl
/-- The key written reads as the value written. -/
@[simp] theorem FMap.get_set_self (d : α) (m : FMap α) (k : Nat) (v : α) : FMap.get d (m.set k v) k = v := by
  induction m with
  | nil => simp [FMap.set, FMap.get]
  | cons p r ih =>
    obtain ⟨j, w⟩ := p
    simp only [FMap.set]
    split
    · simp [FMap.get]
    · split
      · simp [FMap.get]
      · rename_i h
        simp only [FMap.get, if_neg (Ne.symm h), ih]
/-- Every other key reads as before. -/
theorem FMap.get_set_ne (d : α) (m : FMap α) {k j : Nat} (v : α) (h : j ≠ k) :
    FMap.get d (m.set k v) j = FMap.get d m j := by
  induction m with
  | nil => simp [FMap.set, FMap.get, Ne.symm h]
  | cons p r ih =>
    obtain ⟨i, w⟩ := p
    simp only [FMap.set]
    split
    · simp [FMap.get, Ne.symm h]
    · split
      · rename_i e
        subst e
        simp [FMap.get, Ne.symm h]
      · simp only [FMap.get, ih]
/-- A read after a write, by cases on the key. -/
theorem FMap.get_set (d : α) (m : FMap α) (k j : Nat) (v : α) :
    FMap.get d (m.set k v) j = if j = k then v else FMap.get d m j := by
  by_cases h : j = k
  · subst h; simp
  · simp [h, FMap.get_set_ne d m v h]
@[simp] theorem FMap.has_set_self (m : FMap α) (k : Nat) (v : α) : FMap.has (m.set k v) k = true := by
  induction m with
  | nil => simp [FMap.set, FMap.has]
  | cons p r ih =>
    obtain ⟨j, w⟩ := p
    simp only [FMap.set]
    split
    · simp [FMap.has]
    · split
      · simp [FMap.has]
      · rename_i h
        simp only [FMap.has, if_neg (Ne.symm h), ih]
theorem FMap.has_set_ne (m : FMap α) {k j : Nat} (v : α) (h : j ≠ k) : FMap.has (m.set k v) j = FMap.has m j := by
  induction m with
  | nil => simp [FMap.set, FMap.has, Ne.symm h]
  | cons p r ih =>
    obtain ⟨i, w⟩ := p
    simp only [FMap.set]
    split
    · simp [FMap.has, Ne.symm h]
    · split
      · rename_i e
        subst e
        simp [FMap.has, Ne.symm h]
      · simp only [FMap.has, ih]
/-- Writing twice at one key keeps the last value. -/
@[simp] theorem FMap.set_set (m : FMap α) (k : Nat) (v w : α) : (m.set k v).set k w = m.set k w := by
  induction m with
  | nil => simp [FMap.set]
  | cons p r ih =>
    obtain ⟨j, x⟩ := p
    simp only [FMap.set]
    split
    · simp [FMap.set]
    · split
      · simp [FMap.set]
      · rename_i h1 h2
        simp only [FMap.set, if_neg h1, if_neg h2, ih]

end Sys2Proof
end

