-- ==== Sys2Proof/Laws/State.lean ====
section
/-!
SUPPORT. One lemma per field and per update of the state: which field an update changes and that every other one stays.
-/
namespace Sys2Proof.Machine

/-! ### setCore -/
@[simp] theorem State.setCore_cores (s : State) (n : Nat) (c : Core) : (s.setCore n c).cores = s.cores.set n c := rfl
@[simp] theorem State.setCore_seqs (s : State) (n : Nat) (c : Core) : (s.setCore n c).seqs = s.seqs := rfl
@[simp] theorem State.setCore_coreTile (s : State) (n : Nat) (c : Core) : (s.setCore n c).coreTile = s.coreTile := rfl
@[simp] theorem State.setCore_coreCreel (s : State) (n : Nat) (c : Core) : (s.setCore n c).coreCreel = s.coreCreel := rfl
@[simp] theorem State.setCore_mem (s : State) (n : Nat) (c : Core) : (s.setCore n c).mem = s.mem := rfl
@[simp] theorem State.setCore_tiles (s : State) (n : Nat) (c : Core) : (s.setCore n c).tiles = s.tiles := rfl
@[simp] theorem State.setCore_slices (s : State) (n : Nat) (c : Core) : (s.setCore n c).slices = s.slices := rfl
@[simp] theorem State.setCore_bridges (s : State) (n : Nat) (c : Core) : (s.setCore n c).bridges = s.bridges := rfl
@[simp] theorem State.setCore_chans (s : State) (n : Nat) (c : Core) : (s.setCore n c).chans = s.chans := rfl
@[simp] theorem State.setCore_qosCfg (s : State) (n : Nat) (c : Core) : (s.setCore n c).qosCfg = s.qosCfg := rfl
@[simp] theorem State.setCore_installed (s : State) (n : Nat) (c : Core) : (s.setCore n c).installed = s.installed := rfl
@[simp] theorem State.setCore_creels (s : State) (n : Nat) (c : Core) : (s.setCore n c).creels = s.creels := rfl
@[simp] theorem State.setCore_ringHolder (s : State) (n : Nat) (c : Core) : (s.setCore n c).ringHolder = s.ringHolder := rfl
@[simp] theorem State.setCore_pqHolder (s : State) (n : Nat) (c : Core) : (s.setCore n c).pqHolder = s.pqHolder := rfl
@[simp] theorem State.setCore_lgs (s : State) (n : Nat) (c : Core) : (s.setCore n c).lgs = s.lgs := rfl
@[simp] theorem State.setCore_hoop (s : State) (n : Nat) (c : Core) : (s.setCore n c).hoop = s.hoop := rfl
@[simp] theorem State.setCore_emitted (s : State) (n : Nat) (c : Core) : (s.setCore n c).emitted = s.emitted := rfl
@[simp] theorem State.setCore_sources (s : State) (n : Nat) (c : Core) : (s.setCore n c).sources = s.sources := rfl
@[simp] theorem State.setCore_log (s : State) (n : Nat) (c : Core) : (s.setCore n c).log = s.log := rfl
@[simp] theorem State.setCore_banks (s : State) (n : Nat) (c : Core) : (s.setCore n c).banks = s.banks := rfl
@[simp] theorem State.setCore_stake (s : State) (n : Nat) (c : Core) : (s.setCore n c).stake = s.stake := rfl
@[simp] theorem State.setCore_bbkm (s : State) (n : Nat) (c : Core) : (s.setCore n c).bbkm = s.bbkm := rfl
@[simp] theorem State.setCore_vault (s : State) (n : Nat) (c : Core) : (s.setCore n c).vault = s.vault := rfl
@[simp] theorem State.setCore_reserve (s : State) (n : Nat) (c : Core) : (s.setCore n c).reserve = s.reserve := rfl
@[simp] theorem State.setCore_unitCreel (s : State) (n : Nat) (c : Core) : (s.setCore n c).unitCreel = s.unitCreel := rfl
@[simp] theorem State.setCore_units (s : State) (n : Nat) (c : Core) : (s.setCore n c).units = s.units := rfl
@[simp] theorem State.setCore_pqs (s : State) (n : Nat) (c : Core) : (s.setCore n c).pqs = s.pqs := rfl
@[simp] theorem State.setCore_seals (s : State) (n : Nat) (c : Core) : (s.setCore n c).seals = s.seals := rfl
@[simp] theorem State.setCore_sealGen (s : State) (n : Nat) (c : Core) : (s.setCore n c).sealGen = s.sealGen := rfl
@[simp] theorem State.setCore_lqs (s : State) (n : Nat) (c : Core) : (s.setCore n c).lqs = s.lqs := rfl
@[simp] theorem State.setCore_rules (s : State) (n : Nat) (c : Core) : (s.setCore n c).rules = s.rules := rfl
@[simp] theorem State.setCore_lports (s : State) (n : Nat) (c : Core) : (s.setCore n c).lports = s.lports := rfl
@[simp] theorem State.setCore_hostFns (s : State) (n : Nat) (c : Core) : (s.setCore n c).hostFns = s.hostFns := rfl
@[simp] theorem State.setCore_pair (s : State) (n : Nat) (c : Core) : (s.setCore n c).pair = s.pair := rfl
@[simp] theorem State.setCore_board (s : State) (n : Nat) (c : Core) : (s.setCore n c).board = s.board := rfl
@[simp] theorem State.setCore_resetting (s : State) (n : Nat) (c : Core) : (s.setCore n c).resetting = s.resetting := rfl
@[simp] theorem State.setCore_power (s : State) (n : Nat) (c : Core) : (s.setCore n c).power = s.power := rfl
@[simp] theorem State.setCore_hubTraffic (s : State) (n : Nat) (c : Core) : (s.setCore n c).hubTraffic = s.hubTraffic := rfl
@[simp] theorem State.setCore_lastHubLog (s : State) (n : Nat) (c : Core) : (s.setCore n c).lastHubLog = s.lastHubLog := rfl
@[simp] theorem State.setCore_clock (s : State) (n : Nat) (c : Core) : (s.setCore n c).clock = s.clock := rfl
@[simp] theorem State.setCore_free (s : State) (n : Nat) (c : Core) : (s.setCore n c).free = s.free := rfl
@[simp] theorem State.setCore_pending (s : State) (n : Nat) (c : Core) : (s.setCore n c).pending = s.pending := rfl
/-! ### modCore -/
@[simp] theorem State.modCore_cores (s : State) (n : Nat) (f : Core → Core) : (s.modCore n f).cores = s.cores.set n (f (s.core n)) := rfl
@[simp] theorem State.modCore_seqs (s : State) (n : Nat) (f : Core → Core) : (s.modCore n f).seqs = s.seqs := rfl
@[simp] theorem State.modCore_coreTile (s : State) (n : Nat) (f : Core → Core) : (s.modCore n f).coreTile = s.coreTile := rfl
@[simp] theorem State.modCore_coreCreel (s : State) (n : Nat) (f : Core → Core) : (s.modCore n f).coreCreel = s.coreCreel := rfl
@[simp] theorem State.modCore_mem (s : State) (n : Nat) (f : Core → Core) : (s.modCore n f).mem = s.mem := rfl
@[simp] theorem State.modCore_tiles (s : State) (n : Nat) (f : Core → Core) : (s.modCore n f).tiles = s.tiles := rfl
@[simp] theorem State.modCore_slices (s : State) (n : Nat) (f : Core → Core) : (s.modCore n f).slices = s.slices := rfl
@[simp] theorem State.modCore_bridges (s : State) (n : Nat) (f : Core → Core) : (s.modCore n f).bridges = s.bridges := rfl
@[simp] theorem State.modCore_chans (s : State) (n : Nat) (f : Core → Core) : (s.modCore n f).chans = s.chans := rfl
@[simp] theorem State.modCore_qosCfg (s : State) (n : Nat) (f : Core → Core) : (s.modCore n f).qosCfg = s.qosCfg := rfl
@[simp] theorem State.modCore_installed (s : State) (n : Nat) (f : Core → Core) : (s.modCore n f).installed = s.installed := rfl
@[simp] theorem State.modCore_creels (s : State) (n : Nat) (f : Core → Core) : (s.modCore n f).creels = s.creels := rfl
@[simp] theorem State.modCore_ringHolder (s : State) (n : Nat) (f : Core → Core) : (s.modCore n f).ringHolder = s.ringHolder := rfl
@[simp] theorem State.modCore_pqHolder (s : State) (n : Nat) (f : Core → Core) : (s.modCore n f).pqHolder = s.pqHolder := rfl
@[simp] theorem State.modCore_lgs (s : State) (n : Nat) (f : Core → Core) : (s.modCore n f).lgs = s.lgs := rfl
@[simp] theorem State.modCore_hoop (s : State) (n : Nat) (f : Core → Core) : (s.modCore n f).hoop = s.hoop := rfl
@[simp] theorem State.modCore_emitted (s : State) (n : Nat) (f : Core → Core) : (s.modCore n f).emitted = s.emitted := rfl
@[simp] theorem State.modCore_sources (s : State) (n : Nat) (f : Core → Core) : (s.modCore n f).sources = s.sources := rfl
@[simp] theorem State.modCore_log (s : State) (n : Nat) (f : Core → Core) : (s.modCore n f).log = s.log := rfl
@[simp] theorem State.modCore_banks (s : State) (n : Nat) (f : Core → Core) : (s.modCore n f).banks = s.banks := rfl
@[simp] theorem State.modCore_stake (s : State) (n : Nat) (f : Core → Core) : (s.modCore n f).stake = s.stake := rfl
@[simp] theorem State.modCore_bbkm (s : State) (n : Nat) (f : Core → Core) : (s.modCore n f).bbkm = s.bbkm := rfl
@[simp] theorem State.modCore_vault (s : State) (n : Nat) (f : Core → Core) : (s.modCore n f).vault = s.vault := rfl
@[simp] theorem State.modCore_reserve (s : State) (n : Nat) (f : Core → Core) : (s.modCore n f).reserve = s.reserve := rfl
@[simp] theorem State.modCore_unitCreel (s : State) (n : Nat) (f : Core → Core) : (s.modCore n f).unitCreel = s.unitCreel := rfl
@[simp] theorem State.modCore_units (s : State) (n : Nat) (f : Core → Core) : (s.modCore n f).units = s.units := rfl
@[simp] theorem State.modCore_pqs (s : State) (n : Nat) (f : Core → Core) : (s.modCore n f).pqs = s.pqs := rfl
@[simp] theorem State.modCore_seals (s : State) (n : Nat) (f : Core → Core) : (s.modCore n f).seals = s.seals := rfl
@[simp] theorem State.modCore_sealGen (s : State) (n : Nat) (f : Core → Core) : (s.modCore n f).sealGen = s.sealGen := rfl
@[simp] theorem State.modCore_lqs (s : State) (n : Nat) (f : Core → Core) : (s.modCore n f).lqs = s.lqs := rfl
@[simp] theorem State.modCore_rules (s : State) (n : Nat) (f : Core → Core) : (s.modCore n f).rules = s.rules := rfl
@[simp] theorem State.modCore_lports (s : State) (n : Nat) (f : Core → Core) : (s.modCore n f).lports = s.lports := rfl
@[simp] theorem State.modCore_hostFns (s : State) (n : Nat) (f : Core → Core) : (s.modCore n f).hostFns = s.hostFns := rfl
@[simp] theorem State.modCore_pair (s : State) (n : Nat) (f : Core → Core) : (s.modCore n f).pair = s.pair := rfl
@[simp] theorem State.modCore_board (s : State) (n : Nat) (f : Core → Core) : (s.modCore n f).board = s.board := rfl
@[simp] theorem State.modCore_resetting (s : State) (n : Nat) (f : Core → Core) : (s.modCore n f).resetting = s.resetting := rfl
@[simp] theorem State.modCore_power (s : State) (n : Nat) (f : Core → Core) : (s.modCore n f).power = s.power := rfl
@[simp] theorem State.modCore_hubTraffic (s : State) (n : Nat) (f : Core → Core) : (s.modCore n f).hubTraffic = s.hubTraffic := rfl
@[simp] theorem State.modCore_lastHubLog (s : State) (n : Nat) (f : Core → Core) : (s.modCore n f).lastHubLog = s.lastHubLog := rfl
@[simp] theorem State.modCore_clock (s : State) (n : Nat) (f : Core → Core) : (s.modCore n f).clock = s.clock := rfl
@[simp] theorem State.modCore_free (s : State) (n : Nat) (f : Core → Core) : (s.modCore n f).free = s.free := rfl
@[simp] theorem State.modCore_pending (s : State) (n : Nat) (f : Core → Core) : (s.modCore n f).pending = s.pending := rfl
/-! ### setSeq -/
@[simp] theorem State.setSeq_cores (s : State) (n : Nat) (c : Seq) : (s.setSeq n c).cores = s.cores := rfl
@[simp] theorem State.setSeq_seqs (s : State) (n : Nat) (c : Seq) : (s.setSeq n c).seqs = s.seqs.set n c := rfl
@[simp] theorem State.setSeq_coreTile (s : State) (n : Nat) (c : Seq) : (s.setSeq n c).coreTile = s.coreTile := rfl
@[simp] theorem State.setSeq_coreCreel (s : State) (n : Nat) (c : Seq) : (s.setSeq n c).coreCreel = s.coreCreel := rfl
@[simp] theorem State.setSeq_mem (s : State) (n : Nat) (c : Seq) : (s.setSeq n c).mem = s.mem := rfl
@[simp] theorem State.setSeq_tiles (s : State) (n : Nat) (c : Seq) : (s.setSeq n c).tiles = s.tiles := rfl
@[simp] theorem State.setSeq_slices (s : State) (n : Nat) (c : Seq) : (s.setSeq n c).slices = s.slices := rfl
@[simp] theorem State.setSeq_bridges (s : State) (n : Nat) (c : Seq) : (s.setSeq n c).bridges = s.bridges := rfl
@[simp] theorem State.setSeq_chans (s : State) (n : Nat) (c : Seq) : (s.setSeq n c).chans = s.chans := rfl
@[simp] theorem State.setSeq_qosCfg (s : State) (n : Nat) (c : Seq) : (s.setSeq n c).qosCfg = s.qosCfg := rfl
@[simp] theorem State.setSeq_installed (s : State) (n : Nat) (c : Seq) : (s.setSeq n c).installed = s.installed := rfl
@[simp] theorem State.setSeq_creels (s : State) (n : Nat) (c : Seq) : (s.setSeq n c).creels = s.creels := rfl
@[simp] theorem State.setSeq_ringHolder (s : State) (n : Nat) (c : Seq) : (s.setSeq n c).ringHolder = s.ringHolder := rfl
@[simp] theorem State.setSeq_pqHolder (s : State) (n : Nat) (c : Seq) : (s.setSeq n c).pqHolder = s.pqHolder := rfl
@[simp] theorem State.setSeq_lgs (s : State) (n : Nat) (c : Seq) : (s.setSeq n c).lgs = s.lgs := rfl
@[simp] theorem State.setSeq_hoop (s : State) (n : Nat) (c : Seq) : (s.setSeq n c).hoop = s.hoop := rfl
@[simp] theorem State.setSeq_emitted (s : State) (n : Nat) (c : Seq) : (s.setSeq n c).emitted = s.emitted := rfl
@[simp] theorem State.setSeq_sources (s : State) (n : Nat) (c : Seq) : (s.setSeq n c).sources = s.sources := rfl
@[simp] theorem State.setSeq_log (s : State) (n : Nat) (c : Seq) : (s.setSeq n c).log = s.log := rfl
@[simp] theorem State.setSeq_banks (s : State) (n : Nat) (c : Seq) : (s.setSeq n c).banks = s.banks := rfl
@[simp] theorem State.setSeq_stake (s : State) (n : Nat) (c : Seq) : (s.setSeq n c).stake = s.stake := rfl
@[simp] theorem State.setSeq_bbkm (s : State) (n : Nat) (c : Seq) : (s.setSeq n c).bbkm = s.bbkm := rfl
@[simp] theorem State.setSeq_vault (s : State) (n : Nat) (c : Seq) : (s.setSeq n c).vault = s.vault := rfl
@[simp] theorem State.setSeq_reserve (s : State) (n : Nat) (c : Seq) : (s.setSeq n c).reserve = s.reserve := rfl
@[simp] theorem State.setSeq_unitCreel (s : State) (n : Nat) (c : Seq) : (s.setSeq n c).unitCreel = s.unitCreel := rfl
@[simp] theorem State.setSeq_units (s : State) (n : Nat) (c : Seq) : (s.setSeq n c).units = s.units := rfl
@[simp] theorem State.setSeq_pqs (s : State) (n : Nat) (c : Seq) : (s.setSeq n c).pqs = s.pqs := rfl
@[simp] theorem State.setSeq_seals (s : State) (n : Nat) (c : Seq) : (s.setSeq n c).seals = s.seals := rfl
@[simp] theorem State.setSeq_sealGen (s : State) (n : Nat) (c : Seq) : (s.setSeq n c).sealGen = s.sealGen := rfl
@[simp] theorem State.setSeq_lqs (s : State) (n : Nat) (c : Seq) : (s.setSeq n c).lqs = s.lqs := rfl
@[simp] theorem State.setSeq_rules (s : State) (n : Nat) (c : Seq) : (s.setSeq n c).rules = s.rules := rfl
@[simp] theorem State.setSeq_lports (s : State) (n : Nat) (c : Seq) : (s.setSeq n c).lports = s.lports := rfl
@[simp] theorem State.setSeq_hostFns (s : State) (n : Nat) (c : Seq) : (s.setSeq n c).hostFns = s.hostFns := rfl
@[simp] theorem State.setSeq_pair (s : State) (n : Nat) (c : Seq) : (s.setSeq n c).pair = s.pair := rfl
@[simp] theorem State.setSeq_board (s : State) (n : Nat) (c : Seq) : (s.setSeq n c).board = s.board := rfl
@[simp] theorem State.setSeq_resetting (s : State) (n : Nat) (c : Seq) : (s.setSeq n c).resetting = s.resetting := rfl
@[simp] theorem State.setSeq_power (s : State) (n : Nat) (c : Seq) : (s.setSeq n c).power = s.power := rfl
@[simp] theorem State.setSeq_hubTraffic (s : State) (n : Nat) (c : Seq) : (s.setSeq n c).hubTraffic = s.hubTraffic := rfl
@[simp] theorem State.setSeq_lastHubLog (s : State) (n : Nat) (c : Seq) : (s.setSeq n c).lastHubLog = s.lastHubLog := rfl
@[simp] theorem State.setSeq_clock (s : State) (n : Nat) (c : Seq) : (s.setSeq n c).clock = s.clock := rfl
@[simp] theorem State.setSeq_free (s : State) (n : Nat) (c : Seq) : (s.setSeq n c).free = s.free := rfl
@[simp] theorem State.setSeq_pending (s : State) (n : Nat) (c : Seq) : (s.setSeq n c).pending = s.pending := rfl
/-! ### modSeq -/
@[simp] theorem State.modSeq_cores (s : State) (n : Nat) (f : Seq → Seq) : (s.modSeq n f).cores = s.cores := rfl
@[simp] theorem State.modSeq_seqs (s : State) (n : Nat) (f : Seq → Seq) : (s.modSeq n f).seqs = s.seqs.set n (f (s.seq n)) := rfl
@[simp] theorem State.modSeq_coreTile (s : State) (n : Nat) (f : Seq → Seq) : (s.modSeq n f).coreTile = s.coreTile := rfl
@[simp] theorem State.modSeq_coreCreel (s : State) (n : Nat) (f : Seq → Seq) : (s.modSeq n f).coreCreel = s.coreCreel := rfl
@[simp] theorem State.modSeq_mem (s : State) (n : Nat) (f : Seq → Seq) : (s.modSeq n f).mem = s.mem := rfl
@[simp] theorem State.modSeq_tiles (s : State) (n : Nat) (f : Seq → Seq) : (s.modSeq n f).tiles = s.tiles := rfl
@[simp] theorem State.modSeq_slices (s : State) (n : Nat) (f : Seq → Seq) : (s.modSeq n f).slices = s.slices := rfl
@[simp] theorem State.modSeq_bridges (s : State) (n : Nat) (f : Seq → Seq) : (s.modSeq n f).bridges = s.bridges := rfl
@[simp] theorem State.modSeq_chans (s : State) (n : Nat) (f : Seq → Seq) : (s.modSeq n f).chans = s.chans := rfl
@[simp] theorem State.modSeq_qosCfg (s : State) (n : Nat) (f : Seq → Seq) : (s.modSeq n f).qosCfg = s.qosCfg := rfl
@[simp] theorem State.modSeq_installed (s : State) (n : Nat) (f : Seq → Seq) : (s.modSeq n f).installed = s.installed := rfl
@[simp] theorem State.modSeq_creels (s : State) (n : Nat) (f : Seq → Seq) : (s.modSeq n f).creels = s.creels := rfl
@[simp] theorem State.modSeq_ringHolder (s : State) (n : Nat) (f : Seq → Seq) : (s.modSeq n f).ringHolder = s.ringHolder := rfl
@[simp] theorem State.modSeq_pqHolder (s : State) (n : Nat) (f : Seq → Seq) : (s.modSeq n f).pqHolder = s.pqHolder := rfl
@[simp] theorem State.modSeq_lgs (s : State) (n : Nat) (f : Seq → Seq) : (s.modSeq n f).lgs = s.lgs := rfl
@[simp] theorem State.modSeq_hoop (s : State) (n : Nat) (f : Seq → Seq) : (s.modSeq n f).hoop = s.hoop := rfl
@[simp] theorem State.modSeq_emitted (s : State) (n : Nat) (f : Seq → Seq) : (s.modSeq n f).emitted = s.emitted := rfl
@[simp] theorem State.modSeq_sources (s : State) (n : Nat) (f : Seq → Seq) : (s.modSeq n f).sources = s.sources := rfl
@[simp] theorem State.modSeq_log (s : State) (n : Nat) (f : Seq → Seq) : (s.modSeq n f).log = s.log := rfl
@[simp] theorem State.modSeq_banks (s : State) (n : Nat) (f : Seq → Seq) : (s.modSeq n f).banks = s.banks := rfl
@[simp] theorem State.modSeq_stake (s : State) (n : Nat) (f : Seq → Seq) : (s.modSeq n f).stake = s.stake := rfl
@[simp] theorem State.modSeq_bbkm (s : State) (n : Nat) (f : Seq → Seq) : (s.modSeq n f).bbkm = s.bbkm := rfl
@[simp] theorem State.modSeq_vault (s : State) (n : Nat) (f : Seq → Seq) : (s.modSeq n f).vault = s.vault := rfl
@[simp] theorem State.modSeq_reserve (s : State) (n : Nat) (f : Seq → Seq) : (s.modSeq n f).reserve = s.reserve := rfl
@[simp] theorem State.modSeq_unitCreel (s : State) (n : Nat) (f : Seq → Seq) : (s.modSeq n f).unitCreel = s.unitCreel := rfl
@[simp] theorem State.modSeq_units (s : State) (n : Nat) (f : Seq → Seq) : (s.modSeq n f).units = s.units := rfl
@[simp] theorem State.modSeq_pqs (s : State) (n : Nat) (f : Seq → Seq) : (s.modSeq n f).pqs = s.pqs := rfl
@[simp] theorem State.modSeq_seals (s : State) (n : Nat) (f : Seq → Seq) : (s.modSeq n f).seals = s.seals := rfl
@[simp] theorem State.modSeq_sealGen (s : State) (n : Nat) (f : Seq → Seq) : (s.modSeq n f).sealGen = s.sealGen := rfl
@[simp] theorem State.modSeq_lqs (s : State) (n : Nat) (f : Seq → Seq) : (s.modSeq n f).lqs = s.lqs := rfl
@[simp] theorem State.modSeq_rules (s : State) (n : Nat) (f : Seq → Seq) : (s.modSeq n f).rules = s.rules := rfl
@[simp] theorem State.modSeq_lports (s : State) (n : Nat) (f : Seq → Seq) : (s.modSeq n f).lports = s.lports := rfl
@[simp] theorem State.modSeq_hostFns (s : State) (n : Nat) (f : Seq → Seq) : (s.modSeq n f).hostFns = s.hostFns := rfl
@[simp] theorem State.modSeq_pair (s : State) (n : Nat) (f : Seq → Seq) : (s.modSeq n f).pair = s.pair := rfl
@[simp] theorem State.modSeq_board (s : State) (n : Nat) (f : Seq → Seq) : (s.modSeq n f).board = s.board := rfl
@[simp] theorem State.modSeq_resetting (s : State) (n : Nat) (f : Seq → Seq) : (s.modSeq n f).resetting = s.resetting := rfl
@[simp] theorem State.modSeq_power (s : State) (n : Nat) (f : Seq → Seq) : (s.modSeq n f).power = s.power := rfl
@[simp] theorem State.modSeq_hubTraffic (s : State) (n : Nat) (f : Seq → Seq) : (s.modSeq n f).hubTraffic = s.hubTraffic := rfl
@[simp] theorem State.modSeq_lastHubLog (s : State) (n : Nat) (f : Seq → Seq) : (s.modSeq n f).lastHubLog = s.lastHubLog := rfl
@[simp] theorem State.modSeq_clock (s : State) (n : Nat) (f : Seq → Seq) : (s.modSeq n f).clock = s.clock := rfl
@[simp] theorem State.modSeq_free (s : State) (n : Nat) (f : Seq → Seq) : (s.modSeq n f).free = s.free := rfl
@[simp] theorem State.modSeq_pending (s : State) (n : Nat) (f : Seq → Seq) : (s.modSeq n f).pending = s.pending := rfl
/-! ### setTile -/
@[simp] theorem State.setTile_cores (s : State) (n : Nat) (c : Tile) : (s.setTile n c).cores = s.cores := rfl
@[simp] theorem State.setTile_seqs (s : State) (n : Nat) (c : Tile) : (s.setTile n c).seqs = s.seqs := rfl
@[simp] theorem State.setTile_coreTile (s : State) (n : Nat) (c : Tile) : (s.setTile n c).coreTile = s.coreTile := rfl
@[simp] theorem State.setTile_coreCreel (s : State) (n : Nat) (c : Tile) : (s.setTile n c).coreCreel = s.coreCreel := rfl
@[simp] theorem State.setTile_mem (s : State) (n : Nat) (c : Tile) : (s.setTile n c).mem = s.mem := rfl
@[simp] theorem State.setTile_tiles (s : State) (n : Nat) (c : Tile) : (s.setTile n c).tiles = s.tiles.set n c := rfl
@[simp] theorem State.setTile_slices (s : State) (n : Nat) (c : Tile) : (s.setTile n c).slices = s.slices := rfl
@[simp] theorem State.setTile_bridges (s : State) (n : Nat) (c : Tile) : (s.setTile n c).bridges = s.bridges := rfl
@[simp] theorem State.setTile_chans (s : State) (n : Nat) (c : Tile) : (s.setTile n c).chans = s.chans := rfl
@[simp] theorem State.setTile_qosCfg (s : State) (n : Nat) (c : Tile) : (s.setTile n c).qosCfg = s.qosCfg := rfl
@[simp] theorem State.setTile_installed (s : State) (n : Nat) (c : Tile) : (s.setTile n c).installed = s.installed := rfl
@[simp] theorem State.setTile_creels (s : State) (n : Nat) (c : Tile) : (s.setTile n c).creels = s.creels := rfl
@[simp] theorem State.setTile_ringHolder (s : State) (n : Nat) (c : Tile) : (s.setTile n c).ringHolder = s.ringHolder := rfl
@[simp] theorem State.setTile_pqHolder (s : State) (n : Nat) (c : Tile) : (s.setTile n c).pqHolder = s.pqHolder := rfl
@[simp] theorem State.setTile_lgs (s : State) (n : Nat) (c : Tile) : (s.setTile n c).lgs = s.lgs := rfl
@[simp] theorem State.setTile_hoop (s : State) (n : Nat) (c : Tile) : (s.setTile n c).hoop = s.hoop := rfl
@[simp] theorem State.setTile_emitted (s : State) (n : Nat) (c : Tile) : (s.setTile n c).emitted = s.emitted := rfl
@[simp] theorem State.setTile_sources (s : State) (n : Nat) (c : Tile) : (s.setTile n c).sources = s.sources := rfl
@[simp] theorem State.setTile_log (s : State) (n : Nat) (c : Tile) : (s.setTile n c).log = s.log := rfl
@[simp] theorem State.setTile_banks (s : State) (n : Nat) (c : Tile) : (s.setTile n c).banks = s.banks := rfl
@[simp] theorem State.setTile_stake (s : State) (n : Nat) (c : Tile) : (s.setTile n c).stake = s.stake := rfl
@[simp] theorem State.setTile_bbkm (s : State) (n : Nat) (c : Tile) : (s.setTile n c).bbkm = s.bbkm := rfl
@[simp] theorem State.setTile_vault (s : State) (n : Nat) (c : Tile) : (s.setTile n c).vault = s.vault := rfl
@[simp] theorem State.setTile_reserve (s : State) (n : Nat) (c : Tile) : (s.setTile n c).reserve = s.reserve := rfl
@[simp] theorem State.setTile_unitCreel (s : State) (n : Nat) (c : Tile) : (s.setTile n c).unitCreel = s.unitCreel := rfl
@[simp] theorem State.setTile_units (s : State) (n : Nat) (c : Tile) : (s.setTile n c).units = s.units := rfl
@[simp] theorem State.setTile_pqs (s : State) (n : Nat) (c : Tile) : (s.setTile n c).pqs = s.pqs := rfl
@[simp] theorem State.setTile_seals (s : State) (n : Nat) (c : Tile) : (s.setTile n c).seals = s.seals := rfl
@[simp] theorem State.setTile_sealGen (s : State) (n : Nat) (c : Tile) : (s.setTile n c).sealGen = s.sealGen := rfl
@[simp] theorem State.setTile_lqs (s : State) (n : Nat) (c : Tile) : (s.setTile n c).lqs = s.lqs := rfl
@[simp] theorem State.setTile_rules (s : State) (n : Nat) (c : Tile) : (s.setTile n c).rules = s.rules := rfl
@[simp] theorem State.setTile_lports (s : State) (n : Nat) (c : Tile) : (s.setTile n c).lports = s.lports := rfl
@[simp] theorem State.setTile_hostFns (s : State) (n : Nat) (c : Tile) : (s.setTile n c).hostFns = s.hostFns := rfl
@[simp] theorem State.setTile_pair (s : State) (n : Nat) (c : Tile) : (s.setTile n c).pair = s.pair := rfl
@[simp] theorem State.setTile_board (s : State) (n : Nat) (c : Tile) : (s.setTile n c).board = s.board := rfl
@[simp] theorem State.setTile_resetting (s : State) (n : Nat) (c : Tile) : (s.setTile n c).resetting = s.resetting := rfl
@[simp] theorem State.setTile_power (s : State) (n : Nat) (c : Tile) : (s.setTile n c).power = s.power := rfl
@[simp] theorem State.setTile_hubTraffic (s : State) (n : Nat) (c : Tile) : (s.setTile n c).hubTraffic = s.hubTraffic := rfl
@[simp] theorem State.setTile_lastHubLog (s : State) (n : Nat) (c : Tile) : (s.setTile n c).lastHubLog = s.lastHubLog := rfl
@[simp] theorem State.setTile_clock (s : State) (n : Nat) (c : Tile) : (s.setTile n c).clock = s.clock := rfl
@[simp] theorem State.setTile_free (s : State) (n : Nat) (c : Tile) : (s.setTile n c).free = s.free := rfl
@[simp] theorem State.setTile_pending (s : State) (n : Nat) (c : Tile) : (s.setTile n c).pending = s.pending := rfl
/-! ### setSlice -/
@[simp] theorem State.setSlice_cores (s : State) (n : Nat) (c : Slice) : (s.setSlice n c).cores = s.cores := rfl
@[simp] theorem State.setSlice_seqs (s : State) (n : Nat) (c : Slice) : (s.setSlice n c).seqs = s.seqs := rfl
@[simp] theorem State.setSlice_coreTile (s : State) (n : Nat) (c : Slice) : (s.setSlice n c).coreTile = s.coreTile := rfl
@[simp] theorem State.setSlice_coreCreel (s : State) (n : Nat) (c : Slice) : (s.setSlice n c).coreCreel = s.coreCreel := rfl
@[simp] theorem State.setSlice_mem (s : State) (n : Nat) (c : Slice) : (s.setSlice n c).mem = s.mem := rfl
@[simp] theorem State.setSlice_tiles (s : State) (n : Nat) (c : Slice) : (s.setSlice n c).tiles = s.tiles := rfl
@[simp] theorem State.setSlice_slices (s : State) (n : Nat) (c : Slice) : (s.setSlice n c).slices = s.slices.set n c := rfl
@[simp] theorem State.setSlice_bridges (s : State) (n : Nat) (c : Slice) : (s.setSlice n c).bridges = s.bridges := rfl
@[simp] theorem State.setSlice_chans (s : State) (n : Nat) (c : Slice) : (s.setSlice n c).chans = s.chans := rfl
@[simp] theorem State.setSlice_qosCfg (s : State) (n : Nat) (c : Slice) : (s.setSlice n c).qosCfg = s.qosCfg := rfl
@[simp] theorem State.setSlice_installed (s : State) (n : Nat) (c : Slice) : (s.setSlice n c).installed = s.installed := rfl
@[simp] theorem State.setSlice_creels (s : State) (n : Nat) (c : Slice) : (s.setSlice n c).creels = s.creels := rfl
@[simp] theorem State.setSlice_ringHolder (s : State) (n : Nat) (c : Slice) : (s.setSlice n c).ringHolder = s.ringHolder := rfl
@[simp] theorem State.setSlice_pqHolder (s : State) (n : Nat) (c : Slice) : (s.setSlice n c).pqHolder = s.pqHolder := rfl
@[simp] theorem State.setSlice_lgs (s : State) (n : Nat) (c : Slice) : (s.setSlice n c).lgs = s.lgs := rfl
@[simp] theorem State.setSlice_hoop (s : State) (n : Nat) (c : Slice) : (s.setSlice n c).hoop = s.hoop := rfl
@[simp] theorem State.setSlice_emitted (s : State) (n : Nat) (c : Slice) : (s.setSlice n c).emitted = s.emitted := rfl
@[simp] theorem State.setSlice_sources (s : State) (n : Nat) (c : Slice) : (s.setSlice n c).sources = s.sources := rfl
@[simp] theorem State.setSlice_log (s : State) (n : Nat) (c : Slice) : (s.setSlice n c).log = s.log := rfl
@[simp] theorem State.setSlice_banks (s : State) (n : Nat) (c : Slice) : (s.setSlice n c).banks = s.banks := rfl
@[simp] theorem State.setSlice_stake (s : State) (n : Nat) (c : Slice) : (s.setSlice n c).stake = s.stake := rfl
@[simp] theorem State.setSlice_bbkm (s : State) (n : Nat) (c : Slice) : (s.setSlice n c).bbkm = s.bbkm := rfl
@[simp] theorem State.setSlice_vault (s : State) (n : Nat) (c : Slice) : (s.setSlice n c).vault = s.vault := rfl
@[simp] theorem State.setSlice_reserve (s : State) (n : Nat) (c : Slice) : (s.setSlice n c).reserve = s.reserve := rfl
@[simp] theorem State.setSlice_unitCreel (s : State) (n : Nat) (c : Slice) : (s.setSlice n c).unitCreel = s.unitCreel := rfl
@[simp] theorem State.setSlice_units (s : State) (n : Nat) (c : Slice) : (s.setSlice n c).units = s.units := rfl
@[simp] theorem State.setSlice_pqs (s : State) (n : Nat) (c : Slice) : (s.setSlice n c).pqs = s.pqs := rfl
@[simp] theorem State.setSlice_seals (s : State) (n : Nat) (c : Slice) : (s.setSlice n c).seals = s.seals := rfl
@[simp] theorem State.setSlice_sealGen (s : State) (n : Nat) (c : Slice) : (s.setSlice n c).sealGen = s.sealGen := rfl
@[simp] theorem State.setSlice_lqs (s : State) (n : Nat) (c : Slice) : (s.setSlice n c).lqs = s.lqs := rfl
@[simp] theorem State.setSlice_rules (s : State) (n : Nat) (c : Slice) : (s.setSlice n c).rules = s.rules := rfl
@[simp] theorem State.setSlice_lports (s : State) (n : Nat) (c : Slice) : (s.setSlice n c).lports = s.lports := rfl
@[simp] theorem State.setSlice_hostFns (s : State) (n : Nat) (c : Slice) : (s.setSlice n c).hostFns = s.hostFns := rfl
@[simp] theorem State.setSlice_pair (s : State) (n : Nat) (c : Slice) : (s.setSlice n c).pair = s.pair := rfl
@[simp] theorem State.setSlice_board (s : State) (n : Nat) (c : Slice) : (s.setSlice n c).board = s.board := rfl
@[simp] theorem State.setSlice_resetting (s : State) (n : Nat) (c : Slice) : (s.setSlice n c).resetting = s.resetting := rfl
@[simp] theorem State.setSlice_power (s : State) (n : Nat) (c : Slice) : (s.setSlice n c).power = s.power := rfl
@[simp] theorem State.setSlice_hubTraffic (s : State) (n : Nat) (c : Slice) : (s.setSlice n c).hubTraffic = s.hubTraffic := rfl
@[simp] theorem State.setSlice_lastHubLog (s : State) (n : Nat) (c : Slice) : (s.setSlice n c).lastHubLog = s.lastHubLog := rfl
@[simp] theorem State.setSlice_clock (s : State) (n : Nat) (c : Slice) : (s.setSlice n c).clock = s.clock := rfl
@[simp] theorem State.setSlice_free (s : State) (n : Nat) (c : Slice) : (s.setSlice n c).free = s.free := rfl
@[simp] theorem State.setSlice_pending (s : State) (n : Nat) (c : Slice) : (s.setSlice n c).pending = s.pending := rfl
/-! ### setChan -/
@[simp] theorem State.setChan_cores (s : State) (n : Nat) (c : Chan) : (s.setChan n c).cores = s.cores := rfl
@[simp] theorem State.setChan_seqs (s : State) (n : Nat) (c : Chan) : (s.setChan n c).seqs = s.seqs := rfl
@[simp] theorem State.setChan_coreTile (s : State) (n : Nat) (c : Chan) : (s.setChan n c).coreTile = s.coreTile := rfl
@[simp] theorem State.setChan_coreCreel (s : State) (n : Nat) (c : Chan) : (s.setChan n c).coreCreel = s.coreCreel := rfl
@[simp] theorem State.setChan_mem (s : State) (n : Nat) (c : Chan) : (s.setChan n c).mem = s.mem := rfl
@[simp] theorem State.setChan_tiles (s : State) (n : Nat) (c : Chan) : (s.setChan n c).tiles = s.tiles := rfl
@[simp] theorem State.setChan_slices (s : State) (n : Nat) (c : Chan) : (s.setChan n c).slices = s.slices := rfl
@[simp] theorem State.setChan_bridges (s : State) (n : Nat) (c : Chan) : (s.setChan n c).bridges = s.bridges := rfl
@[simp] theorem State.setChan_chans (s : State) (n : Nat) (c : Chan) : (s.setChan n c).chans = s.chans.set n c := rfl
@[simp] theorem State.setChan_qosCfg (s : State) (n : Nat) (c : Chan) : (s.setChan n c).qosCfg = s.qosCfg := rfl
@[simp] theorem State.setChan_installed (s : State) (n : Nat) (c : Chan) : (s.setChan n c).installed = s.installed := rfl
@[simp] theorem State.setChan_creels (s : State) (n : Nat) (c : Chan) : (s.setChan n c).creels = s.creels := rfl
@[simp] theorem State.setChan_ringHolder (s : State) (n : Nat) (c : Chan) : (s.setChan n c).ringHolder = s.ringHolder := rfl
@[simp] theorem State.setChan_pqHolder (s : State) (n : Nat) (c : Chan) : (s.setChan n c).pqHolder = s.pqHolder := rfl
@[simp] theorem State.setChan_lgs (s : State) (n : Nat) (c : Chan) : (s.setChan n c).lgs = s.lgs := rfl
@[simp] theorem State.setChan_hoop (s : State) (n : Nat) (c : Chan) : (s.setChan n c).hoop = s.hoop := rfl
@[simp] theorem State.setChan_emitted (s : State) (n : Nat) (c : Chan) : (s.setChan n c).emitted = s.emitted := rfl
@[simp] theorem State.setChan_sources (s : State) (n : Nat) (c : Chan) : (s.setChan n c).sources = s.sources := rfl
@[simp] theorem State.setChan_log (s : State) (n : Nat) (c : Chan) : (s.setChan n c).log = s.log := rfl
@[simp] theorem State.setChan_banks (s : State) (n : Nat) (c : Chan) : (s.setChan n c).banks = s.banks := rfl
@[simp] theorem State.setChan_stake (s : State) (n : Nat) (c : Chan) : (s.setChan n c).stake = s.stake := rfl
@[simp] theorem State.setChan_bbkm (s : State) (n : Nat) (c : Chan) : (s.setChan n c).bbkm = s.bbkm := rfl
@[simp] theorem State.setChan_vault (s : State) (n : Nat) (c : Chan) : (s.setChan n c).vault = s.vault := rfl
@[simp] theorem State.setChan_reserve (s : State) (n : Nat) (c : Chan) : (s.setChan n c).reserve = s.reserve := rfl
@[simp] theorem State.setChan_unitCreel (s : State) (n : Nat) (c : Chan) : (s.setChan n c).unitCreel = s.unitCreel := rfl
@[simp] theorem State.setChan_units (s : State) (n : Nat) (c : Chan) : (s.setChan n c).units = s.units := rfl
@[simp] theorem State.setChan_pqs (s : State) (n : Nat) (c : Chan) : (s.setChan n c).pqs = s.pqs := rfl
@[simp] theorem State.setChan_seals (s : State) (n : Nat) (c : Chan) : (s.setChan n c).seals = s.seals := rfl
@[simp] theorem State.setChan_sealGen (s : State) (n : Nat) (c : Chan) : (s.setChan n c).sealGen = s.sealGen := rfl
@[simp] theorem State.setChan_lqs (s : State) (n : Nat) (c : Chan) : (s.setChan n c).lqs = s.lqs := rfl
@[simp] theorem State.setChan_rules (s : State) (n : Nat) (c : Chan) : (s.setChan n c).rules = s.rules := rfl
@[simp] theorem State.setChan_lports (s : State) (n : Nat) (c : Chan) : (s.setChan n c).lports = s.lports := rfl
@[simp] theorem State.setChan_hostFns (s : State) (n : Nat) (c : Chan) : (s.setChan n c).hostFns = s.hostFns := rfl
@[simp] theorem State.setChan_pair (s : State) (n : Nat) (c : Chan) : (s.setChan n c).pair = s.pair := rfl
@[simp] theorem State.setChan_board (s : State) (n : Nat) (c : Chan) : (s.setChan n c).board = s.board := rfl
@[simp] theorem State.setChan_resetting (s : State) (n : Nat) (c : Chan) : (s.setChan n c).resetting = s.resetting := rfl
@[simp] theorem State.setChan_power (s : State) (n : Nat) (c : Chan) : (s.setChan n c).power = s.power := rfl
@[simp] theorem State.setChan_hubTraffic (s : State) (n : Nat) (c : Chan) : (s.setChan n c).hubTraffic = s.hubTraffic := rfl
@[simp] theorem State.setChan_lastHubLog (s : State) (n : Nat) (c : Chan) : (s.setChan n c).lastHubLog = s.lastHubLog := rfl
@[simp] theorem State.setChan_clock (s : State) (n : Nat) (c : Chan) : (s.setChan n c).clock = s.clock := rfl
@[simp] theorem State.setChan_free (s : State) (n : Nat) (c : Chan) : (s.setChan n c).free = s.free := rfl
@[simp] theorem State.setChan_pending (s : State) (n : Nat) (c : Chan) : (s.setChan n c).pending = s.pending := rfl
/-! ### modChan -/
@[simp] theorem State.modChan_cores (s : State) (n : Nat) (f : Chan → Chan) : (s.modChan n f).cores = s.cores := rfl
@[simp] theorem State.modChan_seqs (s : State) (n : Nat) (f : Chan → Chan) : (s.modChan n f).seqs = s.seqs := rfl
@[simp] theorem State.modChan_coreTile (s : State) (n : Nat) (f : Chan → Chan) : (s.modChan n f).coreTile = s.coreTile := rfl
@[simp] theorem State.modChan_coreCreel (s : State) (n : Nat) (f : Chan → Chan) : (s.modChan n f).coreCreel = s.coreCreel := rfl
@[simp] theorem State.modChan_mem (s : State) (n : Nat) (f : Chan → Chan) : (s.modChan n f).mem = s.mem := rfl
@[simp] theorem State.modChan_tiles (s : State) (n : Nat) (f : Chan → Chan) : (s.modChan n f).tiles = s.tiles := rfl
@[simp] theorem State.modChan_slices (s : State) (n : Nat) (f : Chan → Chan) : (s.modChan n f).slices = s.slices := rfl
@[simp] theorem State.modChan_bridges (s : State) (n : Nat) (f : Chan → Chan) : (s.modChan n f).bridges = s.bridges := rfl
@[simp] theorem State.modChan_chans (s : State) (n : Nat) (f : Chan → Chan) : (s.modChan n f).chans = s.chans.set n (f (s.chan n)) := rfl
@[simp] theorem State.modChan_qosCfg (s : State) (n : Nat) (f : Chan → Chan) : (s.modChan n f).qosCfg = s.qosCfg := rfl
@[simp] theorem State.modChan_installed (s : State) (n : Nat) (f : Chan → Chan) : (s.modChan n f).installed = s.installed := rfl
@[simp] theorem State.modChan_creels (s : State) (n : Nat) (f : Chan → Chan) : (s.modChan n f).creels = s.creels := rfl
@[simp] theorem State.modChan_ringHolder (s : State) (n : Nat) (f : Chan → Chan) : (s.modChan n f).ringHolder = s.ringHolder := rfl
@[simp] theorem State.modChan_pqHolder (s : State) (n : Nat) (f : Chan → Chan) : (s.modChan n f).pqHolder = s.pqHolder := rfl
@[simp] theorem State.modChan_lgs (s : State) (n : Nat) (f : Chan → Chan) : (s.modChan n f).lgs = s.lgs := rfl
@[simp] theorem State.modChan_hoop (s : State) (n : Nat) (f : Chan → Chan) : (s.modChan n f).hoop = s.hoop := rfl
@[simp] theorem State.modChan_emitted (s : State) (n : Nat) (f : Chan → Chan) : (s.modChan n f).emitted = s.emitted := rfl
@[simp] theorem State.modChan_sources (s : State) (n : Nat) (f : Chan → Chan) : (s.modChan n f).sources = s.sources := rfl
@[simp] theorem State.modChan_log (s : State) (n : Nat) (f : Chan → Chan) : (s.modChan n f).log = s.log := rfl
@[simp] theorem State.modChan_banks (s : State) (n : Nat) (f : Chan → Chan) : (s.modChan n f).banks = s.banks := rfl
@[simp] theorem State.modChan_stake (s : State) (n : Nat) (f : Chan → Chan) : (s.modChan n f).stake = s.stake := rfl
@[simp] theorem State.modChan_bbkm (s : State) (n : Nat) (f : Chan → Chan) : (s.modChan n f).bbkm = s.bbkm := rfl
@[simp] theorem State.modChan_vault (s : State) (n : Nat) (f : Chan → Chan) : (s.modChan n f).vault = s.vault := rfl
@[simp] theorem State.modChan_reserve (s : State) (n : Nat) (f : Chan → Chan) : (s.modChan n f).reserve = s.reserve := rfl
@[simp] theorem State.modChan_unitCreel (s : State) (n : Nat) (f : Chan → Chan) : (s.modChan n f).unitCreel = s.unitCreel := rfl
@[simp] theorem State.modChan_units (s : State) (n : Nat) (f : Chan → Chan) : (s.modChan n f).units = s.units := rfl
@[simp] theorem State.modChan_pqs (s : State) (n : Nat) (f : Chan → Chan) : (s.modChan n f).pqs = s.pqs := rfl
@[simp] theorem State.modChan_seals (s : State) (n : Nat) (f : Chan → Chan) : (s.modChan n f).seals = s.seals := rfl
@[simp] theorem State.modChan_sealGen (s : State) (n : Nat) (f : Chan → Chan) : (s.modChan n f).sealGen = s.sealGen := rfl
@[simp] theorem State.modChan_lqs (s : State) (n : Nat) (f : Chan → Chan) : (s.modChan n f).lqs = s.lqs := rfl
@[simp] theorem State.modChan_rules (s : State) (n : Nat) (f : Chan → Chan) : (s.modChan n f).rules = s.rules := rfl
@[simp] theorem State.modChan_lports (s : State) (n : Nat) (f : Chan → Chan) : (s.modChan n f).lports = s.lports := rfl
@[simp] theorem State.modChan_hostFns (s : State) (n : Nat) (f : Chan → Chan) : (s.modChan n f).hostFns = s.hostFns := rfl
@[simp] theorem State.modChan_pair (s : State) (n : Nat) (f : Chan → Chan) : (s.modChan n f).pair = s.pair := rfl
@[simp] theorem State.modChan_board (s : State) (n : Nat) (f : Chan → Chan) : (s.modChan n f).board = s.board := rfl
@[simp] theorem State.modChan_resetting (s : State) (n : Nat) (f : Chan → Chan) : (s.modChan n f).resetting = s.resetting := rfl
@[simp] theorem State.modChan_power (s : State) (n : Nat) (f : Chan → Chan) : (s.modChan n f).power = s.power := rfl
@[simp] theorem State.modChan_hubTraffic (s : State) (n : Nat) (f : Chan → Chan) : (s.modChan n f).hubTraffic = s.hubTraffic := rfl
@[simp] theorem State.modChan_lastHubLog (s : State) (n : Nat) (f : Chan → Chan) : (s.modChan n f).lastHubLog = s.lastHubLog := rfl
@[simp] theorem State.modChan_clock (s : State) (n : Nat) (f : Chan → Chan) : (s.modChan n f).clock = s.clock := rfl
@[simp] theorem State.modChan_free (s : State) (n : Nat) (f : Chan → Chan) : (s.modChan n f).free = s.free := rfl
@[simp] theorem State.modChan_pending (s : State) (n : Nat) (f : Chan → Chan) : (s.modChan n f).pending = s.pending := rfl
/-! ### setCreel -/
@[simp] theorem State.setCreel_cores (s : State) (n : Nat) (c : Creel) : (s.setCreel n c).cores = s.cores := rfl
@[simp] theorem State.setCreel_seqs (s : State) (n : Nat) (c : Creel) : (s.setCreel n c).seqs = s.seqs := rfl
@[simp] theorem State.setCreel_coreTile (s : State) (n : Nat) (c : Creel) : (s.setCreel n c).coreTile = s.coreTile := rfl
@[simp] theorem State.setCreel_coreCreel (s : State) (n : Nat) (c : Creel) : (s.setCreel n c).coreCreel = s.coreCreel := rfl
@[simp] theorem State.setCreel_mem (s : State) (n : Nat) (c : Creel) : (s.setCreel n c).mem = s.mem := rfl
@[simp] theorem State.setCreel_tiles (s : State) (n : Nat) (c : Creel) : (s.setCreel n c).tiles = s.tiles := rfl
@[simp] theorem State.setCreel_slices (s : State) (n : Nat) (c : Creel) : (s.setCreel n c).slices = s.slices := rfl
@[simp] theorem State.setCreel_bridges (s : State) (n : Nat) (c : Creel) : (s.setCreel n c).bridges = s.bridges := rfl
@[simp] theorem State.setCreel_chans (s : State) (n : Nat) (c : Creel) : (s.setCreel n c).chans = s.chans := rfl
@[simp] theorem State.setCreel_qosCfg (s : State) (n : Nat) (c : Creel) : (s.setCreel n c).qosCfg = s.qosCfg := rfl
@[simp] theorem State.setCreel_installed (s : State) (n : Nat) (c : Creel) : (s.setCreel n c).installed = s.installed := rfl
@[simp] theorem State.setCreel_creels (s : State) (n : Nat) (c : Creel) : (s.setCreel n c).creels = s.creels.set n c := rfl
@[simp] theorem State.setCreel_ringHolder (s : State) (n : Nat) (c : Creel) : (s.setCreel n c).ringHolder = s.ringHolder := rfl
@[simp] theorem State.setCreel_pqHolder (s : State) (n : Nat) (c : Creel) : (s.setCreel n c).pqHolder = s.pqHolder := rfl
@[simp] theorem State.setCreel_lgs (s : State) (n : Nat) (c : Creel) : (s.setCreel n c).lgs = s.lgs := rfl
@[simp] theorem State.setCreel_hoop (s : State) (n : Nat) (c : Creel) : (s.setCreel n c).hoop = s.hoop := rfl
@[simp] theorem State.setCreel_emitted (s : State) (n : Nat) (c : Creel) : (s.setCreel n c).emitted = s.emitted := rfl
@[simp] theorem State.setCreel_sources (s : State) (n : Nat) (c : Creel) : (s.setCreel n c).sources = s.sources := rfl
@[simp] theorem State.setCreel_log (s : State) (n : Nat) (c : Creel) : (s.setCreel n c).log = s.log := rfl
@[simp] theorem State.setCreel_banks (s : State) (n : Nat) (c : Creel) : (s.setCreel n c).banks = s.banks := rfl
@[simp] theorem State.setCreel_stake (s : State) (n : Nat) (c : Creel) : (s.setCreel n c).stake = s.stake := rfl
@[simp] theorem State.setCreel_bbkm (s : State) (n : Nat) (c : Creel) : (s.setCreel n c).bbkm = s.bbkm := rfl
@[simp] theorem State.setCreel_vault (s : State) (n : Nat) (c : Creel) : (s.setCreel n c).vault = s.vault := rfl
@[simp] theorem State.setCreel_reserve (s : State) (n : Nat) (c : Creel) : (s.setCreel n c).reserve = s.reserve := rfl
@[simp] theorem State.setCreel_unitCreel (s : State) (n : Nat) (c : Creel) : (s.setCreel n c).unitCreel = s.unitCreel := rfl
@[simp] theorem State.setCreel_units (s : State) (n : Nat) (c : Creel) : (s.setCreel n c).units = s.units := rfl
@[simp] theorem State.setCreel_pqs (s : State) (n : Nat) (c : Creel) : (s.setCreel n c).pqs = s.pqs := rfl
@[simp] theorem State.setCreel_seals (s : State) (n : Nat) (c : Creel) : (s.setCreel n c).seals = s.seals := rfl
@[simp] theorem State.setCreel_sealGen (s : State) (n : Nat) (c : Creel) : (s.setCreel n c).sealGen = s.sealGen := rfl
@[simp] theorem State.setCreel_lqs (s : State) (n : Nat) (c : Creel) : (s.setCreel n c).lqs = s.lqs := rfl
@[simp] theorem State.setCreel_rules (s : State) (n : Nat) (c : Creel) : (s.setCreel n c).rules = s.rules := rfl
@[simp] theorem State.setCreel_lports (s : State) (n : Nat) (c : Creel) : (s.setCreel n c).lports = s.lports := rfl
@[simp] theorem State.setCreel_hostFns (s : State) (n : Nat) (c : Creel) : (s.setCreel n c).hostFns = s.hostFns := rfl
@[simp] theorem State.setCreel_pair (s : State) (n : Nat) (c : Creel) : (s.setCreel n c).pair = s.pair := rfl
@[simp] theorem State.setCreel_board (s : State) (n : Nat) (c : Creel) : (s.setCreel n c).board = s.board := rfl
@[simp] theorem State.setCreel_resetting (s : State) (n : Nat) (c : Creel) : (s.setCreel n c).resetting = s.resetting := rfl
@[simp] theorem State.setCreel_power (s : State) (n : Nat) (c : Creel) : (s.setCreel n c).power = s.power := rfl
@[simp] theorem State.setCreel_hubTraffic (s : State) (n : Nat) (c : Creel) : (s.setCreel n c).hubTraffic = s.hubTraffic := rfl
@[simp] theorem State.setCreel_lastHubLog (s : State) (n : Nat) (c : Creel) : (s.setCreel n c).lastHubLog = s.lastHubLog := rfl
@[simp] theorem State.setCreel_clock (s : State) (n : Nat) (c : Creel) : (s.setCreel n c).clock = s.clock := rfl
@[simp] theorem State.setCreel_free (s : State) (n : Nat) (c : Creel) : (s.setCreel n c).free = s.free := rfl
@[simp] theorem State.setCreel_pending (s : State) (n : Nat) (c : Creel) : (s.setCreel n c).pending = s.pending := rfl
/-! ### modCreel -/
@[simp] theorem State.modCreel_cores (s : State) (n : Nat) (f : Creel → Creel) : (s.modCreel n f).cores = s.cores := rfl
@[simp] theorem State.modCreel_seqs (s : State) (n : Nat) (f : Creel → Creel) : (s.modCreel n f).seqs = s.seqs := rfl
@[simp] theorem State.modCreel_coreTile (s : State) (n : Nat) (f : Creel → Creel) : (s.modCreel n f).coreTile = s.coreTile := rfl
@[simp] theorem State.modCreel_coreCreel (s : State) (n : Nat) (f : Creel → Creel) : (s.modCreel n f).coreCreel = s.coreCreel := rfl
@[simp] theorem State.modCreel_mem (s : State) (n : Nat) (f : Creel → Creel) : (s.modCreel n f).mem = s.mem := rfl
@[simp] theorem State.modCreel_tiles (s : State) (n : Nat) (f : Creel → Creel) : (s.modCreel n f).tiles = s.tiles := rfl
@[simp] theorem State.modCreel_slices (s : State) (n : Nat) (f : Creel → Creel) : (s.modCreel n f).slices = s.slices := rfl
@[simp] theorem State.modCreel_bridges (s : State) (n : Nat) (f : Creel → Creel) : (s.modCreel n f).bridges = s.bridges := rfl
@[simp] theorem State.modCreel_chans (s : State) (n : Nat) (f : Creel → Creel) : (s.modCreel n f).chans = s.chans := rfl
@[simp] theorem State.modCreel_qosCfg (s : State) (n : Nat) (f : Creel → Creel) : (s.modCreel n f).qosCfg = s.qosCfg := rfl
@[simp] theorem State.modCreel_installed (s : State) (n : Nat) (f : Creel → Creel) : (s.modCreel n f).installed = s.installed := rfl
@[simp] theorem State.modCreel_creels (s : State) (n : Nat) (f : Creel → Creel) : (s.modCreel n f).creels = s.creels.set n (f (s.creel n)) := rfl
@[simp] theorem State.modCreel_ringHolder (s : State) (n : Nat) (f : Creel → Creel) : (s.modCreel n f).ringHolder = s.ringHolder := rfl
@[simp] theorem State.modCreel_pqHolder (s : State) (n : Nat) (f : Creel → Creel) : (s.modCreel n f).pqHolder = s.pqHolder := rfl
@[simp] theorem State.modCreel_lgs (s : State) (n : Nat) (f : Creel → Creel) : (s.modCreel n f).lgs = s.lgs := rfl
@[simp] theorem State.modCreel_hoop (s : State) (n : Nat) (f : Creel → Creel) : (s.modCreel n f).hoop = s.hoop := rfl
@[simp] theorem State.modCreel_emitted (s : State) (n : Nat) (f : Creel → Creel) : (s.modCreel n f).emitted = s.emitted := rfl
@[simp] theorem State.modCreel_sources (s : State) (n : Nat) (f : Creel → Creel) : (s.modCreel n f).sources = s.sources := rfl
@[simp] theorem State.modCreel_log (s : State) (n : Nat) (f : Creel → Creel) : (s.modCreel n f).log = s.log := rfl
@[simp] theorem State.modCreel_banks (s : State) (n : Nat) (f : Creel → Creel) : (s.modCreel n f).banks = s.banks := rfl
@[simp] theorem State.modCreel_stake (s : State) (n : Nat) (f : Creel → Creel) : (s.modCreel n f).stake = s.stake := rfl
@[simp] theorem State.modCreel_bbkm (s : State) (n : Nat) (f : Creel → Creel) : (s.modCreel n f).bbkm = s.bbkm := rfl
@[simp] theorem State.modCreel_vault (s : State) (n : Nat) (f : Creel → Creel) : (s.modCreel n f).vault = s.vault := rfl
@[simp] theorem State.modCreel_reserve (s : State) (n : Nat) (f : Creel → Creel) : (s.modCreel n f).reserve = s.reserve := rfl
@[simp] theorem State.modCreel_unitCreel (s : State) (n : Nat) (f : Creel → Creel) : (s.modCreel n f).unitCreel = s.unitCreel := rfl
@[simp] theorem State.modCreel_units (s : State) (n : Nat) (f : Creel → Creel) : (s.modCreel n f).units = s.units := rfl
@[simp] theorem State.modCreel_pqs (s : State) (n : Nat) (f : Creel → Creel) : (s.modCreel n f).pqs = s.pqs := rfl
@[simp] theorem State.modCreel_seals (s : State) (n : Nat) (f : Creel → Creel) : (s.modCreel n f).seals = s.seals := rfl
@[simp] theorem State.modCreel_sealGen (s : State) (n : Nat) (f : Creel → Creel) : (s.modCreel n f).sealGen = s.sealGen := rfl
@[simp] theorem State.modCreel_lqs (s : State) (n : Nat) (f : Creel → Creel) : (s.modCreel n f).lqs = s.lqs := rfl
@[simp] theorem State.modCreel_rules (s : State) (n : Nat) (f : Creel → Creel) : (s.modCreel n f).rules = s.rules := rfl
@[simp] theorem State.modCreel_lports (s : State) (n : Nat) (f : Creel → Creel) : (s.modCreel n f).lports = s.lports := rfl
@[simp] theorem State.modCreel_hostFns (s : State) (n : Nat) (f : Creel → Creel) : (s.modCreel n f).hostFns = s.hostFns := rfl
@[simp] theorem State.modCreel_pair (s : State) (n : Nat) (f : Creel → Creel) : (s.modCreel n f).pair = s.pair := rfl
@[simp] theorem State.modCreel_board (s : State) (n : Nat) (f : Creel → Creel) : (s.modCreel n f).board = s.board := rfl
@[simp] theorem State.modCreel_resetting (s : State) (n : Nat) (f : Creel → Creel) : (s.modCreel n f).resetting = s.resetting := rfl
@[simp] theorem State.modCreel_power (s : State) (n : Nat) (f : Creel → Creel) : (s.modCreel n f).power = s.power := rfl
@[simp] theorem State.modCreel_hubTraffic (s : State) (n : Nat) (f : Creel → Creel) : (s.modCreel n f).hubTraffic = s.hubTraffic := rfl
@[simp] theorem State.modCreel_lastHubLog (s : State) (n : Nat) (f : Creel → Creel) : (s.modCreel n f).lastHubLog = s.lastHubLog := rfl
@[simp] theorem State.modCreel_clock (s : State) (n : Nat) (f : Creel → Creel) : (s.modCreel n f).clock = s.clock := rfl
@[simp] theorem State.modCreel_free (s : State) (n : Nat) (f : Creel → Creel) : (s.modCreel n f).free = s.free := rfl
@[simp] theorem State.modCreel_pending (s : State) (n : Nat) (f : Creel → Creel) : (s.modCreel n f).pending = s.pending := rfl
/-! ### setLg -/
@[simp] theorem State.setLg_cores (s : State) (n : Nat) (c : Lg) : (s.setLg n c).cores = s.cores := rfl
@[simp] theorem State.setLg_seqs (s : State) (n : Nat) (c : Lg) : (s.setLg n c).seqs = s.seqs := rfl
@[simp] theorem State.setLg_coreTile (s : State) (n : Nat) (c : Lg) : (s.setLg n c).coreTile = s.coreTile := rfl
@[simp] theorem State.setLg_coreCreel (s : State) (n : Nat) (c : Lg) : (s.setLg n c).coreCreel = s.coreCreel := rfl
@[simp] theorem State.setLg_mem (s : State) (n : Nat) (c : Lg) : (s.setLg n c).mem = s.mem := rfl
@[simp] theorem State.setLg_tiles (s : State) (n : Nat) (c : Lg) : (s.setLg n c).tiles = s.tiles := rfl
@[simp] theorem State.setLg_slices (s : State) (n : Nat) (c : Lg) : (s.setLg n c).slices = s.slices := rfl
@[simp] theorem State.setLg_bridges (s : State) (n : Nat) (c : Lg) : (s.setLg n c).bridges = s.bridges := rfl
@[simp] theorem State.setLg_chans (s : State) (n : Nat) (c : Lg) : (s.setLg n c).chans = s.chans := rfl
@[simp] theorem State.setLg_qosCfg (s : State) (n : Nat) (c : Lg) : (s.setLg n c).qosCfg = s.qosCfg := rfl
@[simp] theorem State.setLg_installed (s : State) (n : Nat) (c : Lg) : (s.setLg n c).installed = s.installed := rfl
@[simp] theorem State.setLg_creels (s : State) (n : Nat) (c : Lg) : (s.setLg n c).creels = s.creels := rfl
@[simp] theorem State.setLg_ringHolder (s : State) (n : Nat) (c : Lg) : (s.setLg n c).ringHolder = s.ringHolder := rfl
@[simp] theorem State.setLg_pqHolder (s : State) (n : Nat) (c : Lg) : (s.setLg n c).pqHolder = s.pqHolder := rfl
@[simp] theorem State.setLg_lgs (s : State) (n : Nat) (c : Lg) : (s.setLg n c).lgs = s.lgs.set n c := rfl
@[simp] theorem State.setLg_hoop (s : State) (n : Nat) (c : Lg) : (s.setLg n c).hoop = s.hoop := rfl
@[simp] theorem State.setLg_emitted (s : State) (n : Nat) (c : Lg) : (s.setLg n c).emitted = s.emitted := rfl
@[simp] theorem State.setLg_sources (s : State) (n : Nat) (c : Lg) : (s.setLg n c).sources = s.sources := rfl
@[simp] theorem State.setLg_log (s : State) (n : Nat) (c : Lg) : (s.setLg n c).log = s.log := rfl
@[simp] theorem State.setLg_banks (s : State) (n : Nat) (c : Lg) : (s.setLg n c).banks = s.banks := rfl
@[simp] theorem State.setLg_stake (s : State) (n : Nat) (c : Lg) : (s.setLg n c).stake = s.stake := rfl
@[simp] theorem State.setLg_bbkm (s : State) (n : Nat) (c : Lg) : (s.setLg n c).bbkm = s.bbkm := rfl
@[simp] theorem State.setLg_vault (s : State) (n : Nat) (c : Lg) : (s.setLg n c).vault = s.vault := rfl
@[simp] theorem State.setLg_reserve (s : State) (n : Nat) (c : Lg) : (s.setLg n c).reserve = s.reserve := rfl
@[simp] theorem State.setLg_unitCreel (s : State) (n : Nat) (c : Lg) : (s.setLg n c).unitCreel = s.unitCreel := rfl
@[simp] theorem State.setLg_units (s : State) (n : Nat) (c : Lg) : (s.setLg n c).units = s.units := rfl
@[simp] theorem State.setLg_pqs (s : State) (n : Nat) (c : Lg) : (s.setLg n c).pqs = s.pqs := rfl
@[simp] theorem State.setLg_seals (s : State) (n : Nat) (c : Lg) : (s.setLg n c).seals = s.seals := rfl
@[simp] theorem State.setLg_sealGen (s : State) (n : Nat) (c : Lg) : (s.setLg n c).sealGen = s.sealGen := rfl
@[simp] theorem State.setLg_lqs (s : State) (n : Nat) (c : Lg) : (s.setLg n c).lqs = s.lqs := rfl
@[simp] theorem State.setLg_rules (s : State) (n : Nat) (c : Lg) : (s.setLg n c).rules = s.rules := rfl
@[simp] theorem State.setLg_lports (s : State) (n : Nat) (c : Lg) : (s.setLg n c).lports = s.lports := rfl
@[simp] theorem State.setLg_hostFns (s : State) (n : Nat) (c : Lg) : (s.setLg n c).hostFns = s.hostFns := rfl
@[simp] theorem State.setLg_pair (s : State) (n : Nat) (c : Lg) : (s.setLg n c).pair = s.pair := rfl
@[simp] theorem State.setLg_board (s : State) (n : Nat) (c : Lg) : (s.setLg n c).board = s.board := rfl
@[simp] theorem State.setLg_resetting (s : State) (n : Nat) (c : Lg) : (s.setLg n c).resetting = s.resetting := rfl
@[simp] theorem State.setLg_power (s : State) (n : Nat) (c : Lg) : (s.setLg n c).power = s.power := rfl
@[simp] theorem State.setLg_hubTraffic (s : State) (n : Nat) (c : Lg) : (s.setLg n c).hubTraffic = s.hubTraffic := rfl
@[simp] theorem State.setLg_lastHubLog (s : State) (n : Nat) (c : Lg) : (s.setLg n c).lastHubLog = s.lastHubLog := rfl
@[simp] theorem State.setLg_clock (s : State) (n : Nat) (c : Lg) : (s.setLg n c).clock = s.clock := rfl
@[simp] theorem State.setLg_free (s : State) (n : Nat) (c : Lg) : (s.setLg n c).free = s.free := rfl
@[simp] theorem State.setLg_pending (s : State) (n : Nat) (c : Lg) : (s.setLg n c).pending = s.pending := rfl
/-! ### modLg -/
@[simp] theorem State.modLg_cores (s : State) (n : Nat) (f : Lg → Lg) : (s.modLg n f).cores = s.cores := rfl
@[simp] theorem State.modLg_seqs (s : State) (n : Nat) (f : Lg → Lg) : (s.modLg n f).seqs = s.seqs := rfl
@[simp] theorem State.modLg_coreTile (s : State) (n : Nat) (f : Lg → Lg) : (s.modLg n f).coreTile = s.coreTile := rfl
@[simp] theorem State.modLg_coreCreel (s : State) (n : Nat) (f : Lg → Lg) : (s.modLg n f).coreCreel = s.coreCreel := rfl
@[simp] theorem State.modLg_mem (s : State) (n : Nat) (f : Lg → Lg) : (s.modLg n f).mem = s.mem := rfl
@[simp] theorem State.modLg_tiles (s : State) (n : Nat) (f : Lg → Lg) : (s.modLg n f).tiles = s.tiles := rfl
@[simp] theorem State.modLg_slices (s : State) (n : Nat) (f : Lg → Lg) : (s.modLg n f).slices = s.slices := rfl
@[simp] theorem State.modLg_bridges (s : State) (n : Nat) (f : Lg → Lg) : (s.modLg n f).bridges = s.bridges := rfl
@[simp] theorem State.modLg_chans (s : State) (n : Nat) (f : Lg → Lg) : (s.modLg n f).chans = s.chans := rfl
@[simp] theorem State.modLg_qosCfg (s : State) (n : Nat) (f : Lg → Lg) : (s.modLg n f).qosCfg = s.qosCfg := rfl
@[simp] theorem State.modLg_installed (s : State) (n : Nat) (f : Lg → Lg) : (s.modLg n f).installed = s.installed := rfl
@[simp] theorem State.modLg_creels (s : State) (n : Nat) (f : Lg → Lg) : (s.modLg n f).creels = s.creels := rfl
@[simp] theorem State.modLg_ringHolder (s : State) (n : Nat) (f : Lg → Lg) : (s.modLg n f).ringHolder = s.ringHolder := rfl
@[simp] theorem State.modLg_pqHolder (s : State) (n : Nat) (f : Lg → Lg) : (s.modLg n f).pqHolder = s.pqHolder := rfl
@[simp] theorem State.modLg_lgs (s : State) (n : Nat) (f : Lg → Lg) : (s.modLg n f).lgs = s.lgs.set n (f (s.lg n)) := rfl
@[simp] theorem State.modLg_hoop (s : State) (n : Nat) (f : Lg → Lg) : (s.modLg n f).hoop = s.hoop := rfl
@[simp] theorem State.modLg_emitted (s : State) (n : Nat) (f : Lg → Lg) : (s.modLg n f).emitted = s.emitted := rfl
@[simp] theorem State.modLg_sources (s : State) (n : Nat) (f : Lg → Lg) : (s.modLg n f).sources = s.sources := rfl
@[simp] theorem State.modLg_log (s : State) (n : Nat) (f : Lg → Lg) : (s.modLg n f).log = s.log := rfl
@[simp] theorem State.modLg_banks (s : State) (n : Nat) (f : Lg → Lg) : (s.modLg n f).banks = s.banks := rfl
@[simp] theorem State.modLg_stake (s : State) (n : Nat) (f : Lg → Lg) : (s.modLg n f).stake = s.stake := rfl
@[simp] theorem State.modLg_bbkm (s : State) (n : Nat) (f : Lg → Lg) : (s.modLg n f).bbkm = s.bbkm := rfl
@[simp] theorem State.modLg_vault (s : State) (n : Nat) (f : Lg → Lg) : (s.modLg n f).vault = s.vault := rfl
@[simp] theorem State.modLg_reserve (s : State) (n : Nat) (f : Lg → Lg) : (s.modLg n f).reserve = s.reserve := rfl
@[simp] theorem State.modLg_unitCreel (s : State) (n : Nat) (f : Lg → Lg) : (s.modLg n f).unitCreel = s.unitCreel := rfl
@[simp] theorem State.modLg_units (s : State) (n : Nat) (f : Lg → Lg) : (s.modLg n f).units = s.units := rfl
@[simp] theorem State.modLg_pqs (s : State) (n : Nat) (f : Lg → Lg) : (s.modLg n f).pqs = s.pqs := rfl
@[simp] theorem State.modLg_seals (s : State) (n : Nat) (f : Lg → Lg) : (s.modLg n f).seals = s.seals := rfl
@[simp] theorem State.modLg_sealGen (s : State) (n : Nat) (f : Lg → Lg) : (s.modLg n f).sealGen = s.sealGen := rfl
@[simp] theorem State.modLg_lqs (s : State) (n : Nat) (f : Lg → Lg) : (s.modLg n f).lqs = s.lqs := rfl
@[simp] theorem State.modLg_rules (s : State) (n : Nat) (f : Lg → Lg) : (s.modLg n f).rules = s.rules := rfl
@[simp] theorem State.modLg_lports (s : State) (n : Nat) (f : Lg → Lg) : (s.modLg n f).lports = s.lports := rfl
@[simp] theorem State.modLg_hostFns (s : State) (n : Nat) (f : Lg → Lg) : (s.modLg n f).hostFns = s.hostFns := rfl
@[simp] theorem State.modLg_pair (s : State) (n : Nat) (f : Lg → Lg) : (s.modLg n f).pair = s.pair := rfl
@[simp] theorem State.modLg_board (s : State) (n : Nat) (f : Lg → Lg) : (s.modLg n f).board = s.board := rfl
@[simp] theorem State.modLg_resetting (s : State) (n : Nat) (f : Lg → Lg) : (s.modLg n f).resetting = s.resetting := rfl
@[simp] theorem State.modLg_power (s : State) (n : Nat) (f : Lg → Lg) : (s.modLg n f).power = s.power := rfl
@[simp] theorem State.modLg_hubTraffic (s : State) (n : Nat) (f : Lg → Lg) : (s.modLg n f).hubTraffic = s.hubTraffic := rfl
@[simp] theorem State.modLg_lastHubLog (s : State) (n : Nat) (f : Lg → Lg) : (s.modLg n f).lastHubLog = s.lastHubLog := rfl
@[simp] theorem State.modLg_clock (s : State) (n : Nat) (f : Lg → Lg) : (s.modLg n f).clock = s.clock := rfl
@[simp] theorem State.modLg_free (s : State) (n : Nat) (f : Lg → Lg) : (s.modLg n f).free = s.free := rfl
@[simp] theorem State.modLg_pending (s : State) (n : Nat) (f : Lg → Lg) : (s.modLg n f).pending = s.pending := rfl
/-! ### modStake -/
@[simp] theorem State.modStake_cores (s : State) (f : Stake → Stake) : (s.modStake f).cores = s.cores := rfl
@[simp] theorem State.modStake_seqs (s : State) (f : Stake → Stake) : (s.modStake f).seqs = s.seqs := rfl
@[simp] theorem State.modStake_coreTile (s : State) (f : Stake → Stake) : (s.modStake f).coreTile = s.coreTile := rfl
@[simp] theorem State.modStake_coreCreel (s : State) (f : Stake → Stake) : (s.modStake f).coreCreel = s.coreCreel := rfl
@[simp] theorem State.modStake_mem (s : State) (f : Stake → Stake) : (s.modStake f).mem = s.mem := rfl
@[simp] theorem State.modStake_tiles (s : State) (f : Stake → Stake) : (s.modStake f).tiles = s.tiles := rfl
@[simp] theorem State.modStake_slices (s : State) (f : Stake → Stake) : (s.modStake f).slices = s.slices := rfl
@[simp] theorem State.modStake_bridges (s : State) (f : Stake → Stake) : (s.modStake f).bridges = s.bridges := rfl
@[simp] theorem State.modStake_chans (s : State) (f : Stake → Stake) : (s.modStake f).chans = s.chans := rfl
@[simp] theorem State.modStake_qosCfg (s : State) (f : Stake → Stake) : (s.modStake f).qosCfg = s.qosCfg := rfl
@[simp] theorem State.modStake_installed (s : State) (f : Stake → Stake) : (s.modStake f).installed = s.installed := rfl
@[simp] theorem State.modStake_creels (s : State) (f : Stake → Stake) : (s.modStake f).creels = s.creels := rfl
@[simp] theorem State.modStake_ringHolder (s : State) (f : Stake → Stake) : (s.modStake f).ringHolder = s.ringHolder := rfl
@[simp] theorem State.modStake_pqHolder (s : State) (f : Stake → Stake) : (s.modStake f).pqHolder = s.pqHolder := rfl
@[simp] theorem State.modStake_lgs (s : State) (f : Stake → Stake) : (s.modStake f).lgs = s.lgs := rfl
@[simp] theorem State.modStake_hoop (s : State) (f : Stake → Stake) : (s.modStake f).hoop = s.hoop := rfl
@[simp] theorem State.modStake_emitted (s : State) (f : Stake → Stake) : (s.modStake f).emitted = s.emitted := rfl
@[simp] theorem State.modStake_sources (s : State) (f : Stake → Stake) : (s.modStake f).sources = s.sources := rfl
@[simp] theorem State.modStake_log (s : State) (f : Stake → Stake) : (s.modStake f).log = s.log := rfl
@[simp] theorem State.modStake_banks (s : State) (f : Stake → Stake) : (s.modStake f).banks = s.banks := rfl
@[simp] theorem State.modStake_stake (s : State) (f : Stake → Stake) : (s.modStake f).stake = f s.stake := rfl
@[simp] theorem State.modStake_bbkm (s : State) (f : Stake → Stake) : (s.modStake f).bbkm = s.bbkm := rfl
@[simp] theorem State.modStake_vault (s : State) (f : Stake → Stake) : (s.modStake f).vault = s.vault := rfl
@[simp] theorem State.modStake_reserve (s : State) (f : Stake → Stake) : (s.modStake f).reserve = s.reserve := rfl
@[simp] theorem State.modStake_unitCreel (s : State) (f : Stake → Stake) : (s.modStake f).unitCreel = s.unitCreel := rfl
@[simp] theorem State.modStake_units (s : State) (f : Stake → Stake) : (s.modStake f).units = s.units := rfl
@[simp] theorem State.modStake_pqs (s : State) (f : Stake → Stake) : (s.modStake f).pqs = s.pqs := rfl
@[simp] theorem State.modStake_seals (s : State) (f : Stake → Stake) : (s.modStake f).seals = s.seals := rfl
@[simp] theorem State.modStake_sealGen (s : State) (f : Stake → Stake) : (s.modStake f).sealGen = s.sealGen := rfl
@[simp] theorem State.modStake_lqs (s : State) (f : Stake → Stake) : (s.modStake f).lqs = s.lqs := rfl
@[simp] theorem State.modStake_rules (s : State) (f : Stake → Stake) : (s.modStake f).rules = s.rules := rfl
@[simp] theorem State.modStake_lports (s : State) (f : Stake → Stake) : (s.modStake f).lports = s.lports := rfl
@[simp] theorem State.modStake_hostFns (s : State) (f : Stake → Stake) : (s.modStake f).hostFns = s.hostFns := rfl
@[simp] theorem State.modStake_pair (s : State) (f : Stake → Stake) : (s.modStake f).pair = s.pair := rfl
@[simp] theorem State.modStake_board (s : State) (f : Stake → Stake) : (s.modStake f).board = s.board := rfl
@[simp] theorem State.modStake_resetting (s : State) (f : Stake → Stake) : (s.modStake f).resetting = s.resetting := rfl
@[simp] theorem State.modStake_power (s : State) (f : Stake → Stake) : (s.modStake f).power = s.power := rfl
@[simp] theorem State.modStake_hubTraffic (s : State) (f : Stake → Stake) : (s.modStake f).hubTraffic = s.hubTraffic := rfl
@[simp] theorem State.modStake_lastHubLog (s : State) (f : Stake → Stake) : (s.modStake f).lastHubLog = s.lastHubLog := rfl
@[simp] theorem State.modStake_clock (s : State) (f : Stake → Stake) : (s.modStake f).clock = s.clock := rfl
@[simp] theorem State.modStake_free (s : State) (f : Stake → Stake) : (s.modStake f).free = s.free := rfl
@[simp] theorem State.modStake_pending (s : State) (f : Stake → Stake) : (s.modStake f).pending = s.pending := rfl
/-! ### modVault -/
@[simp] theorem State.modVault_cores (s : State) (f : Vault → Vault) : (s.modVault f).cores = s.cores := rfl
@[simp] theorem State.modVault_seqs (s : State) (f : Vault → Vault) : (s.modVault f).seqs = s.seqs := rfl
@[simp] theorem State.modVault_coreTile (s : State) (f : Vault → Vault) : (s.modVault f).coreTile = s.coreTile := rfl
@[simp] theorem State.modVault_coreCreel (s : State) (f : Vault → Vault) : (s.modVault f).coreCreel = s.coreCreel := rfl
@[simp] theorem State.modVault_mem (s : State) (f : Vault → Vault) : (s.modVault f).mem = s.mem := rfl
@[simp] theorem State.modVault_tiles (s : State) (f : Vault → Vault) : (s.modVault f).tiles = s.tiles := rfl
@[simp] theorem State.modVault_slices (s : State) (f : Vault → Vault) : (s.modVault f).slices = s.slices := rfl
@[simp] theorem State.modVault_bridges (s : State) (f : Vault → Vault) : (s.modVault f).bridges = s.bridges := rfl
@[simp] theorem State.modVault_chans (s : State) (f : Vault → Vault) : (s.modVault f).chans = s.chans := rfl
@[simp] theorem State.modVault_qosCfg (s : State) (f : Vault → Vault) : (s.modVault f).qosCfg = s.qosCfg := rfl
@[simp] theorem State.modVault_installed (s : State) (f : Vault → Vault) : (s.modVault f).installed = s.installed := rfl
@[simp] theorem State.modVault_creels (s : State) (f : Vault → Vault) : (s.modVault f).creels = s.creels := rfl
@[simp] theorem State.modVault_ringHolder (s : State) (f : Vault → Vault) : (s.modVault f).ringHolder = s.ringHolder := rfl
@[simp] theorem State.modVault_pqHolder (s : State) (f : Vault → Vault) : (s.modVault f).pqHolder = s.pqHolder := rfl
@[simp] theorem State.modVault_lgs (s : State) (f : Vault → Vault) : (s.modVault f).lgs = s.lgs := rfl
@[simp] theorem State.modVault_hoop (s : State) (f : Vault → Vault) : (s.modVault f).hoop = s.hoop := rfl
@[simp] theorem State.modVault_emitted (s : State) (f : Vault → Vault) : (s.modVault f).emitted = s.emitted := rfl
@[simp] theorem State.modVault_sources (s : State) (f : Vault → Vault) : (s.modVault f).sources = s.sources := rfl
@[simp] theorem State.modVault_log (s : State) (f : Vault → Vault) : (s.modVault f).log = s.log := rfl
@[simp] theorem State.modVault_banks (s : State) (f : Vault → Vault) : (s.modVault f).banks = s.banks := rfl
@[simp] theorem State.modVault_stake (s : State) (f : Vault → Vault) : (s.modVault f).stake = s.stake := rfl
@[simp] theorem State.modVault_bbkm (s : State) (f : Vault → Vault) : (s.modVault f).bbkm = s.bbkm := rfl
@[simp] theorem State.modVault_vault (s : State) (f : Vault → Vault) : (s.modVault f).vault = f s.vault := rfl
@[simp] theorem State.modVault_reserve (s : State) (f : Vault → Vault) : (s.modVault f).reserve = s.reserve := rfl
@[simp] theorem State.modVault_unitCreel (s : State) (f : Vault → Vault) : (s.modVault f).unitCreel = s.unitCreel := rfl
@[simp] theorem State.modVault_units (s : State) (f : Vault → Vault) : (s.modVault f).units = s.units := rfl
@[simp] theorem State.modVault_pqs (s : State) (f : Vault → Vault) : (s.modVault f).pqs = s.pqs := rfl
@[simp] theorem State.modVault_seals (s : State) (f : Vault → Vault) : (s.modVault f).seals = s.seals := rfl
@[simp] theorem State.modVault_sealGen (s : State) (f : Vault → Vault) : (s.modVault f).sealGen = s.sealGen := rfl
@[simp] theorem State.modVault_lqs (s : State) (f : Vault → Vault) : (s.modVault f).lqs = s.lqs := rfl
@[simp] theorem State.modVault_rules (s : State) (f : Vault → Vault) : (s.modVault f).rules = s.rules := rfl
@[simp] theorem State.modVault_lports (s : State) (f : Vault → Vault) : (s.modVault f).lports = s.lports := rfl
@[simp] theorem State.modVault_hostFns (s : State) (f : Vault → Vault) : (s.modVault f).hostFns = s.hostFns := rfl
@[simp] theorem State.modVault_pair (s : State) (f : Vault → Vault) : (s.modVault f).pair = s.pair := rfl
@[simp] theorem State.modVault_board (s : State) (f : Vault → Vault) : (s.modVault f).board = s.board := rfl
@[simp] theorem State.modVault_resetting (s : State) (f : Vault → Vault) : (s.modVault f).resetting = s.resetting := rfl
@[simp] theorem State.modVault_power (s : State) (f : Vault → Vault) : (s.modVault f).power = s.power := rfl
@[simp] theorem State.modVault_hubTraffic (s : State) (f : Vault → Vault) : (s.modVault f).hubTraffic = s.hubTraffic := rfl
@[simp] theorem State.modVault_lastHubLog (s : State) (f : Vault → Vault) : (s.modVault f).lastHubLog = s.lastHubLog := rfl
@[simp] theorem State.modVault_clock (s : State) (f : Vault → Vault) : (s.modVault f).clock = s.clock := rfl
@[simp] theorem State.modVault_free (s : State) (f : Vault → Vault) : (s.modVault f).free = s.free := rfl
@[simp] theorem State.modVault_pending (s : State) (f : Vault → Vault) : (s.modVault f).pending = s.pending := rfl
/-! ### modBbkm -/
@[simp] theorem State.modBbkm_cores (s : State) (f : Bbkm → Bbkm) : (s.modBbkm f).cores = s.cores := rfl
@[simp] theorem State.modBbkm_seqs (s : State) (f : Bbkm → Bbkm) : (s.modBbkm f).seqs = s.seqs := rfl
@[simp] theorem State.modBbkm_coreTile (s : State) (f : Bbkm → Bbkm) : (s.modBbkm f).coreTile = s.coreTile := rfl
@[simp] theorem State.modBbkm_coreCreel (s : State) (f : Bbkm → Bbkm) : (s.modBbkm f).coreCreel = s.coreCreel := rfl
@[simp] theorem State.modBbkm_mem (s : State) (f : Bbkm → Bbkm) : (s.modBbkm f).mem = s.mem := rfl
@[simp] theorem State.modBbkm_tiles (s : State) (f : Bbkm → Bbkm) : (s.modBbkm f).tiles = s.tiles := rfl
@[simp] theorem State.modBbkm_slices (s : State) (f : Bbkm → Bbkm) : (s.modBbkm f).slices = s.slices := rfl
@[simp] theorem State.modBbkm_bridges (s : State) (f : Bbkm → Bbkm) : (s.modBbkm f).bridges = s.bridges := rfl
@[simp] theorem State.modBbkm_chans (s : State) (f : Bbkm → Bbkm) : (s.modBbkm f).chans = s.chans := rfl
@[simp] theorem State.modBbkm_qosCfg (s : State) (f : Bbkm → Bbkm) : (s.modBbkm f).qosCfg = s.qosCfg := rfl
@[simp] theorem State.modBbkm_installed (s : State) (f : Bbkm → Bbkm) : (s.modBbkm f).installed = s.installed := rfl
@[simp] theorem State.modBbkm_creels (s : State) (f : Bbkm → Bbkm) : (s.modBbkm f).creels = s.creels := rfl
@[simp] theorem State.modBbkm_ringHolder (s : State) (f : Bbkm → Bbkm) : (s.modBbkm f).ringHolder = s.ringHolder := rfl
@[simp] theorem State.modBbkm_pqHolder (s : State) (f : Bbkm → Bbkm) : (s.modBbkm f).pqHolder = s.pqHolder := rfl
@[simp] theorem State.modBbkm_lgs (s : State) (f : Bbkm → Bbkm) : (s.modBbkm f).lgs = s.lgs := rfl
@[simp] theorem State.modBbkm_hoop (s : State) (f : Bbkm → Bbkm) : (s.modBbkm f).hoop = s.hoop := rfl
@[simp] theorem State.modBbkm_emitted (s : State) (f : Bbkm → Bbkm) : (s.modBbkm f).emitted = s.emitted := rfl
@[simp] theorem State.modBbkm_sources (s : State) (f : Bbkm → Bbkm) : (s.modBbkm f).sources = s.sources := rfl
@[simp] theorem State.modBbkm_log (s : State) (f : Bbkm → Bbkm) : (s.modBbkm f).log = s.log := rfl
@[simp] theorem State.modBbkm_banks (s : State) (f : Bbkm → Bbkm) : (s.modBbkm f).banks = s.banks := rfl
@[simp] theorem State.modBbkm_stake (s : State) (f : Bbkm → Bbkm) : (s.modBbkm f).stake = s.stake := rfl
@[simp] theorem State.modBbkm_bbkm (s : State) (f : Bbkm → Bbkm) : (s.modBbkm f).bbkm = f s.bbkm := rfl
@[simp] theorem State.modBbkm_vault (s : State) (f : Bbkm → Bbkm) : (s.modBbkm f).vault = s.vault := rfl
@[simp] theorem State.modBbkm_reserve (s : State) (f : Bbkm → Bbkm) : (s.modBbkm f).reserve = s.reserve := rfl
@[simp] theorem State.modBbkm_unitCreel (s : State) (f : Bbkm → Bbkm) : (s.modBbkm f).unitCreel = s.unitCreel := rfl
@[simp] theorem State.modBbkm_units (s : State) (f : Bbkm → Bbkm) : (s.modBbkm f).units = s.units := rfl
@[simp] theorem State.modBbkm_pqs (s : State) (f : Bbkm → Bbkm) : (s.modBbkm f).pqs = s.pqs := rfl
@[simp] theorem State.modBbkm_seals (s : State) (f : Bbkm → Bbkm) : (s.modBbkm f).seals = s.seals := rfl
@[simp] theorem State.modBbkm_sealGen (s : State) (f : Bbkm → Bbkm) : (s.modBbkm f).sealGen = s.sealGen := rfl
@[simp] theorem State.modBbkm_lqs (s : State) (f : Bbkm → Bbkm) : (s.modBbkm f).lqs = s.lqs := rfl
@[simp] theorem State.modBbkm_rules (s : State) (f : Bbkm → Bbkm) : (s.modBbkm f).rules = s.rules := rfl
@[simp] theorem State.modBbkm_lports (s : State) (f : Bbkm → Bbkm) : (s.modBbkm f).lports = s.lports := rfl
@[simp] theorem State.modBbkm_hostFns (s : State) (f : Bbkm → Bbkm) : (s.modBbkm f).hostFns = s.hostFns := rfl
@[simp] theorem State.modBbkm_pair (s : State) (f : Bbkm → Bbkm) : (s.modBbkm f).pair = s.pair := rfl
@[simp] theorem State.modBbkm_board (s : State) (f : Bbkm → Bbkm) : (s.modBbkm f).board = s.board := rfl
@[simp] theorem State.modBbkm_resetting (s : State) (f : Bbkm → Bbkm) : (s.modBbkm f).resetting = s.resetting := rfl
@[simp] theorem State.modBbkm_power (s : State) (f : Bbkm → Bbkm) : (s.modBbkm f).power = s.power := rfl
@[simp] theorem State.modBbkm_hubTraffic (s : State) (f : Bbkm → Bbkm) : (s.modBbkm f).hubTraffic = s.hubTraffic := rfl
@[simp] theorem State.modBbkm_lastHubLog (s : State) (f : Bbkm → Bbkm) : (s.modBbkm f).lastHubLog = s.lastHubLog := rfl
@[simp] theorem State.modBbkm_clock (s : State) (f : Bbkm → Bbkm) : (s.modBbkm f).clock = s.clock := rfl
@[simp] theorem State.modBbkm_free (s : State) (f : Bbkm → Bbkm) : (s.modBbkm f).free = s.free := rfl
@[simp] theorem State.modBbkm_pending (s : State) (f : Bbkm → Bbkm) : (s.modBbkm f).pending = s.pending := rfl
/-! ### modHoop -/
@[simp] theorem State.modHoop_cores (s : State) (f : Hoop → Hoop) : (s.modHoop f).cores = s.cores := rfl
@[simp] theorem State.modHoop_seqs (s : State) (f : Hoop → Hoop) : (s.modHoop f).seqs = s.seqs := rfl
@[simp] theorem State.modHoop_coreTile (s : State) (f : Hoop → Hoop) : (s.modHoop f).coreTile = s.coreTile := rfl
@[simp] theorem State.modHoop_coreCreel (s : State) (f : Hoop → Hoop) : (s.modHoop f).coreCreel = s.coreCreel := rfl
@[simp] theorem State.modHoop_mem (s : State) (f : Hoop → Hoop) : (s.modHoop f).mem = s.mem := rfl
@[simp] theorem State.modHoop_tiles (s : State) (f : Hoop → Hoop) : (s.modHoop f).tiles = s.tiles := rfl
@[simp] theorem State.modHoop_slices (s : State) (f : Hoop → Hoop) : (s.modHoop f).slices = s.slices := rfl
@[simp] theorem State.modHoop_bridges (s : State) (f : Hoop → Hoop) : (s.modHoop f).bridges = s.bridges := rfl
@[simp] theorem State.modHoop_chans (s : State) (f : Hoop → Hoop) : (s.modHoop f).chans = s.chans := rfl
@[simp] theorem State.modHoop_qosCfg (s : State) (f : Hoop → Hoop) : (s.modHoop f).qosCfg = s.qosCfg := rfl
@[simp] theorem State.modHoop_installed (s : State) (f : Hoop → Hoop) : (s.modHoop f).installed = s.installed := rfl
@[simp] theorem State.modHoop_creels (s : State) (f : Hoop → Hoop) : (s.modHoop f).creels = s.creels := rfl
@[simp] theorem State.modHoop_ringHolder (s : State) (f : Hoop → Hoop) : (s.modHoop f).ringHolder = s.ringHolder := rfl
@[simp] theorem State.modHoop_pqHolder (s : State) (f : Hoop → Hoop) : (s.modHoop f).pqHolder = s.pqHolder := rfl
@[simp] theorem State.modHoop_lgs (s : State) (f : Hoop → Hoop) : (s.modHoop f).lgs = s.lgs := rfl
@[simp] theorem State.modHoop_hoop (s : State) (f : Hoop → Hoop) : (s.modHoop f).hoop = f s.hoop := rfl
@[simp] theorem State.modHoop_emitted (s : State) (f : Hoop → Hoop) : (s.modHoop f).emitted = s.emitted := rfl
@[simp] theorem State.modHoop_sources (s : State) (f : Hoop → Hoop) : (s.modHoop f).sources = s.sources := rfl
@[simp] theorem State.modHoop_log (s : State) (f : Hoop → Hoop) : (s.modHoop f).log = s.log := rfl
@[simp] theorem State.modHoop_banks (s : State) (f : Hoop → Hoop) : (s.modHoop f).banks = s.banks := rfl
@[simp] theorem State.modHoop_stake (s : State) (f : Hoop → Hoop) : (s.modHoop f).stake = s.stake := rfl
@[simp] theorem State.modHoop_bbkm (s : State) (f : Hoop → Hoop) : (s.modHoop f).bbkm = s.bbkm := rfl
@[simp] theorem State.modHoop_vault (s : State) (f : Hoop → Hoop) : (s.modHoop f).vault = s.vault := rfl
@[simp] theorem State.modHoop_reserve (s : State) (f : Hoop → Hoop) : (s.modHoop f).reserve = s.reserve := rfl
@[simp] theorem State.modHoop_unitCreel (s : State) (f : Hoop → Hoop) : (s.modHoop f).unitCreel = s.unitCreel := rfl
@[simp] theorem State.modHoop_units (s : State) (f : Hoop → Hoop) : (s.modHoop f).units = s.units := rfl
@[simp] theorem State.modHoop_pqs (s : State) (f : Hoop → Hoop) : (s.modHoop f).pqs = s.pqs := rfl
@[simp] theorem State.modHoop_seals (s : State) (f : Hoop → Hoop) : (s.modHoop f).seals = s.seals := rfl
@[simp] theorem State.modHoop_sealGen (s : State) (f : Hoop → Hoop) : (s.modHoop f).sealGen = s.sealGen := rfl
@[simp] theorem State.modHoop_lqs (s : State) (f : Hoop → Hoop) : (s.modHoop f).lqs = s.lqs := rfl
@[simp] theorem State.modHoop_rules (s : State) (f : Hoop → Hoop) : (s.modHoop f).rules = s.rules := rfl
@[simp] theorem State.modHoop_lports (s : State) (f : Hoop → Hoop) : (s.modHoop f).lports = s.lports := rfl
@[simp] theorem State.modHoop_hostFns (s : State) (f : Hoop → Hoop) : (s.modHoop f).hostFns = s.hostFns := rfl
@[simp] theorem State.modHoop_pair (s : State) (f : Hoop → Hoop) : (s.modHoop f).pair = s.pair := rfl
@[simp] theorem State.modHoop_board (s : State) (f : Hoop → Hoop) : (s.modHoop f).board = s.board := rfl
@[simp] theorem State.modHoop_resetting (s : State) (f : Hoop → Hoop) : (s.modHoop f).resetting = s.resetting := rfl
@[simp] theorem State.modHoop_power (s : State) (f : Hoop → Hoop) : (s.modHoop f).power = s.power := rfl
@[simp] theorem State.modHoop_hubTraffic (s : State) (f : Hoop → Hoop) : (s.modHoop f).hubTraffic = s.hubTraffic := rfl
@[simp] theorem State.modHoop_lastHubLog (s : State) (f : Hoop → Hoop) : (s.modHoop f).lastHubLog = s.lastHubLog := rfl
@[simp] theorem State.modHoop_clock (s : State) (f : Hoop → Hoop) : (s.modHoop f).clock = s.clock := rfl
@[simp] theorem State.modHoop_free (s : State) (f : Hoop → Hoop) : (s.modHoop f).free = s.free := rfl
@[simp] theorem State.modHoop_pending (s : State) (f : Hoop → Hoop) : (s.modHoop f).pending = s.pending := rfl
/-! ### modPair -/
@[simp] theorem State.modPair_cores (s : State) (f : Pair → Pair) : (s.modPair f).cores = s.cores := rfl
@[simp] theorem State.modPair_seqs (s : State) (f : Pair → Pair) : (s.modPair f).seqs = s.seqs := rfl
@[simp] theorem State.modPair_coreTile (s : State) (f : Pair → Pair) : (s.modPair f).coreTile = s.coreTile := rfl
@[simp] theorem State.modPair_coreCreel (s : State) (f : Pair → Pair) : (s.modPair f).coreCreel = s.coreCreel := rfl
@[simp] theorem State.modPair_mem (s : State) (f : Pair → Pair) : (s.modPair f).mem = s.mem := rfl
@[simp] theorem State.modPair_tiles (s : State) (f : Pair → Pair) : (s.modPair f).tiles = s.tiles := rfl
@[simp] theorem State.modPair_slices (s : State) (f : Pair → Pair) : (s.modPair f).slices = s.slices := rfl
@[simp] theorem State.modPair_bridges (s : State) (f : Pair → Pair) : (s.modPair f).bridges = s.bridges := rfl
@[simp] theorem State.modPair_chans (s : State) (f : Pair → Pair) : (s.modPair f).chans = s.chans := rfl
@[simp] theorem State.modPair_qosCfg (s : State) (f : Pair → Pair) : (s.modPair f).qosCfg = s.qosCfg := rfl
@[simp] theorem State.modPair_installed (s : State) (f : Pair → Pair) : (s.modPair f).installed = s.installed := rfl
@[simp] theorem State.modPair_creels (s : State) (f : Pair → Pair) : (s.modPair f).creels = s.creels := rfl
@[simp] theorem State.modPair_ringHolder (s : State) (f : Pair → Pair) : (s.modPair f).ringHolder = s.ringHolder := rfl
@[simp] theorem State.modPair_pqHolder (s : State) (f : Pair → Pair) : (s.modPair f).pqHolder = s.pqHolder := rfl
@[simp] theorem State.modPair_lgs (s : State) (f : Pair → Pair) : (s.modPair f).lgs = s.lgs := rfl
@[simp] theorem State.modPair_hoop (s : State) (f : Pair → Pair) : (s.modPair f).hoop = s.hoop := rfl
@[simp] theorem State.modPair_emitted (s : State) (f : Pair → Pair) : (s.modPair f).emitted = s.emitted := rfl
@[simp] theorem State.modPair_sources (s : State) (f : Pair → Pair) : (s.modPair f).sources = s.sources := rfl
@[simp] theorem State.modPair_log (s : State) (f : Pair → Pair) : (s.modPair f).log = s.log := rfl
@[simp] theorem State.modPair_banks (s : State) (f : Pair → Pair) : (s.modPair f).banks = s.banks := rfl
@[simp] theorem State.modPair_stake (s : State) (f : Pair → Pair) : (s.modPair f).stake = s.stake := rfl
@[simp] theorem State.modPair_bbkm (s : State) (f : Pair → Pair) : (s.modPair f).bbkm = s.bbkm := rfl
@[simp] theorem State.modPair_vault (s : State) (f : Pair → Pair) : (s.modPair f).vault = s.vault := rfl
@[simp] theorem State.modPair_reserve (s : State) (f : Pair → Pair) : (s.modPair f).reserve = s.reserve := rfl
@[simp] theorem State.modPair_unitCreel (s : State) (f : Pair → Pair) : (s.modPair f).unitCreel = s.unitCreel := rfl
@[simp] theorem State.modPair_units (s : State) (f : Pair → Pair) : (s.modPair f).units = s.units := rfl
@[simp] theorem State.modPair_pqs (s : State) (f : Pair → Pair) : (s.modPair f).pqs = s.pqs := rfl
@[simp] theorem State.modPair_seals (s : State) (f : Pair → Pair) : (s.modPair f).seals = s.seals := rfl
@[simp] theorem State.modPair_sealGen (s : State) (f : Pair → Pair) : (s.modPair f).sealGen = s.sealGen := rfl
@[simp] theorem State.modPair_lqs (s : State) (f : Pair → Pair) : (s.modPair f).lqs = s.lqs := rfl
@[simp] theorem State.modPair_rules (s : State) (f : Pair → Pair) : (s.modPair f).rules = s.rules := rfl
@[simp] theorem State.modPair_lports (s : State) (f : Pair → Pair) : (s.modPair f).lports = s.lports := rfl
@[simp] theorem State.modPair_hostFns (s : State) (f : Pair → Pair) : (s.modPair f).hostFns = s.hostFns := rfl
@[simp] theorem State.modPair_pair (s : State) (f : Pair → Pair) : (s.modPair f).pair = f s.pair := rfl
@[simp] theorem State.modPair_board (s : State) (f : Pair → Pair) : (s.modPair f).board = s.board := rfl
@[simp] theorem State.modPair_resetting (s : State) (f : Pair → Pair) : (s.modPair f).resetting = s.resetting := rfl
@[simp] theorem State.modPair_power (s : State) (f : Pair → Pair) : (s.modPair f).power = s.power := rfl
@[simp] theorem State.modPair_hubTraffic (s : State) (f : Pair → Pair) : (s.modPair f).hubTraffic = s.hubTraffic := rfl
@[simp] theorem State.modPair_lastHubLog (s : State) (f : Pair → Pair) : (s.modPair f).lastHubLog = s.lastHubLog := rfl
@[simp] theorem State.modPair_clock (s : State) (f : Pair → Pair) : (s.modPair f).clock = s.clock := rfl
@[simp] theorem State.modPair_free (s : State) (f : Pair → Pair) : (s.modPair f).free = s.free := rfl
@[simp] theorem State.modPair_pending (s : State) (f : Pair → Pair) : (s.modPair f).pending = s.pending := rfl
/-! ### modBoard -/
@[simp] theorem State.modBoard_cores (s : State) (f : Board → Board) : (s.modBoard f).cores = s.cores := rfl
@[simp] theorem State.modBoard_seqs (s : State) (f : Board → Board) : (s.modBoard f).seqs = s.seqs := rfl
@[simp] theorem State.modBoard_coreTile (s : State) (f : Board → Board) : (s.modBoard f).coreTile = s.coreTile := rfl
@[simp] theorem State.modBoard_coreCreel (s : State) (f : Board → Board) : (s.modBoard f).coreCreel = s.coreCreel := rfl
@[simp] theorem State.modBoard_mem (s : State) (f : Board → Board) : (s.modBoard f).mem = s.mem := rfl
@[simp] theorem State.modBoard_tiles (s : State) (f : Board → Board) : (s.modBoard f).tiles = s.tiles := rfl
@[simp] theorem State.modBoard_slices (s : State) (f : Board → Board) : (s.modBoard f).slices = s.slices := rfl
@[simp] theorem State.modBoard_bridges (s : State) (f : Board → Board) : (s.modBoard f).bridges = s.bridges := rfl
@[simp] theorem State.modBoard_chans (s : State) (f : Board → Board) : (s.modBoard f).chans = s.chans := rfl
@[simp] theorem State.modBoard_qosCfg (s : State) (f : Board → Board) : (s.modBoard f).qosCfg = s.qosCfg := rfl
@[simp] theorem State.modBoard_installed (s : State) (f : Board → Board) : (s.modBoard f).installed = s.installed := rfl
@[simp] theorem State.modBoard_creels (s : State) (f : Board → Board) : (s.modBoard f).creels = s.creels := rfl
@[simp] theorem State.modBoard_ringHolder (s : State) (f : Board → Board) : (s.modBoard f).ringHolder = s.ringHolder := rfl
@[simp] theorem State.modBoard_pqHolder (s : State) (f : Board → Board) : (s.modBoard f).pqHolder = s.pqHolder := rfl
@[simp] theorem State.modBoard_lgs (s : State) (f : Board → Board) : (s.modBoard f).lgs = s.lgs := rfl
@[simp] theorem State.modBoard_hoop (s : State) (f : Board → Board) : (s.modBoard f).hoop = s.hoop := rfl
@[simp] theorem State.modBoard_emitted (s : State) (f : Board → Board) : (s.modBoard f).emitted = s.emitted := rfl
@[simp] theorem State.modBoard_sources (s : State) (f : Board → Board) : (s.modBoard f).sources = s.sources := rfl
@[simp] theorem State.modBoard_log (s : State) (f : Board → Board) : (s.modBoard f).log = s.log := rfl
@[simp] theorem State.modBoard_banks (s : State) (f : Board → Board) : (s.modBoard f).banks = s.banks := rfl
@[simp] theorem State.modBoard_stake (s : State) (f : Board → Board) : (s.modBoard f).stake = s.stake := rfl
@[simp] theorem State.modBoard_bbkm (s : State) (f : Board → Board) : (s.modBoard f).bbkm = s.bbkm := rfl
@[simp] theorem State.modBoard_vault (s : State) (f : Board → Board) : (s.modBoard f).vault = s.vault := rfl
@[simp] theorem State.modBoard_reserve (s : State) (f : Board → Board) : (s.modBoard f).reserve = s.reserve := rfl
@[simp] theorem State.modBoard_unitCreel (s : State) (f : Board → Board) : (s.modBoard f).unitCreel = s.unitCreel := rfl
@[simp] theorem State.modBoard_units (s : State) (f : Board → Board) : (s.modBoard f).units = s.units := rfl
@[simp] theorem State.modBoard_pqs (s : State) (f : Board → Board) : (s.modBoard f).pqs = s.pqs := rfl
@[simp] theorem State.modBoard_seals (s : State) (f : Board → Board) : (s.modBoard f).seals = s.seals := rfl
@[simp] theorem State.modBoard_sealGen (s : State) (f : Board → Board) : (s.modBoard f).sealGen = s.sealGen := rfl
@[simp] theorem State.modBoard_lqs (s : State) (f : Board → Board) : (s.modBoard f).lqs = s.lqs := rfl
@[simp] theorem State.modBoard_rules (s : State) (f : Board → Board) : (s.modBoard f).rules = s.rules := rfl
@[simp] theorem State.modBoard_lports (s : State) (f : Board → Board) : (s.modBoard f).lports = s.lports := rfl
@[simp] theorem State.modBoard_hostFns (s : State) (f : Board → Board) : (s.modBoard f).hostFns = s.hostFns := rfl
@[simp] theorem State.modBoard_pair (s : State) (f : Board → Board) : (s.modBoard f).pair = s.pair := rfl
@[simp] theorem State.modBoard_board (s : State) (f : Board → Board) : (s.modBoard f).board = f s.board := rfl
@[simp] theorem State.modBoard_resetting (s : State) (f : Board → Board) : (s.modBoard f).resetting = s.resetting := rfl
@[simp] theorem State.modBoard_power (s : State) (f : Board → Board) : (s.modBoard f).power = s.power := rfl
@[simp] theorem State.modBoard_hubTraffic (s : State) (f : Board → Board) : (s.modBoard f).hubTraffic = s.hubTraffic := rfl
@[simp] theorem State.modBoard_lastHubLog (s : State) (f : Board → Board) : (s.modBoard f).lastHubLog = s.lastHubLog := rfl
@[simp] theorem State.modBoard_clock (s : State) (f : Board → Board) : (s.modBoard f).clock = s.clock := rfl
@[simp] theorem State.modBoard_free (s : State) (f : Board → Board) : (s.modBoard f).free = s.free := rfl
@[simp] theorem State.modBoard_pending (s : State) (f : Board → Board) : (s.modBoard f).pending = s.pending := rfl
/-! ### modReserve -/
@[simp] theorem State.modReserve_cores (s : State) (f : Reserve → Reserve) : (s.modReserve f).cores = s.cores := rfl
@[simp] theorem State.modReserve_seqs (s : State) (f : Reserve → Reserve) : (s.modReserve f).seqs = s.seqs := rfl
@[simp] theorem State.modReserve_coreTile (s : State) (f : Reserve → Reserve) : (s.modReserve f).coreTile = s.coreTile := rfl
@[simp] theorem State.modReserve_coreCreel (s : State) (f : Reserve → Reserve) : (s.modReserve f).coreCreel = s.coreCreel := rfl
@[simp] theorem State.modReserve_mem (s : State) (f : Reserve → Reserve) : (s.modReserve f).mem = s.mem := rfl
@[simp] theorem State.modReserve_tiles (s : State) (f : Reserve → Reserve) : (s.modReserve f).tiles = s.tiles := rfl
@[simp] theorem State.modReserve_slices (s : State) (f : Reserve → Reserve) : (s.modReserve f).slices = s.slices := rfl
@[simp] theorem State.modReserve_bridges (s : State) (f : Reserve → Reserve) : (s.modReserve f).bridges = s.bridges := rfl
@[simp] theorem State.modReserve_chans (s : State) (f : Reserve → Reserve) : (s.modReserve f).chans = s.chans := rfl
@[simp] theorem State.modReserve_qosCfg (s : State) (f : Reserve → Reserve) : (s.modReserve f).qosCfg = s.qosCfg := rfl
@[simp] theorem State.modReserve_installed (s : State) (f : Reserve → Reserve) : (s.modReserve f).installed = s.installed := rfl
@[simp] theorem State.modReserve_creels (s : State) (f : Reserve → Reserve) : (s.modReserve f).creels = s.creels := rfl
@[simp] theorem State.modReserve_ringHolder (s : State) (f : Reserve → Reserve) : (s.modReserve f).ringHolder = s.ringHolder := rfl
@[simp] theorem State.modReserve_pqHolder (s : State) (f : Reserve → Reserve) : (s.modReserve f).pqHolder = s.pqHolder := rfl
@[simp] theorem State.modReserve_lgs (s : State) (f : Reserve → Reserve) : (s.modReserve f).lgs = s.lgs := rfl
@[simp] theorem State.modReserve_hoop (s : State) (f : Reserve → Reserve) : (s.modReserve f).hoop = s.hoop := rfl
@[simp] theorem State.modReserve_emitted (s : State) (f : Reserve → Reserve) : (s.modReserve f).emitted = s.emitted := rfl
@[simp] theorem State.modReserve_sources (s : State) (f : Reserve → Reserve) : (s.modReserve f).sources = s.sources := rfl
@[simp] theorem State.modReserve_log (s : State) (f : Reserve → Reserve) : (s.modReserve f).log = s.log := rfl
@[simp] theorem State.modReserve_banks (s : State) (f : Reserve → Reserve) : (s.modReserve f).banks = s.banks := rfl
@[simp] theorem State.modReserve_stake (s : State) (f : Reserve → Reserve) : (s.modReserve f).stake = s.stake := rfl
@[simp] theorem State.modReserve_bbkm (s : State) (f : Reserve → Reserve) : (s.modReserve f).bbkm = s.bbkm := rfl
@[simp] theorem State.modReserve_vault (s : State) (f : Reserve → Reserve) : (s.modReserve f).vault = s.vault := rfl
@[simp] theorem State.modReserve_reserve (s : State) (f : Reserve → Reserve) : (s.modReserve f).reserve = f s.reserve := rfl
@[simp] theorem State.modReserve_unitCreel (s : State) (f : Reserve → Reserve) : (s.modReserve f).unitCreel = s.unitCreel := rfl
@[simp] theorem State.modReserve_units (s : State) (f : Reserve → Reserve) : (s.modReserve f).units = s.units := rfl
@[simp] theorem State.modReserve_pqs (s : State) (f : Reserve → Reserve) : (s.modReserve f).pqs = s.pqs := rfl
@[simp] theorem State.modReserve_seals (s : State) (f : Reserve → Reserve) : (s.modReserve f).seals = s.seals := rfl
@[simp] theorem State.modReserve_sealGen (s : State) (f : Reserve → Reserve) : (s.modReserve f).sealGen = s.sealGen := rfl
@[simp] theorem State.modReserve_lqs (s : State) (f : Reserve → Reserve) : (s.modReserve f).lqs = s.lqs := rfl
@[simp] theorem State.modReserve_rules (s : State) (f : Reserve → Reserve) : (s.modReserve f).rules = s.rules := rfl
@[simp] theorem State.modReserve_lports (s : State) (f : Reserve → Reserve) : (s.modReserve f).lports = s.lports := rfl
@[simp] theorem State.modReserve_hostFns (s : State) (f : Reserve → Reserve) : (s.modReserve f).hostFns = s.hostFns := rfl
@[simp] theorem State.modReserve_pair (s : State) (f : Reserve → Reserve) : (s.modReserve f).pair = s.pair := rfl
@[simp] theorem State.modReserve_board (s : State) (f : Reserve → Reserve) : (s.modReserve f).board = s.board := rfl
@[simp] theorem State.modReserve_resetting (s : State) (f : Reserve → Reserve) : (s.modReserve f).resetting = s.resetting := rfl
@[simp] theorem State.modReserve_power (s : State) (f : Reserve → Reserve) : (s.modReserve f).power = s.power := rfl
@[simp] theorem State.modReserve_hubTraffic (s : State) (f : Reserve → Reserve) : (s.modReserve f).hubTraffic = s.hubTraffic := rfl
@[simp] theorem State.modReserve_lastHubLog (s : State) (f : Reserve → Reserve) : (s.modReserve f).lastHubLog = s.lastHubLog := rfl
@[simp] theorem State.modReserve_clock (s : State) (f : Reserve → Reserve) : (s.modReserve f).clock = s.clock := rfl
@[simp] theorem State.modReserve_free (s : State) (f : Reserve → Reserve) : (s.modReserve f).free = s.free := rfl
@[simp] theorem State.modReserve_pending (s : State) (f : Reserve → Reserve) : (s.modReserve f).pending = s.pending := rfl
/-! ### setUnit -/
@[simp] theorem State.setUnit_cores (s : State) (n : Nat) (c : PUnit) : (s.setUnit n c).cores = s.cores := rfl
@[simp] theorem State.setUnit_seqs (s : State) (n : Nat) (c : PUnit) : (s.setUnit n c).seqs = s.seqs := rfl
@[simp] theorem State.setUnit_coreTile (s : State) (n : Nat) (c : PUnit) : (s.setUnit n c).coreTile = s.coreTile := rfl
@[simp] theorem State.setUnit_coreCreel (s : State) (n : Nat) (c : PUnit) : (s.setUnit n c).coreCreel = s.coreCreel := rfl
@[simp] theorem State.setUnit_mem (s : State) (n : Nat) (c : PUnit) : (s.setUnit n c).mem = s.mem := rfl
@[simp] theorem State.setUnit_tiles (s : State) (n : Nat) (c : PUnit) : (s.setUnit n c).tiles = s.tiles := rfl
@[simp] theorem State.setUnit_slices (s : State) (n : Nat) (c : PUnit) : (s.setUnit n c).slices = s.slices := rfl
@[simp] theorem State.setUnit_bridges (s : State) (n : Nat) (c : PUnit) : (s.setUnit n c).bridges = s.bridges := rfl
@[simp] theorem State.setUnit_chans (s : State) (n : Nat) (c : PUnit) : (s.setUnit n c).chans = s.chans := rfl
@[simp] theorem State.setUnit_qosCfg (s : State) (n : Nat) (c : PUnit) : (s.setUnit n c).qosCfg = s.qosCfg := rfl
@[simp] theorem State.setUnit_installed (s : State) (n : Nat) (c : PUnit) : (s.setUnit n c).installed = s.installed := rfl
@[simp] theorem State.setUnit_creels (s : State) (n : Nat) (c : PUnit) : (s.setUnit n c).creels = s.creels := rfl
@[simp] theorem State.setUnit_ringHolder (s : State) (n : Nat) (c : PUnit) : (s.setUnit n c).ringHolder = s.ringHolder := rfl
@[simp] theorem State.setUnit_pqHolder (s : State) (n : Nat) (c : PUnit) : (s.setUnit n c).pqHolder = s.pqHolder := rfl
@[simp] theorem State.setUnit_lgs (s : State) (n : Nat) (c : PUnit) : (s.setUnit n c).lgs = s.lgs := rfl
@[simp] theorem State.setUnit_hoop (s : State) (n : Nat) (c : PUnit) : (s.setUnit n c).hoop = s.hoop := rfl
@[simp] theorem State.setUnit_emitted (s : State) (n : Nat) (c : PUnit) : (s.setUnit n c).emitted = s.emitted := rfl
@[simp] theorem State.setUnit_sources (s : State) (n : Nat) (c : PUnit) : (s.setUnit n c).sources = s.sources := rfl
@[simp] theorem State.setUnit_log (s : State) (n : Nat) (c : PUnit) : (s.setUnit n c).log = s.log := rfl
@[simp] theorem State.setUnit_banks (s : State) (n : Nat) (c : PUnit) : (s.setUnit n c).banks = s.banks := rfl
@[simp] theorem State.setUnit_stake (s : State) (n : Nat) (c : PUnit) : (s.setUnit n c).stake = s.stake := rfl
@[simp] theorem State.setUnit_bbkm (s : State) (n : Nat) (c : PUnit) : (s.setUnit n c).bbkm = s.bbkm := rfl
@[simp] theorem State.setUnit_vault (s : State) (n : Nat) (c : PUnit) : (s.setUnit n c).vault = s.vault := rfl
@[simp] theorem State.setUnit_reserve (s : State) (n : Nat) (c : PUnit) : (s.setUnit n c).reserve = s.reserve := rfl
@[simp] theorem State.setUnit_unitCreel (s : State) (n : Nat) (c : PUnit) : (s.setUnit n c).unitCreel = s.unitCreel := rfl
@[simp] theorem State.setUnit_units (s : State) (n : Nat) (c : PUnit) : (s.setUnit n c).units = s.units.set n c := rfl
@[simp] theorem State.setUnit_pqs (s : State) (n : Nat) (c : PUnit) : (s.setUnit n c).pqs = s.pqs := rfl
@[simp] theorem State.setUnit_seals (s : State) (n : Nat) (c : PUnit) : (s.setUnit n c).seals = s.seals := rfl
@[simp] theorem State.setUnit_sealGen (s : State) (n : Nat) (c : PUnit) : (s.setUnit n c).sealGen = s.sealGen := rfl
@[simp] theorem State.setUnit_lqs (s : State) (n : Nat) (c : PUnit) : (s.setUnit n c).lqs = s.lqs := rfl
@[simp] theorem State.setUnit_rules (s : State) (n : Nat) (c : PUnit) : (s.setUnit n c).rules = s.rules := rfl
@[simp] theorem State.setUnit_lports (s : State) (n : Nat) (c : PUnit) : (s.setUnit n c).lports = s.lports := rfl
@[simp] theorem State.setUnit_hostFns (s : State) (n : Nat) (c : PUnit) : (s.setUnit n c).hostFns = s.hostFns := rfl
@[simp] theorem State.setUnit_pair (s : State) (n : Nat) (c : PUnit) : (s.setUnit n c).pair = s.pair := rfl
@[simp] theorem State.setUnit_board (s : State) (n : Nat) (c : PUnit) : (s.setUnit n c).board = s.board := rfl
@[simp] theorem State.setUnit_resetting (s : State) (n : Nat) (c : PUnit) : (s.setUnit n c).resetting = s.resetting := rfl
@[simp] theorem State.setUnit_power (s : State) (n : Nat) (c : PUnit) : (s.setUnit n c).power = s.power := rfl
@[simp] theorem State.setUnit_hubTraffic (s : State) (n : Nat) (c : PUnit) : (s.setUnit n c).hubTraffic = s.hubTraffic := rfl
@[simp] theorem State.setUnit_lastHubLog (s : State) (n : Nat) (c : PUnit) : (s.setUnit n c).lastHubLog = s.lastHubLog := rfl
@[simp] theorem State.setUnit_clock (s : State) (n : Nat) (c : PUnit) : (s.setUnit n c).clock = s.clock := rfl
@[simp] theorem State.setUnit_free (s : State) (n : Nat) (c : PUnit) : (s.setUnit n c).free = s.free := rfl
@[simp] theorem State.setUnit_pending (s : State) (n : Nat) (c : PUnit) : (s.setUnit n c).pending = s.pending := rfl
/-! ### modUnit -/
@[simp] theorem State.modUnit_cores (s : State) (n : Nat) (f : PUnit → PUnit) : (s.modUnit n f).cores = s.cores := rfl
@[simp] theorem State.modUnit_seqs (s : State) (n : Nat) (f : PUnit → PUnit) : (s.modUnit n f).seqs = s.seqs := rfl
@[simp] theorem State.modUnit_coreTile (s : State) (n : Nat) (f : PUnit → PUnit) : (s.modUnit n f).coreTile = s.coreTile := rfl
@[simp] theorem State.modUnit_coreCreel (s : State) (n : Nat) (f : PUnit → PUnit) : (s.modUnit n f).coreCreel = s.coreCreel := rfl
@[simp] theorem State.modUnit_mem (s : State) (n : Nat) (f : PUnit → PUnit) : (s.modUnit n f).mem = s.mem := rfl
@[simp] theorem State.modUnit_tiles (s : State) (n : Nat) (f : PUnit → PUnit) : (s.modUnit n f).tiles = s.tiles := rfl
@[simp] theorem State.modUnit_slices (s : State) (n : Nat) (f : PUnit → PUnit) : (s.modUnit n f).slices = s.slices := rfl
@[simp] theorem State.modUnit_bridges (s : State) (n : Nat) (f : PUnit → PUnit) : (s.modUnit n f).bridges = s.bridges := rfl
@[simp] theorem State.modUnit_chans (s : State) (n : Nat) (f : PUnit → PUnit) : (s.modUnit n f).chans = s.chans := rfl
@[simp] theorem State.modUnit_qosCfg (s : State) (n : Nat) (f : PUnit → PUnit) : (s.modUnit n f).qosCfg = s.qosCfg := rfl
@[simp] theorem State.modUnit_installed (s : State) (n : Nat) (f : PUnit → PUnit) : (s.modUnit n f).installed = s.installed := rfl
@[simp] theorem State.modUnit_creels (s : State) (n : Nat) (f : PUnit → PUnit) : (s.modUnit n f).creels = s.creels := rfl
@[simp] theorem State.modUnit_ringHolder (s : State) (n : Nat) (f : PUnit → PUnit) : (s.modUnit n f).ringHolder = s.ringHolder := rfl
@[simp] theorem State.modUnit_pqHolder (s : State) (n : Nat) (f : PUnit → PUnit) : (s.modUnit n f).pqHolder = s.pqHolder := rfl
@[simp] theorem State.modUnit_lgs (s : State) (n : Nat) (f : PUnit → PUnit) : (s.modUnit n f).lgs = s.lgs := rfl
@[simp] theorem State.modUnit_hoop (s : State) (n : Nat) (f : PUnit → PUnit) : (s.modUnit n f).hoop = s.hoop := rfl
@[simp] theorem State.modUnit_emitted (s : State) (n : Nat) (f : PUnit → PUnit) : (s.modUnit n f).emitted = s.emitted := rfl
@[simp] theorem State.modUnit_sources (s : State) (n : Nat) (f : PUnit → PUnit) : (s.modUnit n f).sources = s.sources := rfl
@[simp] theorem State.modUnit_log (s : State) (n : Nat) (f : PUnit → PUnit) : (s.modUnit n f).log = s.log := rfl
@[simp] theorem State.modUnit_banks (s : State) (n : Nat) (f : PUnit → PUnit) : (s.modUnit n f).banks = s.banks := rfl
@[simp] theorem State.modUnit_stake (s : State) (n : Nat) (f : PUnit → PUnit) : (s.modUnit n f).stake = s.stake := rfl
@[simp] theorem State.modUnit_bbkm (s : State) (n : Nat) (f : PUnit → PUnit) : (s.modUnit n f).bbkm = s.bbkm := rfl
@[simp] theorem State.modUnit_vault (s : State) (n : Nat) (f : PUnit → PUnit) : (s.modUnit n f).vault = s.vault := rfl
@[simp] theorem State.modUnit_reserve (s : State) (n : Nat) (f : PUnit → PUnit) : (s.modUnit n f).reserve = s.reserve := rfl
@[simp] theorem State.modUnit_unitCreel (s : State) (n : Nat) (f : PUnit → PUnit) : (s.modUnit n f).unitCreel = s.unitCreel := rfl
@[simp] theorem State.modUnit_units (s : State) (n : Nat) (f : PUnit → PUnit) : (s.modUnit n f).units = s.units.set n (f (s.unit n)) := rfl
@[simp] theorem State.modUnit_pqs (s : State) (n : Nat) (f : PUnit → PUnit) : (s.modUnit n f).pqs = s.pqs := rfl
@[simp] theorem State.modUnit_seals (s : State) (n : Nat) (f : PUnit → PUnit) : (s.modUnit n f).seals = s.seals := rfl
@[simp] theorem State.modUnit_sealGen (s : State) (n : Nat) (f : PUnit → PUnit) : (s.modUnit n f).sealGen = s.sealGen := rfl
@[simp] theorem State.modUnit_lqs (s : State) (n : Nat) (f : PUnit → PUnit) : (s.modUnit n f).lqs = s.lqs := rfl
@[simp] theorem State.modUnit_rules (s : State) (n : Nat) (f : PUnit → PUnit) : (s.modUnit n f).rules = s.rules := rfl
@[simp] theorem State.modUnit_lports (s : State) (n : Nat) (f : PUnit → PUnit) : (s.modUnit n f).lports = s.lports := rfl
@[simp] theorem State.modUnit_hostFns (s : State) (n : Nat) (f : PUnit → PUnit) : (s.modUnit n f).hostFns = s.hostFns := rfl
@[simp] theorem State.modUnit_pair (s : State) (n : Nat) (f : PUnit → PUnit) : (s.modUnit n f).pair = s.pair := rfl
@[simp] theorem State.modUnit_board (s : State) (n : Nat) (f : PUnit → PUnit) : (s.modUnit n f).board = s.board := rfl
@[simp] theorem State.modUnit_resetting (s : State) (n : Nat) (f : PUnit → PUnit) : (s.modUnit n f).resetting = s.resetting := rfl
@[simp] theorem State.modUnit_power (s : State) (n : Nat) (f : PUnit → PUnit) : (s.modUnit n f).power = s.power := rfl
@[simp] theorem State.modUnit_hubTraffic (s : State) (n : Nat) (f : PUnit → PUnit) : (s.modUnit n f).hubTraffic = s.hubTraffic := rfl
@[simp] theorem State.modUnit_lastHubLog (s : State) (n : Nat) (f : PUnit → PUnit) : (s.modUnit n f).lastHubLog = s.lastHubLog := rfl
@[simp] theorem State.modUnit_clock (s : State) (n : Nat) (f : PUnit → PUnit) : (s.modUnit n f).clock = s.clock := rfl
@[simp] theorem State.modUnit_free (s : State) (n : Nat) (f : PUnit → PUnit) : (s.modUnit n f).free = s.free := rfl
@[simp] theorem State.modUnit_pending (s : State) (n : Nat) (f : PUnit → PUnit) : (s.modUnit n f).pending = s.pending := rfl
/-! ### setHf -/
@[simp] theorem State.setHf_cores (s : State) (e n : Nat) (c : HostFn) : (s.setHf e n c).cores = s.cores := rfl
@[simp] theorem State.setHf_seqs (s : State) (e n : Nat) (c : HostFn) : (s.setHf e n c).seqs = s.seqs := rfl
@[simp] theorem State.setHf_coreTile (s : State) (e n : Nat) (c : HostFn) : (s.setHf e n c).coreTile = s.coreTile := rfl
@[simp] theorem State.setHf_coreCreel (s : State) (e n : Nat) (c : HostFn) : (s.setHf e n c).coreCreel = s.coreCreel := rfl
@[simp] theorem State.setHf_mem (s : State) (e n : Nat) (c : HostFn) : (s.setHf e n c).mem = s.mem := rfl
@[simp] theorem State.setHf_tiles (s : State) (e n : Nat) (c : HostFn) : (s.setHf e n c).tiles = s.tiles := rfl
@[simp] theorem State.setHf_slices (s : State) (e n : Nat) (c : HostFn) : (s.setHf e n c).slices = s.slices := rfl
@[simp] theorem State.setHf_bridges (s : State) (e n : Nat) (c : HostFn) : (s.setHf e n c).bridges = s.bridges := rfl
@[simp] theorem State.setHf_chans (s : State) (e n : Nat) (c : HostFn) : (s.setHf e n c).chans = s.chans := rfl
@[simp] theorem State.setHf_qosCfg (s : State) (e n : Nat) (c : HostFn) : (s.setHf e n c).qosCfg = s.qosCfg := rfl
@[simp] theorem State.setHf_installed (s : State) (e n : Nat) (c : HostFn) : (s.setHf e n c).installed = s.installed := rfl
@[simp] theorem State.setHf_creels (s : State) (e n : Nat) (c : HostFn) : (s.setHf e n c).creels = s.creels := rfl
@[simp] theorem State.setHf_ringHolder (s : State) (e n : Nat) (c : HostFn) : (s.setHf e n c).ringHolder = s.ringHolder := rfl
@[simp] theorem State.setHf_pqHolder (s : State) (e n : Nat) (c : HostFn) : (s.setHf e n c).pqHolder = s.pqHolder := rfl
@[simp] theorem State.setHf_lgs (s : State) (e n : Nat) (c : HostFn) : (s.setHf e n c).lgs = s.lgs := rfl
@[simp] theorem State.setHf_hoop (s : State) (e n : Nat) (c : HostFn) : (s.setHf e n c).hoop = s.hoop := rfl
@[simp] theorem State.setHf_emitted (s : State) (e n : Nat) (c : HostFn) : (s.setHf e n c).emitted = s.emitted := rfl
@[simp] theorem State.setHf_sources (s : State) (e n : Nat) (c : HostFn) : (s.setHf e n c).sources = s.sources := rfl
@[simp] theorem State.setHf_log (s : State) (e n : Nat) (c : HostFn) : (s.setHf e n c).log = s.log := rfl
@[simp] theorem State.setHf_banks (s : State) (e n : Nat) (c : HostFn) : (s.setHf e n c).banks = s.banks := rfl
@[simp] theorem State.setHf_stake (s : State) (e n : Nat) (c : HostFn) : (s.setHf e n c).stake = s.stake := rfl
@[simp] theorem State.setHf_bbkm (s : State) (e n : Nat) (c : HostFn) : (s.setHf e n c).bbkm = s.bbkm := rfl
@[simp] theorem State.setHf_vault (s : State) (e n : Nat) (c : HostFn) : (s.setHf e n c).vault = s.vault := rfl
@[simp] theorem State.setHf_reserve (s : State) (e n : Nat) (c : HostFn) : (s.setHf e n c).reserve = s.reserve := rfl
@[simp] theorem State.setHf_unitCreel (s : State) (e n : Nat) (c : HostFn) : (s.setHf e n c).unitCreel = s.unitCreel := rfl
@[simp] theorem State.setHf_units (s : State) (e n : Nat) (c : HostFn) : (s.setHf e n c).units = s.units := rfl
@[simp] theorem State.setHf_pqs (s : State) (e n : Nat) (c : HostFn) : (s.setHf e n c).pqs = s.pqs := rfl
@[simp] theorem State.setHf_seals (s : State) (e n : Nat) (c : HostFn) : (s.setHf e n c).seals = s.seals := rfl
@[simp] theorem State.setHf_sealGen (s : State) (e n : Nat) (c : HostFn) : (s.setHf e n c).sealGen = s.sealGen := rfl
@[simp] theorem State.setHf_lqs (s : State) (e n : Nat) (c : HostFn) : (s.setHf e n c).lqs = s.lqs := rfl
@[simp] theorem State.setHf_rules (s : State) (e n : Nat) (c : HostFn) : (s.setHf e n c).rules = s.rules := rfl
@[simp] theorem State.setHf_lports (s : State) (e n : Nat) (c : HostFn) : (s.setHf e n c).lports = s.lports := rfl
@[simp] theorem State.setHf_hostFns (s : State) (e n : Nat) (c : HostFn) : (s.setHf e n c).hostFns = s.hostFns.set (hfKey e n) c := rfl
@[simp] theorem State.setHf_pair (s : State) (e n : Nat) (c : HostFn) : (s.setHf e n c).pair = s.pair := rfl
@[simp] theorem State.setHf_board (s : State) (e n : Nat) (c : HostFn) : (s.setHf e n c).board = s.board := rfl
@[simp] theorem State.setHf_resetting (s : State) (e n : Nat) (c : HostFn) : (s.setHf e n c).resetting = s.resetting := rfl
@[simp] theorem State.setHf_power (s : State) (e n : Nat) (c : HostFn) : (s.setHf e n c).power = s.power := rfl
@[simp] theorem State.setHf_hubTraffic (s : State) (e n : Nat) (c : HostFn) : (s.setHf e n c).hubTraffic = s.hubTraffic := rfl
@[simp] theorem State.setHf_lastHubLog (s : State) (e n : Nat) (c : HostFn) : (s.setHf e n c).lastHubLog = s.lastHubLog := rfl
@[simp] theorem State.setHf_clock (s : State) (e n : Nat) (c : HostFn) : (s.setHf e n c).clock = s.clock := rfl
@[simp] theorem State.setHf_free (s : State) (e n : Nat) (c : HostFn) : (s.setHf e n c).free = s.free := rfl
@[simp] theorem State.setHf_pending (s : State) (e n : Nat) (c : HostFn) : (s.setHf e n c).pending = s.pending := rfl
/-! ### modHf -/
@[simp] theorem State.modHf_cores (s : State) (e n : Nat) (f : HostFn → HostFn) : (s.modHf e n f).cores = s.cores := rfl
@[simp] theorem State.modHf_seqs (s : State) (e n : Nat) (f : HostFn → HostFn) : (s.modHf e n f).seqs = s.seqs := rfl
@[simp] theorem State.modHf_coreTile (s : State) (e n : Nat) (f : HostFn → HostFn) : (s.modHf e n f).coreTile = s.coreTile := rfl
@[simp] theorem State.modHf_coreCreel (s : State) (e n : Nat) (f : HostFn → HostFn) : (s.modHf e n f).coreCreel = s.coreCreel := rfl
@[simp] theorem State.modHf_mem (s : State) (e n : Nat) (f : HostFn → HostFn) : (s.modHf e n f).mem = s.mem := rfl
@[simp] theorem State.modHf_tiles (s : State) (e n : Nat) (f : HostFn → HostFn) : (s.modHf e n f).tiles = s.tiles := rfl
@[simp] theorem State.modHf_slices (s : State) (e n : Nat) (f : HostFn → HostFn) : (s.modHf e n f).slices = s.slices := rfl
@[simp] theorem State.modHf_bridges (s : State) (e n : Nat) (f : HostFn → HostFn) : (s.modHf e n f).bridges = s.bridges := rfl
@[simp] theorem State.modHf_chans (s : State) (e n : Nat) (f : HostFn → HostFn) : (s.modHf e n f).chans = s.chans := rfl
@[simp] theorem State.modHf_qosCfg (s : State) (e n : Nat) (f : HostFn → HostFn) : (s.modHf e n f).qosCfg = s.qosCfg := rfl
@[simp] theorem State.modHf_installed (s : State) (e n : Nat) (f : HostFn → HostFn) : (s.modHf e n f).installed = s.installed := rfl
@[simp] theorem State.modHf_creels (s : State) (e n : Nat) (f : HostFn → HostFn) : (s.modHf e n f).creels = s.creels := rfl
@[simp] theorem State.modHf_ringHolder (s : State) (e n : Nat) (f : HostFn → HostFn) : (s.modHf e n f).ringHolder = s.ringHolder := rfl
@[simp] theorem State.modHf_pqHolder (s : State) (e n : Nat) (f : HostFn → HostFn) : (s.modHf e n f).pqHolder = s.pqHolder := rfl
@[simp] theorem State.modHf_lgs (s : State) (e n : Nat) (f : HostFn → HostFn) : (s.modHf e n f).lgs = s.lgs := rfl
@[simp] theorem State.modHf_hoop (s : State) (e n : Nat) (f : HostFn → HostFn) : (s.modHf e n f).hoop = s.hoop := rfl
@[simp] theorem State.modHf_emitted (s : State) (e n : Nat) (f : HostFn → HostFn) : (s.modHf e n f).emitted = s.emitted := rfl
@[simp] theorem State.modHf_sources (s : State) (e n : Nat) (f : HostFn → HostFn) : (s.modHf e n f).sources = s.sources := rfl
@[simp] theorem State.modHf_log (s : State) (e n : Nat) (f : HostFn → HostFn) : (s.modHf e n f).log = s.log := rfl
@[simp] theorem State.modHf_banks (s : State) (e n : Nat) (f : HostFn → HostFn) : (s.modHf e n f).banks = s.banks := rfl
@[simp] theorem State.modHf_stake (s : State) (e n : Nat) (f : HostFn → HostFn) : (s.modHf e n f).stake = s.stake := rfl
@[simp] theorem State.modHf_bbkm (s : State) (e n : Nat) (f : HostFn → HostFn) : (s.modHf e n f).bbkm = s.bbkm := rfl
@[simp] theorem State.modHf_vault (s : State) (e n : Nat) (f : HostFn → HostFn) : (s.modHf e n f).vault = s.vault := rfl
@[simp] theorem State.modHf_reserve (s : State) (e n : Nat) (f : HostFn → HostFn) : (s.modHf e n f).reserve = s.reserve := rfl
@[simp] theorem State.modHf_unitCreel (s : State) (e n : Nat) (f : HostFn → HostFn) : (s.modHf e n f).unitCreel = s.unitCreel := rfl
@[simp] theorem State.modHf_units (s : State) (e n : Nat) (f : HostFn → HostFn) : (s.modHf e n f).units = s.units := rfl
@[simp] theorem State.modHf_pqs (s : State) (e n : Nat) (f : HostFn → HostFn) : (s.modHf e n f).pqs = s.pqs := rfl
@[simp] theorem State.modHf_seals (s : State) (e n : Nat) (f : HostFn → HostFn) : (s.modHf e n f).seals = s.seals := rfl
@[simp] theorem State.modHf_sealGen (s : State) (e n : Nat) (f : HostFn → HostFn) : (s.modHf e n f).sealGen = s.sealGen := rfl
@[simp] theorem State.modHf_lqs (s : State) (e n : Nat) (f : HostFn → HostFn) : (s.modHf e n f).lqs = s.lqs := rfl
@[simp] theorem State.modHf_rules (s : State) (e n : Nat) (f : HostFn → HostFn) : (s.modHf e n f).rules = s.rules := rfl
@[simp] theorem State.modHf_lports (s : State) (e n : Nat) (f : HostFn → HostFn) : (s.modHf e n f).lports = s.lports := rfl
@[simp] theorem State.modHf_hostFns (s : State) (e n : Nat) (f : HostFn → HostFn) : (s.modHf e n f).hostFns = s.hostFns.set (hfKey e n) (f (s.hf e n)) := rfl
@[simp] theorem State.modHf_pair (s : State) (e n : Nat) (f : HostFn → HostFn) : (s.modHf e n f).pair = s.pair := rfl
@[simp] theorem State.modHf_board (s : State) (e n : Nat) (f : HostFn → HostFn) : (s.modHf e n f).board = s.board := rfl
@[simp] theorem State.modHf_resetting (s : State) (e n : Nat) (f : HostFn → HostFn) : (s.modHf e n f).resetting = s.resetting := rfl
@[simp] theorem State.modHf_power (s : State) (e n : Nat) (f : HostFn → HostFn) : (s.modHf e n f).power = s.power := rfl
@[simp] theorem State.modHf_hubTraffic (s : State) (e n : Nat) (f : HostFn → HostFn) : (s.modHf e n f).hubTraffic = s.hubTraffic := rfl
@[simp] theorem State.modHf_lastHubLog (s : State) (e n : Nat) (f : HostFn → HostFn) : (s.modHf e n f).lastHubLog = s.lastHubLog := rfl
@[simp] theorem State.modHf_clock (s : State) (e n : Nat) (f : HostFn → HostFn) : (s.modHf e n f).clock = s.clock := rfl
@[simp] theorem State.modHf_free (s : State) (e n : Nat) (f : HostFn → HostFn) : (s.modHf e n f).free = s.free := rfl
@[simp] theorem State.modHf_pending (s : State) (e n : Nat) (f : HostFn → HostFn) : (s.modHf e n f).pending = s.pending := rfl
/-! ### setPq -/
@[simp] theorem State.setPq_cores (s : State) (n : Nat) (c : PQueue) : (s.setPq n c).cores = s.cores := rfl
@[simp] theorem State.setPq_seqs (s : State) (n : Nat) (c : PQueue) : (s.setPq n c).seqs = s.seqs := rfl
@[simp] theorem State.setPq_coreTile (s : State) (n : Nat) (c : PQueue) : (s.setPq n c).coreTile = s.coreTile := rfl
@[simp] theorem State.setPq_coreCreel (s : State) (n : Nat) (c : PQueue) : (s.setPq n c).coreCreel = s.coreCreel := rfl
@[simp] theorem State.setPq_mem (s : State) (n : Nat) (c : PQueue) : (s.setPq n c).mem = s.mem := rfl
@[simp] theorem State.setPq_tiles (s : State) (n : Nat) (c : PQueue) : (s.setPq n c).tiles = s.tiles := rfl
@[simp] theorem State.setPq_slices (s : State) (n : Nat) (c : PQueue) : (s.setPq n c).slices = s.slices := rfl
@[simp] theorem State.setPq_bridges (s : State) (n : Nat) (c : PQueue) : (s.setPq n c).bridges = s.bridges := rfl
@[simp] theorem State.setPq_chans (s : State) (n : Nat) (c : PQueue) : (s.setPq n c).chans = s.chans := rfl
@[simp] theorem State.setPq_qosCfg (s : State) (n : Nat) (c : PQueue) : (s.setPq n c).qosCfg = s.qosCfg := rfl
@[simp] theorem State.setPq_installed (s : State) (n : Nat) (c : PQueue) : (s.setPq n c).installed = s.installed := rfl
@[simp] theorem State.setPq_creels (s : State) (n : Nat) (c : PQueue) : (s.setPq n c).creels = s.creels := rfl
@[simp] theorem State.setPq_ringHolder (s : State) (n : Nat) (c : PQueue) : (s.setPq n c).ringHolder = s.ringHolder := rfl
@[simp] theorem State.setPq_pqHolder (s : State) (n : Nat) (c : PQueue) : (s.setPq n c).pqHolder = s.pqHolder := rfl
@[simp] theorem State.setPq_lgs (s : State) (n : Nat) (c : PQueue) : (s.setPq n c).lgs = s.lgs := rfl
@[simp] theorem State.setPq_hoop (s : State) (n : Nat) (c : PQueue) : (s.setPq n c).hoop = s.hoop := rfl
@[simp] theorem State.setPq_emitted (s : State) (n : Nat) (c : PQueue) : (s.setPq n c).emitted = s.emitted := rfl
@[simp] theorem State.setPq_sources (s : State) (n : Nat) (c : PQueue) : (s.setPq n c).sources = s.sources := rfl
@[simp] theorem State.setPq_log (s : State) (n : Nat) (c : PQueue) : (s.setPq n c).log = s.log := rfl
@[simp] theorem State.setPq_banks (s : State) (n : Nat) (c : PQueue) : (s.setPq n c).banks = s.banks := rfl
@[simp] theorem State.setPq_stake (s : State) (n : Nat) (c : PQueue) : (s.setPq n c).stake = s.stake := rfl
@[simp] theorem State.setPq_bbkm (s : State) (n : Nat) (c : PQueue) : (s.setPq n c).bbkm = s.bbkm := rfl
@[simp] theorem State.setPq_vault (s : State) (n : Nat) (c : PQueue) : (s.setPq n c).vault = s.vault := rfl
@[simp] theorem State.setPq_reserve (s : State) (n : Nat) (c : PQueue) : (s.setPq n c).reserve = s.reserve := rfl
@[simp] theorem State.setPq_unitCreel (s : State) (n : Nat) (c : PQueue) : (s.setPq n c).unitCreel = s.unitCreel := rfl
@[simp] theorem State.setPq_units (s : State) (n : Nat) (c : PQueue) : (s.setPq n c).units = s.units := rfl
@[simp] theorem State.setPq_pqs (s : State) (n : Nat) (c : PQueue) : (s.setPq n c).pqs = s.pqs.set n c := rfl
@[simp] theorem State.setPq_seals (s : State) (n : Nat) (c : PQueue) : (s.setPq n c).seals = s.seals := rfl
@[simp] theorem State.setPq_sealGen (s : State) (n : Nat) (c : PQueue) : (s.setPq n c).sealGen = s.sealGen := rfl
@[simp] theorem State.setPq_lqs (s : State) (n : Nat) (c : PQueue) : (s.setPq n c).lqs = s.lqs := rfl
@[simp] theorem State.setPq_rules (s : State) (n : Nat) (c : PQueue) : (s.setPq n c).rules = s.rules := rfl
@[simp] theorem State.setPq_lports (s : State) (n : Nat) (c : PQueue) : (s.setPq n c).lports = s.lports := rfl
@[simp] theorem State.setPq_hostFns (s : State) (n : Nat) (c : PQueue) : (s.setPq n c).hostFns = s.hostFns := rfl
@[simp] theorem State.setPq_pair (s : State) (n : Nat) (c : PQueue) : (s.setPq n c).pair = s.pair := rfl
@[simp] theorem State.setPq_board (s : State) (n : Nat) (c : PQueue) : (s.setPq n c).board = s.board := rfl
@[simp] theorem State.setPq_resetting (s : State) (n : Nat) (c : PQueue) : (s.setPq n c).resetting = s.resetting := rfl
@[simp] theorem State.setPq_power (s : State) (n : Nat) (c : PQueue) : (s.setPq n c).power = s.power := rfl
@[simp] theorem State.setPq_hubTraffic (s : State) (n : Nat) (c : PQueue) : (s.setPq n c).hubTraffic = s.hubTraffic := rfl
@[simp] theorem State.setPq_lastHubLog (s : State) (n : Nat) (c : PQueue) : (s.setPq n c).lastHubLog = s.lastHubLog := rfl
@[simp] theorem State.setPq_clock (s : State) (n : Nat) (c : PQueue) : (s.setPq n c).clock = s.clock := rfl
@[simp] theorem State.setPq_free (s : State) (n : Nat) (c : PQueue) : (s.setPq n c).free = s.free := rfl
@[simp] theorem State.setPq_pending (s : State) (n : Nat) (c : PQueue) : (s.setPq n c).pending = s.pending := rfl
/-! ### setLq -/
@[simp] theorem State.setLq_cores (s : State) (n : Nat) (c : LineQ) : (s.setLq n c).cores = s.cores := rfl
@[simp] theorem State.setLq_seqs (s : State) (n : Nat) (c : LineQ) : (s.setLq n c).seqs = s.seqs := rfl
@[simp] theorem State.setLq_coreTile (s : State) (n : Nat) (c : LineQ) : (s.setLq n c).coreTile = s.coreTile := rfl
@[simp] theorem State.setLq_coreCreel (s : State) (n : Nat) (c : LineQ) : (s.setLq n c).coreCreel = s.coreCreel := rfl
@[simp] theorem State.setLq_mem (s : State) (n : Nat) (c : LineQ) : (s.setLq n c).mem = s.mem := rfl
@[simp] theorem State.setLq_tiles (s : State) (n : Nat) (c : LineQ) : (s.setLq n c).tiles = s.tiles := rfl
@[simp] theorem State.setLq_slices (s : State) (n : Nat) (c : LineQ) : (s.setLq n c).slices = s.slices := rfl
@[simp] theorem State.setLq_bridges (s : State) (n : Nat) (c : LineQ) : (s.setLq n c).bridges = s.bridges := rfl
@[simp] theorem State.setLq_chans (s : State) (n : Nat) (c : LineQ) : (s.setLq n c).chans = s.chans := rfl
@[simp] theorem State.setLq_qosCfg (s : State) (n : Nat) (c : LineQ) : (s.setLq n c).qosCfg = s.qosCfg := rfl
@[simp] theorem State.setLq_installed (s : State) (n : Nat) (c : LineQ) : (s.setLq n c).installed = s.installed := rfl
@[simp] theorem State.setLq_creels (s : State) (n : Nat) (c : LineQ) : (s.setLq n c).creels = s.creels := rfl
@[simp] theorem State.setLq_ringHolder (s : State) (n : Nat) (c : LineQ) : (s.setLq n c).ringHolder = s.ringHolder := rfl
@[simp] theorem State.setLq_pqHolder (s : State) (n : Nat) (c : LineQ) : (s.setLq n c).pqHolder = s.pqHolder := rfl
@[simp] theorem State.setLq_lgs (s : State) (n : Nat) (c : LineQ) : (s.setLq n c).lgs = s.lgs := rfl
@[simp] theorem State.setLq_hoop (s : State) (n : Nat) (c : LineQ) : (s.setLq n c).hoop = s.hoop := rfl
@[simp] theorem State.setLq_emitted (s : State) (n : Nat) (c : LineQ) : (s.setLq n c).emitted = s.emitted := rfl
@[simp] theorem State.setLq_sources (s : State) (n : Nat) (c : LineQ) : (s.setLq n c).sources = s.sources := rfl
@[simp] theorem State.setLq_log (s : State) (n : Nat) (c : LineQ) : (s.setLq n c).log = s.log := rfl
@[simp] theorem State.setLq_banks (s : State) (n : Nat) (c : LineQ) : (s.setLq n c).banks = s.banks := rfl
@[simp] theorem State.setLq_stake (s : State) (n : Nat) (c : LineQ) : (s.setLq n c).stake = s.stake := rfl
@[simp] theorem State.setLq_bbkm (s : State) (n : Nat) (c : LineQ) : (s.setLq n c).bbkm = s.bbkm := rfl
@[simp] theorem State.setLq_vault (s : State) (n : Nat) (c : LineQ) : (s.setLq n c).vault = s.vault := rfl
@[simp] theorem State.setLq_reserve (s : State) (n : Nat) (c : LineQ) : (s.setLq n c).reserve = s.reserve := rfl
@[simp] theorem State.setLq_unitCreel (s : State) (n : Nat) (c : LineQ) : (s.setLq n c).unitCreel = s.unitCreel := rfl
@[simp] theorem State.setLq_units (s : State) (n : Nat) (c : LineQ) : (s.setLq n c).units = s.units := rfl
@[simp] theorem State.setLq_pqs (s : State) (n : Nat) (c : LineQ) : (s.setLq n c).pqs = s.pqs := rfl
@[simp] theorem State.setLq_seals (s : State) (n : Nat) (c : LineQ) : (s.setLq n c).seals = s.seals := rfl
@[simp] theorem State.setLq_sealGen (s : State) (n : Nat) (c : LineQ) : (s.setLq n c).sealGen = s.sealGen := rfl
@[simp] theorem State.setLq_lqs (s : State) (n : Nat) (c : LineQ) : (s.setLq n c).lqs = s.lqs.set n c := rfl
@[simp] theorem State.setLq_rules (s : State) (n : Nat) (c : LineQ) : (s.setLq n c).rules = s.rules := rfl
@[simp] theorem State.setLq_lports (s : State) (n : Nat) (c : LineQ) : (s.setLq n c).lports = s.lports := rfl
@[simp] theorem State.setLq_hostFns (s : State) (n : Nat) (c : LineQ) : (s.setLq n c).hostFns = s.hostFns := rfl
@[simp] theorem State.setLq_pair (s : State) (n : Nat) (c : LineQ) : (s.setLq n c).pair = s.pair := rfl
@[simp] theorem State.setLq_board (s : State) (n : Nat) (c : LineQ) : (s.setLq n c).board = s.board := rfl
@[simp] theorem State.setLq_resetting (s : State) (n : Nat) (c : LineQ) : (s.setLq n c).resetting = s.resetting := rfl
@[simp] theorem State.setLq_power (s : State) (n : Nat) (c : LineQ) : (s.setLq n c).power = s.power := rfl
@[simp] theorem State.setLq_hubTraffic (s : State) (n : Nat) (c : LineQ) : (s.setLq n c).hubTraffic = s.hubTraffic := rfl
@[simp] theorem State.setLq_lastHubLog (s : State) (n : Nat) (c : LineQ) : (s.setLq n c).lastHubLog = s.lastHubLog := rfl
@[simp] theorem State.setLq_clock (s : State) (n : Nat) (c : LineQ) : (s.setLq n c).clock = s.clock := rfl
@[simp] theorem State.setLq_free (s : State) (n : Nat) (c : LineQ) : (s.setLq n c).free = s.free := rfl
@[simp] theorem State.setLq_pending (s : State) (n : Nat) (c : LineQ) : (s.setLq n c).pending = s.pending := rfl
/-! ### setLport -/
@[simp] theorem State.setLport_cores (s : State) (n : Nat) (c : LinePort) : (s.setLport n c).cores = s.cores := rfl
@[simp] theorem State.setLport_seqs (s : State) (n : Nat) (c : LinePort) : (s.setLport n c).seqs = s.seqs := rfl
@[simp] theorem State.setLport_coreTile (s : State) (n : Nat) (c : LinePort) : (s.setLport n c).coreTile = s.coreTile := rfl
@[simp] theorem State.setLport_coreCreel (s : State) (n : Nat) (c : LinePort) : (s.setLport n c).coreCreel = s.coreCreel := rfl
@[simp] theorem State.setLport_mem (s : State) (n : Nat) (c : LinePort) : (s.setLport n c).mem = s.mem := rfl
@[simp] theorem State.setLport_tiles (s : State) (n : Nat) (c : LinePort) : (s.setLport n c).tiles = s.tiles := rfl
@[simp] theorem State.setLport_slices (s : State) (n : Nat) (c : LinePort) : (s.setLport n c).slices = s.slices := rfl
@[simp] theorem State.setLport_bridges (s : State) (n : Nat) (c : LinePort) : (s.setLport n c).bridges = s.bridges := rfl
@[simp] theorem State.setLport_chans (s : State) (n : Nat) (c : LinePort) : (s.setLport n c).chans = s.chans := rfl
@[simp] theorem State.setLport_qosCfg (s : State) (n : Nat) (c : LinePort) : (s.setLport n c).qosCfg = s.qosCfg := rfl
@[simp] theorem State.setLport_installed (s : State) (n : Nat) (c : LinePort) : (s.setLport n c).installed = s.installed := rfl
@[simp] theorem State.setLport_creels (s : State) (n : Nat) (c : LinePort) : (s.setLport n c).creels = s.creels := rfl
@[simp] theorem State.setLport_ringHolder (s : State) (n : Nat) (c : LinePort) : (s.setLport n c).ringHolder = s.ringHolder := rfl
@[simp] theorem State.setLport_pqHolder (s : State) (n : Nat) (c : LinePort) : (s.setLport n c).pqHolder = s.pqHolder := rfl
@[simp] theorem State.setLport_lgs (s : State) (n : Nat) (c : LinePort) : (s.setLport n c).lgs = s.lgs := rfl
@[simp] theorem State.setLport_hoop (s : State) (n : Nat) (c : LinePort) : (s.setLport n c).hoop = s.hoop := rfl
@[simp] theorem State.setLport_emitted (s : State) (n : Nat) (c : LinePort) : (s.setLport n c).emitted = s.emitted := rfl
@[simp] theorem State.setLport_sources (s : State) (n : Nat) (c : LinePort) : (s.setLport n c).sources = s.sources := rfl
@[simp] theorem State.setLport_log (s : State) (n : Nat) (c : LinePort) : (s.setLport n c).log = s.log := rfl
@[simp] theorem State.setLport_banks (s : State) (n : Nat) (c : LinePort) : (s.setLport n c).banks = s.banks := rfl
@[simp] theorem State.setLport_stake (s : State) (n : Nat) (c : LinePort) : (s.setLport n c).stake = s.stake := rfl
@[simp] theorem State.setLport_bbkm (s : State) (n : Nat) (c : LinePort) : (s.setLport n c).bbkm = s.bbkm := rfl
@[simp] theorem State.setLport_vault (s : State) (n : Nat) (c : LinePort) : (s.setLport n c).vault = s.vault := rfl
@[simp] theorem State.setLport_reserve (s : State) (n : Nat) (c : LinePort) : (s.setLport n c).reserve = s.reserve := rfl
@[simp] theorem State.setLport_unitCreel (s : State) (n : Nat) (c : LinePort) : (s.setLport n c).unitCreel = s.unitCreel := rfl
@[simp] theorem State.setLport_units (s : State) (n : Nat) (c : LinePort) : (s.setLport n c).units = s.units := rfl
@[simp] theorem State.setLport_pqs (s : State) (n : Nat) (c : LinePort) : (s.setLport n c).pqs = s.pqs := rfl
@[simp] theorem State.setLport_seals (s : State) (n : Nat) (c : LinePort) : (s.setLport n c).seals = s.seals := rfl
@[simp] theorem State.setLport_sealGen (s : State) (n : Nat) (c : LinePort) : (s.setLport n c).sealGen = s.sealGen := rfl
@[simp] theorem State.setLport_lqs (s : State) (n : Nat) (c : LinePort) : (s.setLport n c).lqs = s.lqs := rfl
@[simp] theorem State.setLport_rules (s : State) (n : Nat) (c : LinePort) : (s.setLport n c).rules = s.rules := rfl
@[simp] theorem State.setLport_lports (s : State) (n : Nat) (c : LinePort) : (s.setLport n c).lports = s.lports.set n c := rfl
@[simp] theorem State.setLport_hostFns (s : State) (n : Nat) (c : LinePort) : (s.setLport n c).hostFns = s.hostFns := rfl
@[simp] theorem State.setLport_pair (s : State) (n : Nat) (c : LinePort) : (s.setLport n c).pair = s.pair := rfl
@[simp] theorem State.setLport_board (s : State) (n : Nat) (c : LinePort) : (s.setLport n c).board = s.board := rfl
@[simp] theorem State.setLport_resetting (s : State) (n : Nat) (c : LinePort) : (s.setLport n c).resetting = s.resetting := rfl
@[simp] theorem State.setLport_power (s : State) (n : Nat) (c : LinePort) : (s.setLport n c).power = s.power := rfl
@[simp] theorem State.setLport_hubTraffic (s : State) (n : Nat) (c : LinePort) : (s.setLport n c).hubTraffic = s.hubTraffic := rfl
@[simp] theorem State.setLport_lastHubLog (s : State) (n : Nat) (c : LinePort) : (s.setLport n c).lastHubLog = s.lastHubLog := rfl
@[simp] theorem State.setLport_clock (s : State) (n : Nat) (c : LinePort) : (s.setLport n c).clock = s.clock := rfl
@[simp] theorem State.setLport_free (s : State) (n : Nat) (c : LinePort) : (s.setLport n c).free = s.free := rfl
@[simp] theorem State.setLport_pending (s : State) (n : Nat) (c : LinePort) : (s.setLport n c).pending = s.pending := rfl
/-! ### setSrc -/
@[simp] theorem State.setSrc_cores (s : State) (n : Nat) (c : EvSrc) : (s.setSrc n c).cores = s.cores := rfl
@[simp] theorem State.setSrc_seqs (s : State) (n : Nat) (c : EvSrc) : (s.setSrc n c).seqs = s.seqs := rfl
@[simp] theorem State.setSrc_coreTile (s : State) (n : Nat) (c : EvSrc) : (s.setSrc n c).coreTile = s.coreTile := rfl
@[simp] theorem State.setSrc_coreCreel (s : State) (n : Nat) (c : EvSrc) : (s.setSrc n c).coreCreel = s.coreCreel := rfl
@[simp] theorem State.setSrc_mem (s : State) (n : Nat) (c : EvSrc) : (s.setSrc n c).mem = s.mem := rfl
@[simp] theorem State.setSrc_tiles (s : State) (n : Nat) (c : EvSrc) : (s.setSrc n c).tiles = s.tiles := rfl
@[simp] theorem State.setSrc_slices (s : State) (n : Nat) (c : EvSrc) : (s.setSrc n c).slices = s.slices := rfl
@[simp] theorem State.setSrc_bridges (s : State) (n : Nat) (c : EvSrc) : (s.setSrc n c).bridges = s.bridges := rfl
@[simp] theorem State.setSrc_chans (s : State) (n : Nat) (c : EvSrc) : (s.setSrc n c).chans = s.chans := rfl
@[simp] theorem State.setSrc_qosCfg (s : State) (n : Nat) (c : EvSrc) : (s.setSrc n c).qosCfg = s.qosCfg := rfl
@[simp] theorem State.setSrc_installed (s : State) (n : Nat) (c : EvSrc) : (s.setSrc n c).installed = s.installed := rfl
@[simp] theorem State.setSrc_creels (s : State) (n : Nat) (c : EvSrc) : (s.setSrc n c).creels = s.creels := rfl
@[simp] theorem State.setSrc_ringHolder (s : State) (n : Nat) (c : EvSrc) : (s.setSrc n c).ringHolder = s.ringHolder := rfl
@[simp] theorem State.setSrc_pqHolder (s : State) (n : Nat) (c : EvSrc) : (s.setSrc n c).pqHolder = s.pqHolder := rfl
@[simp] theorem State.setSrc_lgs (s : State) (n : Nat) (c : EvSrc) : (s.setSrc n c).lgs = s.lgs := rfl
@[simp] theorem State.setSrc_hoop (s : State) (n : Nat) (c : EvSrc) : (s.setSrc n c).hoop = s.hoop := rfl
@[simp] theorem State.setSrc_emitted (s : State) (n : Nat) (c : EvSrc) : (s.setSrc n c).emitted = s.emitted := rfl
@[simp] theorem State.setSrc_sources (s : State) (n : Nat) (c : EvSrc) : (s.setSrc n c).sources = s.sources.set n c := rfl
@[simp] theorem State.setSrc_log (s : State) (n : Nat) (c : EvSrc) : (s.setSrc n c).log = s.log := rfl
@[simp] theorem State.setSrc_banks (s : State) (n : Nat) (c : EvSrc) : (s.setSrc n c).banks = s.banks := rfl
@[simp] theorem State.setSrc_stake (s : State) (n : Nat) (c : EvSrc) : (s.setSrc n c).stake = s.stake := rfl
@[simp] theorem State.setSrc_bbkm (s : State) (n : Nat) (c : EvSrc) : (s.setSrc n c).bbkm = s.bbkm := rfl
@[simp] theorem State.setSrc_vault (s : State) (n : Nat) (c : EvSrc) : (s.setSrc n c).vault = s.vault := rfl
@[simp] theorem State.setSrc_reserve (s : State) (n : Nat) (c : EvSrc) : (s.setSrc n c).reserve = s.reserve := rfl
@[simp] theorem State.setSrc_unitCreel (s : State) (n : Nat) (c : EvSrc) : (s.setSrc n c).unitCreel = s.unitCreel := rfl
@[simp] theorem State.setSrc_units (s : State) (n : Nat) (c : EvSrc) : (s.setSrc n c).units = s.units := rfl
@[simp] theorem State.setSrc_pqs (s : State) (n : Nat) (c : EvSrc) : (s.setSrc n c).pqs = s.pqs := rfl
@[simp] theorem State.setSrc_seals (s : State) (n : Nat) (c : EvSrc) : (s.setSrc n c).seals = s.seals := rfl
@[simp] theorem State.setSrc_sealGen (s : State) (n : Nat) (c : EvSrc) : (s.setSrc n c).sealGen = s.sealGen := rfl
@[simp] theorem State.setSrc_lqs (s : State) (n : Nat) (c : EvSrc) : (s.setSrc n c).lqs = s.lqs := rfl
@[simp] theorem State.setSrc_rules (s : State) (n : Nat) (c : EvSrc) : (s.setSrc n c).rules = s.rules := rfl
@[simp] theorem State.setSrc_lports (s : State) (n : Nat) (c : EvSrc) : (s.setSrc n c).lports = s.lports := rfl
@[simp] theorem State.setSrc_hostFns (s : State) (n : Nat) (c : EvSrc) : (s.setSrc n c).hostFns = s.hostFns := rfl
@[simp] theorem State.setSrc_pair (s : State) (n : Nat) (c : EvSrc) : (s.setSrc n c).pair = s.pair := rfl
@[simp] theorem State.setSrc_board (s : State) (n : Nat) (c : EvSrc) : (s.setSrc n c).board = s.board := rfl
@[simp] theorem State.setSrc_resetting (s : State) (n : Nat) (c : EvSrc) : (s.setSrc n c).resetting = s.resetting := rfl
@[simp] theorem State.setSrc_power (s : State) (n : Nat) (c : EvSrc) : (s.setSrc n c).power = s.power := rfl
@[simp] theorem State.setSrc_hubTraffic (s : State) (n : Nat) (c : EvSrc) : (s.setSrc n c).hubTraffic = s.hubTraffic := rfl
@[simp] theorem State.setSrc_lastHubLog (s : State) (n : Nat) (c : EvSrc) : (s.setSrc n c).lastHubLog = s.lastHubLog := rfl
@[simp] theorem State.setSrc_clock (s : State) (n : Nat) (c : EvSrc) : (s.setSrc n c).clock = s.clock := rfl
@[simp] theorem State.setSrc_free (s : State) (n : Nat) (c : EvSrc) : (s.setSrc n c).free = s.free := rfl
@[simp] theorem State.setSrc_pending (s : State) (n : Nat) (c : EvSrc) : (s.setSrc n c).pending = s.pending := rfl
/-! ### spend -/
@[simp] theorem State.spend_cores (s : State) : (s.spend).cores = s.cores := rfl
@[simp] theorem State.spend_seqs (s : State) : (s.spend).seqs = s.seqs := rfl
@[simp] theorem State.spend_coreTile (s : State) : (s.spend).coreTile = s.coreTile := rfl
@[simp] theorem State.spend_coreCreel (s : State) : (s.spend).coreCreel = s.coreCreel := rfl
@[simp] theorem State.spend_mem (s : State) : (s.spend).mem = s.mem := rfl
@[simp] theorem State.spend_tiles (s : State) : (s.spend).tiles = s.tiles := rfl
@[simp] theorem State.spend_slices (s : State) : (s.spend).slices = s.slices := rfl
@[simp] theorem State.spend_bridges (s : State) : (s.spend).bridges = s.bridges := rfl
@[simp] theorem State.spend_chans (s : State) : (s.spend).chans = s.chans := rfl
@[simp] theorem State.spend_qosCfg (s : State) : (s.spend).qosCfg = s.qosCfg := rfl
@[simp] theorem State.spend_installed (s : State) : (s.spend).installed = s.installed := rfl
@[simp] theorem State.spend_creels (s : State) : (s.spend).creels = s.creels := rfl
@[simp] theorem State.spend_ringHolder (s : State) : (s.spend).ringHolder = s.ringHolder := rfl
@[simp] theorem State.spend_pqHolder (s : State) : (s.spend).pqHolder = s.pqHolder := rfl
@[simp] theorem State.spend_lgs (s : State) : (s.spend).lgs = s.lgs := rfl
@[simp] theorem State.spend_hoop (s : State) : (s.spend).hoop = s.hoop := rfl
@[simp] theorem State.spend_emitted (s : State) : (s.spend).emitted = s.emitted := rfl
@[simp] theorem State.spend_sources (s : State) : (s.spend).sources = s.sources := rfl
@[simp] theorem State.spend_log (s : State) : (s.spend).log = s.log := rfl
@[simp] theorem State.spend_banks (s : State) : (s.spend).banks = s.banks := rfl
@[simp] theorem State.spend_stake (s : State) : (s.spend).stake = s.stake := rfl
@[simp] theorem State.spend_bbkm (s : State) : (s.spend).bbkm = s.bbkm := rfl
@[simp] theorem State.spend_vault (s : State) : (s.spend).vault = s.vault := rfl
@[simp] theorem State.spend_reserve (s : State) : (s.spend).reserve = s.reserve := rfl
@[simp] theorem State.spend_unitCreel (s : State) : (s.spend).unitCreel = s.unitCreel := rfl
@[simp] theorem State.spend_units (s : State) : (s.spend).units = s.units := rfl
@[simp] theorem State.spend_pqs (s : State) : (s.spend).pqs = s.pqs := rfl
@[simp] theorem State.spend_seals (s : State) : (s.spend).seals = s.seals := rfl
@[simp] theorem State.spend_sealGen (s : State) : (s.spend).sealGen = s.sealGen := rfl
@[simp] theorem State.spend_lqs (s : State) : (s.spend).lqs = s.lqs := rfl
@[simp] theorem State.spend_rules (s : State) : (s.spend).rules = s.rules := rfl
@[simp] theorem State.spend_lports (s : State) : (s.spend).lports = s.lports := rfl
@[simp] theorem State.spend_hostFns (s : State) : (s.spend).hostFns = s.hostFns := rfl
@[simp] theorem State.spend_pair (s : State) : (s.spend).pair = s.pair := rfl
@[simp] theorem State.spend_board (s : State) : (s.spend).board = s.board := rfl
@[simp] theorem State.spend_resetting (s : State) : (s.spend).resetting = s.resetting := rfl
@[simp] theorem State.spend_power (s : State) : (s.spend).power = s.power := rfl
@[simp] theorem State.spend_hubTraffic (s : State) : (s.spend).hubTraffic = s.hubTraffic := rfl
@[simp] theorem State.spend_lastHubLog (s : State) : (s.spend).lastHubLog = s.lastHubLog := rfl
@[simp] theorem State.spend_clock (s : State) : (s.spend).clock = s.clock := rfl
@[simp] theorem State.spend_free (s : State) : (s.spend).free = s.free + 1 := rfl
@[simp] theorem State.spend_pending (s : State) : (s.spend).pending = s.pending := rfl
/-! ### emit -/
@[simp] theorem State.emit_cores (s : State) (k : Nat) (w : List Nat) : (s.emit k w).cores = s.cores := rfl
@[simp] theorem State.emit_seqs (s : State) (k : Nat) (w : List Nat) : (s.emit k w).seqs = s.seqs := rfl
@[simp] theorem State.emit_coreTile (s : State) (k : Nat) (w : List Nat) : (s.emit k w).coreTile = s.coreTile := rfl
@[simp] theorem State.emit_coreCreel (s : State) (k : Nat) (w : List Nat) : (s.emit k w).coreCreel = s.coreCreel := rfl
@[simp] theorem State.emit_mem (s : State) (k : Nat) (w : List Nat) : (s.emit k w).mem = s.mem := rfl
@[simp] theorem State.emit_tiles (s : State) (k : Nat) (w : List Nat) : (s.emit k w).tiles = s.tiles := rfl
@[simp] theorem State.emit_slices (s : State) (k : Nat) (w : List Nat) : (s.emit k w).slices = s.slices := rfl
@[simp] theorem State.emit_bridges (s : State) (k : Nat) (w : List Nat) : (s.emit k w).bridges = s.bridges := rfl
@[simp] theorem State.emit_chans (s : State) (k : Nat) (w : List Nat) : (s.emit k w).chans = s.chans := rfl
@[simp] theorem State.emit_qosCfg (s : State) (k : Nat) (w : List Nat) : (s.emit k w).qosCfg = s.qosCfg := rfl
@[simp] theorem State.emit_installed (s : State) (k : Nat) (w : List Nat) : (s.emit k w).installed = s.installed := rfl
@[simp] theorem State.emit_creels (s : State) (k : Nat) (w : List Nat) : (s.emit k w).creels = s.creels := rfl
@[simp] theorem State.emit_ringHolder (s : State) (k : Nat) (w : List Nat) : (s.emit k w).ringHolder = s.ringHolder := rfl
@[simp] theorem State.emit_pqHolder (s : State) (k : Nat) (w : List Nat) : (s.emit k w).pqHolder = s.pqHolder := rfl
@[simp] theorem State.emit_lgs (s : State) (k : Nat) (w : List Nat) : (s.emit k w).lgs = s.lgs := rfl
@[simp] theorem State.emit_hoop (s : State) (k : Nat) (w : List Nat) : (s.emit k w).hoop = s.hoop := rfl
@[simp] theorem State.emit_emitted (s : State) (k : Nat) (w : List Nat) : (s.emit k w).emitted = s.emitted ++ [{ kind := k, words := w }] := rfl
@[simp] theorem State.emit_sources (s : State) (k : Nat) (w : List Nat) : (s.emit k w).sources = s.sources := rfl
@[simp] theorem State.emit_log (s : State) (k : Nat) (w : List Nat) : (s.emit k w).log = s.log := rfl
@[simp] theorem State.emit_banks (s : State) (k : Nat) (w : List Nat) : (s.emit k w).banks = s.banks := rfl
@[simp] theorem State.emit_stake (s : State) (k : Nat) (w : List Nat) : (s.emit k w).stake = s.stake := rfl
@[simp] theorem State.emit_bbkm (s : State) (k : Nat) (w : List Nat) : (s.emit k w).bbkm = s.bbkm := rfl
@[simp] theorem State.emit_vault (s : State) (k : Nat) (w : List Nat) : (s.emit k w).vault = s.vault := rfl
@[simp] theorem State.emit_reserve (s : State) (k : Nat) (w : List Nat) : (s.emit k w).reserve = s.reserve := rfl
@[simp] theorem State.emit_unitCreel (s : State) (k : Nat) (w : List Nat) : (s.emit k w).unitCreel = s.unitCreel := rfl
@[simp] theorem State.emit_units (s : State) (k : Nat) (w : List Nat) : (s.emit k w).units = s.units := rfl
@[simp] theorem State.emit_pqs (s : State) (k : Nat) (w : List Nat) : (s.emit k w).pqs = s.pqs := rfl
@[simp] theorem State.emit_seals (s : State) (k : Nat) (w : List Nat) : (s.emit k w).seals = s.seals := rfl
@[simp] theorem State.emit_sealGen (s : State) (k : Nat) (w : List Nat) : (s.emit k w).sealGen = s.sealGen := rfl
@[simp] theorem State.emit_lqs (s : State) (k : Nat) (w : List Nat) : (s.emit k w).lqs = s.lqs := rfl
@[simp] theorem State.emit_rules (s : State) (k : Nat) (w : List Nat) : (s.emit k w).rules = s.rules := rfl
@[simp] theorem State.emit_lports (s : State) (k : Nat) (w : List Nat) : (s.emit k w).lports = s.lports := rfl
@[simp] theorem State.emit_hostFns (s : State) (k : Nat) (w : List Nat) : (s.emit k w).hostFns = s.hostFns := rfl
@[simp] theorem State.emit_pair (s : State) (k : Nat) (w : List Nat) : (s.emit k w).pair = s.pair := rfl
@[simp] theorem State.emit_board (s : State) (k : Nat) (w : List Nat) : (s.emit k w).board = s.board := rfl
@[simp] theorem State.emit_resetting (s : State) (k : Nat) (w : List Nat) : (s.emit k w).resetting = s.resetting := rfl
@[simp] theorem State.emit_power (s : State) (k : Nat) (w : List Nat) : (s.emit k w).power = s.power := rfl
@[simp] theorem State.emit_hubTraffic (s : State) (k : Nat) (w : List Nat) : (s.emit k w).hubTraffic = s.hubTraffic := rfl
@[simp] theorem State.emit_lastHubLog (s : State) (k : Nat) (w : List Nat) : (s.emit k w).lastHubLog = s.lastHubLog := rfl
@[simp] theorem State.emit_clock (s : State) (k : Nat) (w : List Nat) : (s.emit k w).clock = s.clock := rfl
@[simp] theorem State.emit_free (s : State) (k : Nat) (w : List Nat) : (s.emit k w).free = s.free := rfl
@[simp] theorem State.emit_pending (s : State) (k : Nat) (w : List Nat) : (s.emit k w).pending = s.pending := rfl
/-! ### wr8 -/
@[simp] theorem State.wr8_cores (s : State) (a : Nat) (v : Byte) : (s.wr8 a v).cores = s.cores := rfl
@[simp] theorem State.wr8_seqs (s : State) (a : Nat) (v : Byte) : (s.wr8 a v).seqs = s.seqs := rfl
@[simp] theorem State.wr8_coreTile (s : State) (a : Nat) (v : Byte) : (s.wr8 a v).coreTile = s.coreTile := rfl
@[simp] theorem State.wr8_coreCreel (s : State) (a : Nat) (v : Byte) : (s.wr8 a v).coreCreel = s.coreCreel := rfl
@[simp] theorem State.wr8_mem (s : State) (a : Nat) (v : Byte) : (s.wr8 a v).mem = s.mem.write a v := rfl
@[simp] theorem State.wr8_tiles (s : State) (a : Nat) (v : Byte) : (s.wr8 a v).tiles = s.tiles := rfl
@[simp] theorem State.wr8_slices (s : State) (a : Nat) (v : Byte) : (s.wr8 a v).slices = s.slices := rfl
@[simp] theorem State.wr8_bridges (s : State) (a : Nat) (v : Byte) : (s.wr8 a v).bridges = s.bridges := rfl
@[simp] theorem State.wr8_chans (s : State) (a : Nat) (v : Byte) : (s.wr8 a v).chans = s.chans := rfl
@[simp] theorem State.wr8_qosCfg (s : State) (a : Nat) (v : Byte) : (s.wr8 a v).qosCfg = s.qosCfg := rfl
@[simp] theorem State.wr8_installed (s : State) (a : Nat) (v : Byte) : (s.wr8 a v).installed = s.installed := rfl
@[simp] theorem State.wr8_creels (s : State) (a : Nat) (v : Byte) : (s.wr8 a v).creels = s.creels := rfl
@[simp] theorem State.wr8_ringHolder (s : State) (a : Nat) (v : Byte) : (s.wr8 a v).ringHolder = s.ringHolder := rfl
@[simp] theorem State.wr8_pqHolder (s : State) (a : Nat) (v : Byte) : (s.wr8 a v).pqHolder = s.pqHolder := rfl
@[simp] theorem State.wr8_lgs (s : State) (a : Nat) (v : Byte) : (s.wr8 a v).lgs = s.lgs := rfl
@[simp] theorem State.wr8_hoop (s : State) (a : Nat) (v : Byte) : (s.wr8 a v).hoop = s.hoop := rfl
@[simp] theorem State.wr8_emitted (s : State) (a : Nat) (v : Byte) : (s.wr8 a v).emitted = s.emitted := rfl
@[simp] theorem State.wr8_sources (s : State) (a : Nat) (v : Byte) : (s.wr8 a v).sources = s.sources := rfl
@[simp] theorem State.wr8_log (s : State) (a : Nat) (v : Byte) : (s.wr8 a v).log = s.log := rfl
@[simp] theorem State.wr8_banks (s : State) (a : Nat) (v : Byte) : (s.wr8 a v).banks = s.banks := rfl
@[simp] theorem State.wr8_stake (s : State) (a : Nat) (v : Byte) : (s.wr8 a v).stake = s.stake := rfl
@[simp] theorem State.wr8_bbkm (s : State) (a : Nat) (v : Byte) : (s.wr8 a v).bbkm = s.bbkm := rfl
@[simp] theorem State.wr8_vault (s : State) (a : Nat) (v : Byte) : (s.wr8 a v).vault = s.vault := rfl
@[simp] theorem State.wr8_reserve (s : State) (a : Nat) (v : Byte) : (s.wr8 a v).reserve = s.reserve := rfl
@[simp] theorem State.wr8_unitCreel (s : State) (a : Nat) (v : Byte) : (s.wr8 a v).unitCreel = s.unitCreel := rfl
@[simp] theorem State.wr8_units (s : State) (a : Nat) (v : Byte) : (s.wr8 a v).units = s.units := rfl
@[simp] theorem State.wr8_pqs (s : State) (a : Nat) (v : Byte) : (s.wr8 a v).pqs = s.pqs := rfl
@[simp] theorem State.wr8_seals (s : State) (a : Nat) (v : Byte) : (s.wr8 a v).seals = s.seals := rfl
@[simp] theorem State.wr8_sealGen (s : State) (a : Nat) (v : Byte) : (s.wr8 a v).sealGen = s.sealGen := rfl
@[simp] theorem State.wr8_lqs (s : State) (a : Nat) (v : Byte) : (s.wr8 a v).lqs = s.lqs := rfl
@[simp] theorem State.wr8_rules (s : State) (a : Nat) (v : Byte) : (s.wr8 a v).rules = s.rules := rfl
@[simp] theorem State.wr8_lports (s : State) (a : Nat) (v : Byte) : (s.wr8 a v).lports = s.lports := rfl
@[simp] theorem State.wr8_hostFns (s : State) (a : Nat) (v : Byte) : (s.wr8 a v).hostFns = s.hostFns := rfl
@[simp] theorem State.wr8_pair (s : State) (a : Nat) (v : Byte) : (s.wr8 a v).pair = s.pair := rfl
@[simp] theorem State.wr8_board (s : State) (a : Nat) (v : Byte) : (s.wr8 a v).board = s.board := rfl
@[simp] theorem State.wr8_resetting (s : State) (a : Nat) (v : Byte) : (s.wr8 a v).resetting = s.resetting := rfl
@[simp] theorem State.wr8_power (s : State) (a : Nat) (v : Byte) : (s.wr8 a v).power = s.power := rfl
@[simp] theorem State.wr8_hubTraffic (s : State) (a : Nat) (v : Byte) : (s.wr8 a v).hubTraffic = s.hubTraffic := rfl
@[simp] theorem State.wr8_lastHubLog (s : State) (a : Nat) (v : Byte) : (s.wr8 a v).lastHubLog = s.lastHubLog := rfl
@[simp] theorem State.wr8_clock (s : State) (a : Nat) (v : Byte) : (s.wr8 a v).clock = s.clock := rfl
@[simp] theorem State.wr8_free (s : State) (a : Nat) (v : Byte) : (s.wr8 a v).free = s.free := rfl
@[simp] theorem State.wr8_pending (s : State) (a : Nat) (v : Byte) : (s.wr8 a v).pending = s.pending := rfl
/-! ### markPoison -/
@[simp] theorem State.markPoison_cores (s : State) (l : Nat) : (s.markPoison l).cores = s.cores := rfl
@[simp] theorem State.markPoison_seqs (s : State) (l : Nat) : (s.markPoison l).seqs = s.seqs := rfl
@[simp] theorem State.markPoison_coreTile (s : State) (l : Nat) : (s.markPoison l).coreTile = s.coreTile := rfl
@[simp] theorem State.markPoison_coreCreel (s : State) (l : Nat) : (s.markPoison l).coreCreel = s.coreCreel := rfl
@[simp] theorem State.markPoison_mem (s : State) (l : Nat) : (s.markPoison l).mem = { s.mem with poison := setInsert s.mem.poison l } := rfl
@[simp] theorem State.markPoison_tiles (s : State) (l : Nat) : (s.markPoison l).tiles = s.tiles := rfl
@[simp] theorem State.markPoison_slices (s : State) (l : Nat) : (s.markPoison l).slices = s.slices := rfl
@[simp] theorem State.markPoison_bridges (s : State) (l : Nat) : (s.markPoison l).bridges = s.bridges := rfl
@[simp] theorem State.markPoison_chans (s : State) (l : Nat) : (s.markPoison l).chans = s.chans := rfl
@[simp] theorem State.markPoison_qosCfg (s : State) (l : Nat) : (s.markPoison l).qosCfg = s.qosCfg := rfl
@[simp] theorem State.markPoison_installed (s : State) (l : Nat) : (s.markPoison l).installed = s.installed := rfl
@[simp] theorem State.markPoison_creels (s : State) (l : Nat) : (s.markPoison l).creels = s.creels := rfl
@[simp] theorem State.markPoison_ringHolder (s : State) (l : Nat) : (s.markPoison l).ringHolder = s.ringHolder := rfl
@[simp] theorem State.markPoison_pqHolder (s : State) (l : Nat) : (s.markPoison l).pqHolder = s.pqHolder := rfl
@[simp] theorem State.markPoison_lgs (s : State) (l : Nat) : (s.markPoison l).lgs = s.lgs := rfl
@[simp] theorem State.markPoison_hoop (s : State) (l : Nat) : (s.markPoison l).hoop = s.hoop := rfl
@[simp] theorem State.markPoison_emitted (s : State) (l : Nat) : (s.markPoison l).emitted = s.emitted := rfl
@[simp] theorem State.markPoison_sources (s : State) (l : Nat) : (s.markPoison l).sources = s.sources := rfl
@[simp] theorem State.markPoison_log (s : State) (l : Nat) : (s.markPoison l).log = s.log := rfl
@[simp] theorem State.markPoison_banks (s : State) (l : Nat) : (s.markPoison l).banks = s.banks := rfl
@[simp] theorem State.markPoison_stake (s : State) (l : Nat) : (s.markPoison l).stake = s.stake := rfl
@[simp] theorem State.markPoison_bbkm (s : State) (l : Nat) : (s.markPoison l).bbkm = s.bbkm := rfl
@[simp] theorem State.markPoison_vault (s : State) (l : Nat) : (s.markPoison l).vault = s.vault := rfl
@[simp] theorem State.markPoison_reserve (s : State) (l : Nat) : (s.markPoison l).reserve = s.reserve := rfl
@[simp] theorem State.markPoison_unitCreel (s : State) (l : Nat) : (s.markPoison l).unitCreel = s.unitCreel := rfl
@[simp] theorem State.markPoison_units (s : State) (l : Nat) : (s.markPoison l).units = s.units := rfl
@[simp] theorem State.markPoison_pqs (s : State) (l : Nat) : (s.markPoison l).pqs = s.pqs := rfl
@[simp] theorem State.markPoison_seals (s : State) (l : Nat) : (s.markPoison l).seals = s.seals := rfl
@[simp] theorem State.markPoison_sealGen (s : State) (l : Nat) : (s.markPoison l).sealGen = s.sealGen := rfl
@[simp] theorem State.markPoison_lqs (s : State) (l : Nat) : (s.markPoison l).lqs = s.lqs := rfl
@[simp] theorem State.markPoison_rules (s : State) (l : Nat) : (s.markPoison l).rules = s.rules := rfl
@[simp] theorem State.markPoison_lports (s : State) (l : Nat) : (s.markPoison l).lports = s.lports := rfl
@[simp] theorem State.markPoison_hostFns (s : State) (l : Nat) : (s.markPoison l).hostFns = s.hostFns := rfl
@[simp] theorem State.markPoison_pair (s : State) (l : Nat) : (s.markPoison l).pair = s.pair := rfl
@[simp] theorem State.markPoison_board (s : State) (l : Nat) : (s.markPoison l).board = s.board := rfl
@[simp] theorem State.markPoison_resetting (s : State) (l : Nat) : (s.markPoison l).resetting = s.resetting := rfl
@[simp] theorem State.markPoison_power (s : State) (l : Nat) : (s.markPoison l).power = s.power := rfl
@[simp] theorem State.markPoison_hubTraffic (s : State) (l : Nat) : (s.markPoison l).hubTraffic = s.hubTraffic := rfl
@[simp] theorem State.markPoison_lastHubLog (s : State) (l : Nat) : (s.markPoison l).lastHubLog = s.lastHubLog := rfl
@[simp] theorem State.markPoison_clock (s : State) (l : Nat) : (s.markPoison l).clock = s.clock := rfl
@[simp] theorem State.markPoison_free (s : State) (l : Nat) : (s.markPoison l).free = s.free := rfl
@[simp] theorem State.markPoison_pending (s : State) (l : Nat) : (s.markPoison l).pending = s.pending := rfl
/-! ### clearPoison -/
@[simp] theorem State.clearPoison_cores (s : State) (l : Nat) : (s.clearPoison l).cores = s.cores := rfl
@[simp] theorem State.clearPoison_seqs (s : State) (l : Nat) : (s.clearPoison l).seqs = s.seqs := rfl
@[simp] theorem State.clearPoison_coreTile (s : State) (l : Nat) : (s.clearPoison l).coreTile = s.coreTile := rfl
@[simp] theorem State.clearPoison_coreCreel (s : State) (l : Nat) : (s.clearPoison l).coreCreel = s.coreCreel := rfl
@[simp] theorem State.clearPoison_mem (s : State) (l : Nat) : (s.clearPoison l).mem = { s.mem with poison := setErase s.mem.poison l } := rfl
@[simp] theorem State.clearPoison_tiles (s : State) (l : Nat) : (s.clearPoison l).tiles = s.tiles := rfl
@[simp] theorem State.clearPoison_slices (s : State) (l : Nat) : (s.clearPoison l).slices = s.slices := rfl
@[simp] theorem State.clearPoison_bridges (s : State) (l : Nat) : (s.clearPoison l).bridges = s.bridges := rfl
@[simp] theorem State.clearPoison_chans (s : State) (l : Nat) : (s.clearPoison l).chans = s.chans := rfl
@[simp] theorem State.clearPoison_qosCfg (s : State) (l : Nat) : (s.clearPoison l).qosCfg = s.qosCfg := rfl
@[simp] theorem State.clearPoison_installed (s : State) (l : Nat) : (s.clearPoison l).installed = s.installed := rfl
@[simp] theorem State.clearPoison_creels (s : State) (l : Nat) : (s.clearPoison l).creels = s.creels := rfl
@[simp] theorem State.clearPoison_ringHolder (s : State) (l : Nat) : (s.clearPoison l).ringHolder = s.ringHolder := rfl
@[simp] theorem State.clearPoison_pqHolder (s : State) (l : Nat) : (s.clearPoison l).pqHolder = s.pqHolder := rfl
@[simp] theorem State.clearPoison_lgs (s : State) (l : Nat) : (s.clearPoison l).lgs = s.lgs := rfl
@[simp] theorem State.clearPoison_hoop (s : State) (l : Nat) : (s.clearPoison l).hoop = s.hoop := rfl
@[simp] theorem State.clearPoison_emitted (s : State) (l : Nat) : (s.clearPoison l).emitted = s.emitted := rfl
@[simp] theorem State.clearPoison_sources (s : State) (l : Nat) : (s.clearPoison l).sources = s.sources := rfl
@[simp] theorem State.clearPoison_log (s : State) (l : Nat) : (s.clearPoison l).log = s.log := rfl
@[simp] theorem State.clearPoison_banks (s : State) (l : Nat) : (s.clearPoison l).banks = s.banks := rfl
@[simp] theorem State.clearPoison_stake (s : State) (l : Nat) : (s.clearPoison l).stake = s.stake := rfl
@[simp] theorem State.clearPoison_bbkm (s : State) (l : Nat) : (s.clearPoison l).bbkm = s.bbkm := rfl
@[simp] theorem State.clearPoison_vault (s : State) (l : Nat) : (s.clearPoison l).vault = s.vault := rfl
@[simp] theorem State.clearPoison_reserve (s : State) (l : Nat) : (s.clearPoison l).reserve = s.reserve := rfl
@[simp] theorem State.clearPoison_unitCreel (s : State) (l : Nat) : (s.clearPoison l).unitCreel = s.unitCreel := rfl
@[simp] theorem State.clearPoison_units (s : State) (l : Nat) : (s.clearPoison l).units = s.units := rfl
@[simp] theorem State.clearPoison_pqs (s : State) (l : Nat) : (s.clearPoison l).pqs = s.pqs := rfl
@[simp] theorem State.clearPoison_seals (s : State) (l : Nat) : (s.clearPoison l).seals = s.seals := rfl
@[simp] theorem State.clearPoison_sealGen (s : State) (l : Nat) : (s.clearPoison l).sealGen = s.sealGen := rfl
@[simp] theorem State.clearPoison_lqs (s : State) (l : Nat) : (s.clearPoison l).lqs = s.lqs := rfl
@[simp] theorem State.clearPoison_rules (s : State) (l : Nat) : (s.clearPoison l).rules = s.rules := rfl
@[simp] theorem State.clearPoison_lports (s : State) (l : Nat) : (s.clearPoison l).lports = s.lports := rfl
@[simp] theorem State.clearPoison_hostFns (s : State) (l : Nat) : (s.clearPoison l).hostFns = s.hostFns := rfl
@[simp] theorem State.clearPoison_pair (s : State) (l : Nat) : (s.clearPoison l).pair = s.pair := rfl
@[simp] theorem State.clearPoison_board (s : State) (l : Nat) : (s.clearPoison l).board = s.board := rfl
@[simp] theorem State.clearPoison_resetting (s : State) (l : Nat) : (s.clearPoison l).resetting = s.resetting := rfl
@[simp] theorem State.clearPoison_power (s : State) (l : Nat) : (s.clearPoison l).power = s.power := rfl
@[simp] theorem State.clearPoison_hubTraffic (s : State) (l : Nat) : (s.clearPoison l).hubTraffic = s.hubTraffic := rfl
@[simp] theorem State.clearPoison_lastHubLog (s : State) (l : Nat) : (s.clearPoison l).lastHubLog = s.lastHubLog := rfl
@[simp] theorem State.clearPoison_clock (s : State) (l : Nat) : (s.clearPoison l).clock = s.clock := rfl
@[simp] theorem State.clearPoison_free (s : State) (l : Nat) : (s.clearPoison l).free = s.free := rfl
@[simp] theorem State.clearPoison_pending (s : State) (l : Nat) : (s.clearPoison l).pending = s.pending := rfl
/-! ### logRec -/
@[simp] theorem State.logRec_cores (s : State) (a b c d e f : Nat) : (s.logRec a b c d e f).cores = s.cores := rfl
@[simp] theorem State.logRec_seqs (s : State) (a b c d e f : Nat) : (s.logRec a b c d e f).seqs = s.seqs := rfl
@[simp] theorem State.logRec_coreTile (s : State) (a b c d e f : Nat) : (s.logRec a b c d e f).coreTile = s.coreTile := rfl
@[simp] theorem State.logRec_coreCreel (s : State) (a b c d e f : Nat) : (s.logRec a b c d e f).coreCreel = s.coreCreel := rfl
@[simp] theorem State.logRec_mem (s : State) (a b c d e f : Nat) : (s.logRec a b c d e f).mem = s.mem := rfl
@[simp] theorem State.logRec_tiles (s : State) (a b c d e f : Nat) : (s.logRec a b c d e f).tiles = s.tiles := rfl
@[simp] theorem State.logRec_slices (s : State) (a b c d e f : Nat) : (s.logRec a b c d e f).slices = s.slices := rfl
@[simp] theorem State.logRec_bridges (s : State) (a b c d e f : Nat) : (s.logRec a b c d e f).bridges = s.bridges := rfl
@[simp] theorem State.logRec_chans (s : State) (a b c d e f : Nat) : (s.logRec a b c d e f).chans = s.chans := rfl
@[simp] theorem State.logRec_qosCfg (s : State) (a b c d e f : Nat) : (s.logRec a b c d e f).qosCfg = s.qosCfg := rfl
@[simp] theorem State.logRec_installed (s : State) (a b c d e f : Nat) : (s.logRec a b c d e f).installed = s.installed := rfl
@[simp] theorem State.logRec_creels (s : State) (a b c d e f : Nat) : (s.logRec a b c d e f).creels = s.creels := rfl
@[simp] theorem State.logRec_ringHolder (s : State) (a b c d e f : Nat) : (s.logRec a b c d e f).ringHolder = s.ringHolder := rfl
@[simp] theorem State.logRec_pqHolder (s : State) (a b c d e f : Nat) : (s.logRec a b c d e f).pqHolder = s.pqHolder := rfl
@[simp] theorem State.logRec_lgs (s : State) (a b c d e f : Nat) : (s.logRec a b c d e f).lgs = s.lgs := rfl
@[simp] theorem State.logRec_hoop (s : State) (a b c d e f : Nat) : (s.logRec a b c d e f).hoop = s.hoop := rfl
@[simp] theorem State.logRec_emitted (s : State) (a b c d e f : Nat) : (s.logRec a b c d e f).emitted = s.emitted := rfl
@[simp] theorem State.logRec_sources (s : State) (a b c d e f : Nat) : (s.logRec a b c d e f).sources = s.sources := rfl
@[simp] theorem State.logRec_log (s : State) (a b c d e f : Nat) : (s.logRec a b c d e f).log = s.log ++ [recOf (s.log.length + 1) a b c d e f s.hoop.sec s.hoop.frac] := rfl
@[simp] theorem State.logRec_banks (s : State) (a b c d e f : Nat) : (s.logRec a b c d e f).banks = s.banks := rfl
@[simp] theorem State.logRec_stake (s : State) (a b c d e f : Nat) : (s.logRec a b c d e f).stake = s.stake := rfl
@[simp] theorem State.logRec_bbkm (s : State) (a b c d e f : Nat) : (s.logRec a b c d e f).bbkm = s.bbkm := rfl
@[simp] theorem State.logRec_vault (s : State) (a b c d e f : Nat) : (s.logRec a b c d e f).vault = s.vault := rfl
@[simp] theorem State.logRec_reserve (s : State) (a b c d e f : Nat) : (s.logRec a b c d e f).reserve = s.reserve := rfl
@[simp] theorem State.logRec_unitCreel (s : State) (a b c d e f : Nat) : (s.logRec a b c d e f).unitCreel = s.unitCreel := rfl
@[simp] theorem State.logRec_units (s : State) (a b c d e f : Nat) : (s.logRec a b c d e f).units = s.units := rfl
@[simp] theorem State.logRec_pqs (s : State) (a b c d e f : Nat) : (s.logRec a b c d e f).pqs = s.pqs := rfl
@[simp] theorem State.logRec_seals (s : State) (a b c d e f : Nat) : (s.logRec a b c d e f).seals = s.seals := rfl
@[simp] theorem State.logRec_sealGen (s : State) (a b c d e f : Nat) : (s.logRec a b c d e f).sealGen = s.sealGen := rfl
@[simp] theorem State.logRec_lqs (s : State) (a b c d e f : Nat) : (s.logRec a b c d e f).lqs = s.lqs := rfl
@[simp] theorem State.logRec_rules (s : State) (a b c d e f : Nat) : (s.logRec a b c d e f).rules = s.rules := rfl
@[simp] theorem State.logRec_lports (s : State) (a b c d e f : Nat) : (s.logRec a b c d e f).lports = s.lports := rfl
@[simp] theorem State.logRec_hostFns (s : State) (a b c d e f : Nat) : (s.logRec a b c d e f).hostFns = s.hostFns := rfl
@[simp] theorem State.logRec_pair (s : State) (a b c d e f : Nat) : (s.logRec a b c d e f).pair = s.pair := rfl
@[simp] theorem State.logRec_board (s : State) (a b c d e f : Nat) : (s.logRec a b c d e f).board = s.board := rfl
@[simp] theorem State.logRec_resetting (s : State) (a b c d e f : Nat) : (s.logRec a b c d e f).resetting = s.resetting := rfl
@[simp] theorem State.logRec_power (s : State) (a b c d e f : Nat) : (s.logRec a b c d e f).power = s.power := rfl
@[simp] theorem State.logRec_hubTraffic (s : State) (a b c d e f : Nat) : (s.logRec a b c d e f).hubTraffic = s.hubTraffic := rfl
@[simp] theorem State.logRec_lastHubLog (s : State) (a b c d e f : Nat) : (s.logRec a b c d e f).lastHubLog = s.lastHubLog := rfl
@[simp] theorem State.logRec_clock (s : State) (a b c d e f : Nat) : (s.logRec a b c d e f).clock = s.clock := rfl
@[simp] theorem State.logRec_free (s : State) (a b c d e f : Nat) : (s.logRec a b c d e f).free = s.free := rfl
@[simp] theorem State.logRec_pending (s : State) (a b c d e f : Nat) : (s.logRec a b c d e f).pending = s.pending := rfl

end Sys2Proof.Machine
end

