-- ==== Sys2Proof/Laws/Memory.lean ====
section
/-!
SUPPORT. The laws of memory: every operation keeps the canonical form, a byte written reads as the value written, every
other byte reads as before, and equal memories are equal lists.
-/
namespace Sys2Proof.Machine

/-! ## The canonical form -/

theorem cellsWf_tail {p : Host.Cell} {r : List Host.Cell} (h : cellsWf (p :: r) = true) : cellsWf r = true := by
  cases r with
  | nil => rfl
  | cons q r => simp only [cellsWf, Bool.and_eq_true] at h; exact h.2
/-- A canonical list, by its head, its tail and the order of the two. -/
theorem cellsWf_cons_iff (p : Host.Cell) (r : List Host.Cell) :
    cellsWf (p :: r) = true ↔ p.2 ≠ 0 ∧ (∀ q ∈ r, p.1 < q.1) ∧ cellsWf r = true := by
  induction r generalizing p with
  | nil => simp [cellsWf]
  | cons q r ih =>
    have e : cellsWf (p :: q :: r) = (p.2 != 0 && decide (p.1 < q.1) && cellsWf (q :: r)) := rfl
    rw [e]
    simp only [Bool.and_eq_true, bne_iff_ne, ne_eq, decide_eq_true_eq, List.mem_cons, forall_eq_or_imp]
    constructor
    · rintro ⟨⟨h0, h1⟩, h2⟩
      refine ⟨h0, ⟨h1, fun x hx => ?_⟩, h2⟩
      exact Nat.lt_trans h1 (((ih q).1 h2).2.1 x hx)
    · rintro ⟨h0, ⟨h1, -⟩, h2⟩
      exact ⟨⟨h0, h1⟩, h2⟩
/-- Writing a byte keeps every address in the list above a bound that the byte's address is above too. -/
theorem cellSet_bound (m : List Host.Cell) (a b : Nat) (v : Byte) (h : ∀ q ∈ m, b < q.1) (ha : b < a) :
    ∀ q ∈ cellSet m a v, b < q.1 := by
  induction m with
  | nil =>
    intro q hq
    simp only [cellSet] at hq
    split at hq <;> simp at hq
    subst hq; exact ha
  | cons p r ih =>
    obtain ⟨c, w⟩ := p
    simp only [List.mem_cons, forall_eq_or_imp] at h
    have ih := ih h.2
    intro q hq
    simp only [cellSet] at hq
    split at hq
    · split at hq
      · simp only [List.mem_cons] at hq
        rcases hq with rfl | hq
        · exact h.1
        · exact h.2 q hq
      · simp only [List.mem_cons] at hq
        rcases hq with rfl | rfl | hq
        · exact ha
        · exact h.1
        · exact h.2 q hq
    · split at hq
      · split at hq
        · exact h.2 q hq
        · simp only [List.mem_cons] at hq
          rcases hq with rfl | hq
          · exact ha
          · exact h.2 q hq
      · simp only [List.mem_cons] at hq
        rcases hq with rfl | hq
        · exact h.1
        · exact ih q hq
/-- A write keeps the canonical form. -/
theorem cellSet_wf (m : List Host.Cell) (a : Nat) (v : Byte) (h : cellsWf m = true) : cellsWf (cellSet m a v) = true := by
  induction m with
  | nil => simp only [cellSet]; split <;> simp_all [cellsWf]
  | cons p r ih =>
    obtain ⟨c, w⟩ := p
    have hc := (cellsWf_cons_iff _ _).1 h
    simp only [cellSet]
    split
    · rename_i hac
      split
      · exact h
      · rename_i hv
        refine (cellsWf_cons_iff _ _).2 ⟨hv, ?_, h⟩
        simp only [List.mem_cons, forall_eq_or_imp]
        exact ⟨hac, fun q hq => Nat.lt_trans hac (hc.2.1 q hq)⟩
    · split
      · rename_i hac
        subst hac
        split
        · exact hc.2.2
        · rename_i hv
          exact (cellsWf_cons_iff _ _).2 ⟨hv, hc.2.1, hc.2.2⟩
      · rename_i h1 h2
        exact (cellsWf_cons_iff _ _).2 ⟨hc.1, cellSet_bound r a c v hc.2.1 (by omega), ih hc.2.2⟩
theorem cellsWf_filter (m : List Host.Cell) (f : Host.Cell → Bool) (h : cellsWf m = true) : cellsWf (m.filter f) = true := by
  induction m with
  | nil => rfl
  | cons p r ih =>
    have hc := (cellsWf_cons_iff _ _).1 h
    simp only [List.filter_cons]
    split
    · exact (cellsWf_cons_iff _ _).2 ⟨hc.1, fun q hq => hc.2.1 q (List.mem_filter.1 hq).1, ih hc.2.2⟩
    · exact ih hc.2.2

theorem Mem.write_wf (m : Mem) (a : Nat) (v : Byte) (h : m.wf = true) : (m.write a v).wf = true := cellSet_wf m.cells a v h
theorem State.wr8_wf (s : State) (a : Nat) (v : Byte) (h : s.mem.wf = true) : (s.wr8 a v).mem.wf = true :=
  Mem.write_wf s.mem a v h
theorem State.wrBytes_wf (b : Bytes) (s : State) (a : Nat) (h : s.mem.wf = true) : (s.wrBytes a b).mem.wf = true := by
  induction b generalizing s a with
  | nil => exact h
  | cons x r ih => exact ih _ _ (s.wr8_wf a x h)
theorem State.wrMap_wf (m : FMap Byte) (s : State) (h : s.mem.wf = true) : (s.wrMap m).mem.wf = true := by
  induction m generalizing s with
  | nil => exact h
  | cons p r ih => exact ih _ (s.wr8_wf p.1 p.2 h)
theorem State.wr64_wf (s : State) (a : Nat) (v : W64) (h : s.mem.wf = true) : (s.wr64 a v).mem.wf = true :=
  State.wrBytes_wf _ s a h
theorem State.wrWords_wf (l : List W64) (s : State) (a : Nat) (h : s.mem.wf = true) : (s.wrWords a l).mem.wf = true :=
  State.wrBytes_wf _ s a h
theorem State.markPoison_wf (s : State) (l : Nat) (h : s.mem.wf = true) : (s.markPoison l).mem.wf = true := h
theorem State.clearPoison_wf (s : State) (l : Nat) (h : s.mem.wf = true) : (s.clearPoison l).mem.wf = true := h
theorem State.clearPoisons_wf (l : List Nat) (s : State) (h : s.mem.wf = true) :
    (l.foldl State.clearPoison s).mem.wf = true := by
  induction l generalizing s with
  | nil => exact h
  | cons x r ih => exact ih _ h
theorem State.unpoisonWhole_wf (s : State) (l : List Nat) (h : s.mem.wf = true) : (s.unpoisonWhole l).mem.wf = true :=
  State.clearPoisons_wf _ s h
theorem State.store_wf (s : State) (m : FMap Byte) (h : s.mem.wf = true) : (s.store m).mem.wf = true :=
  State.unpoisonWhole_wf _ _ (State.wrMap_wf m s h)
theorem State.storeBytes_wf (s : State) (a : Nat) (b : Bytes) (h : s.mem.wf = true) : (s.storeBytes a b).mem.wf = true :=
  State.clearPoisons_wf _ _ (State.wrBytes_wf b s a h)
theorem State.scramble_wf (s : State) (lo hi : Nat) (h : s.mem.wf = true) : (s.scramble lo hi).mem.wf = true := by
  simp only [State.scramble, Mem.wf]
  exact cellsWf_filter _ _ h
/-- Memory at reset has the form. -/
theorem reset_mem_wf : State.reset.mem.wf = true := rfl

/-! ## Reading after writing -/

theorem cellGet_below (m : List Host.Cell) (a : Nat) (h : ∀ q ∈ m, a < q.1) : cellGet m a = 0 := by
  induction m with
  | nil => rfl
  | cons p r ih =>
    simp only [List.mem_cons, forall_eq_or_imp] at h
    simp only [cellGet, if_neg (Nat.ne_of_gt h.1), ih h.2]
/-- The byte written reads as the value written. -/
theorem cellGet_cellSet_self (m : List Host.Cell) (a : Nat) (v : Byte) (h : cellsWf m = true) :
    cellGet (cellSet m a v) a = v := by
  induction m with
  | nil => simp only [cellSet]; split <;> simp_all [cellGet]
  | cons p r ih =>
    obtain ⟨c, w⟩ := p
    have hc := (cellsWf_cons_iff _ _).1 h
    simp only [cellSet]
    split
    · rename_i hac
      split
      · rename_i hv
        subst hv
        refine cellGet_below _ _ ?_
        simp only [List.mem_cons, forall_eq_or_imp]
        exact ⟨hac, fun q hq => Nat.lt_trans hac (hc.2.1 q hq)⟩
      · simp [cellGet]
    · split
      · rename_i hac
        subst hac
        split
        · rename_i hv
          subst hv
          exact cellGet_below _ _ hc.2.1
        · simp [cellGet]
      · rename_i h1 h2
        simp only [cellGet, if_neg (Ne.symm h2), ih hc.2.2]
/-- Every other byte reads as before. -/
theorem cellGet_cellSet_ne (m : List Host.Cell) {a b : Nat} (v : Byte) (h : b ≠ a) :
    cellGet (cellSet m a v) b = cellGet m b := by
  induction m with
  | nil => simp only [cellSet]; split <;> simp [cellGet, Ne.symm h]
  | cons p r ih =>
    obtain ⟨c, w⟩ := p
    simp only [cellSet]
    split
    · split
      · rfl
      · simp [cellGet, Ne.symm h]
    · split
      · rename_i hac
        subst hac
        split <;> simp [cellGet, Ne.symm h]
      · simp only [cellGet, ih]

theorem scrAt_scrCut_self (l : List (Nat × Nat × Nat)) (a : Nat) : scrAt (scrCut l a) a = none := by
  induction l with
  | nil => rfl
  | cons p r ih =>
    obtain ⟨lo, hi, e⟩ := p
    simp only [scrCut]
    split
    · rename_i h
      by_cases h1 : lo < a <;> by_cases h2 : a + 1 < hi <;> simp [h1, h2, scrAt, ih] <;> intros <;> omega
    · rename_i h
      simp [scrAt, h, ih]
theorem scrAt_scrCut_ne (l : List (Nat × Nat × Nat)) {a b : Nat} (h : b ≠ a) : scrAt (scrCut l a) b = scrAt l b := by
  induction l with
  | nil => rfl
  | cons p r ih =>
    obtain ⟨lo, hi, e⟩ := p
    simp only [scrCut]
    split
    · rename_i ha
      by_cases hb : lo ≤ b ∧ b < hi
      · by_cases hlt : b < a
        · have h1 : lo < a := by omega
          simp [h1, scrAt, hb, hlt]
        · have h2 : a + 1 < hi := by omega
          have h3 : a + 1 ≤ b := by omega
          by_cases h1 : lo < a <;> simp [h1, h2, scrAt, hb, hlt, h3]
      · by_cases h1 : lo < a <;> by_cases h2 : a + 1 < hi <;> simp only [h1, h2, if_true, if_false, scrAt,
          List.cons_append, List.nil_append, ih, if_neg hb]
        · rw [if_neg (by omega), if_neg (by omega)]
        · rw [if_neg (by omega)]
        · rw [if_neg (by omega)]
    · simp only [scrAt, ih]
theorem Mem.read_write_self (m : Mem) (a : Nat) (v : Byte) (h : m.wf = true) : (m.write a v).read a = v := by
  simp only [Mem.read, Mem.write, scrAt_scrCut_self]
  exact cellGet_cellSet_self m.cells a v h
theorem Mem.read_write_ne (m : Mem) {a b : Nat} (v : Byte) (h : b ≠ a) : (m.write a v).read b = m.read b := by
  simp only [Mem.read, Mem.write, scrAt_scrCut_ne _ h, cellGet_cellSet_ne _ v h]
/-- Bytes outside the range written read as before. -/
theorem State.wrBytes_read_ne (l : Bytes) (s : State) (a b : Nat) (h : b < a ∨ a + l.length ≤ b) :
    (s.wrBytes a l).mem.read b = s.mem.read b := by
  induction l generalizing s a with
  | nil => rfl
  | cons x r ih =>
    simp only [List.length_cons] at h
    have e : s.wrBytes a (x :: r) = (s.wr8 a x).wrBytes (a + 1) r := rfl
    rw [e, ih _ _ (by omega), State.wr8_mem]
    exact Mem.read_write_ne _ x (by omega)
/-- Each byte of the range written reads as the byte written there. -/
theorem State.wrBytes_read (l : Bytes) (s : State) (a i : Nat) (h : s.mem.wf = true) (hi : i < l.length) :
    (s.wrBytes a l).mem.read (a + i) = l.getD i 0 := by
  induction l generalizing s a i with
  | nil => simp at hi
  | cons x r ih =>
    have e : s.wrBytes a (x :: r) = (s.wr8 a x).wrBytes (a + 1) r := rfl
    rw [e]
    cases i with
    | zero =>
      rw [State.wrBytes_read_ne _ _ _ _ (by omega)]
      simpa using Mem.read_write_self s.mem a x h
    | succ i =>
      have := ih (s.wr8 a x) (a + 1) i (s.wr8_wf a x h) (by simpa using hi)
      rw [show a + (i + 1) = a + 1 + i by omega, this]
      simp

end Sys2Proof.Machine
end

