-- ==== Sys2Proof/Laws/Coherence.lean ====
section
/-!
SUPPORT. What the operations of the caches and the directory can change: `CacheOnly`, for each of them.
-/
namespace Sys2Proof.Machine

/-! ## Reading a part after an update -/

theorem State.core_setCore (s : State) (n m : Nat) (c : Core) : (s.setCore n c).core m = if m = n then c else s.core m :=
  FMap.get_set coreReset s.cores n m c
@[simp] theorem State.core_setCore_self (s : State) (n : Nat) (c : Core) : (s.setCore n c).core n = c :=
  FMap.get_set_self coreReset s.cores n c
@[simp] theorem State.core_modCore_self (s : State) (n : Nat) (f : Core → Core) : (s.modCore n f).core n = f (s.core n) :=
  FMap.get_set_self coreReset s.cores n _
theorem State.core_modCore (s : State) (n m : Nat) (f : Core → Core) :
    (s.modCore n f).core m = if m = n then f (s.core m) else s.core m := by
  unfold State.modCore
  rw [State.core_setCore]
  split
  · rename_i h; rw [h]
  · rfl
theorem State.seq_setSeq (s : State) (n m : Nat) (c : Seq) : (s.setSeq n c).seq m = if m = n then c else s.seq m :=
  FMap.get_set seqReset s.seqs n m c
@[simp] theorem State.seq_setSeq_self (s : State) (n : Nat) (c : Seq) : (s.setSeq n c).seq n = c :=
  FMap.get_set_self seqReset s.seqs n c
@[simp] theorem State.seq_modSeq_self (s : State) (n : Nat) (f : Seq → Seq) : (s.modSeq n f).seq n = f (s.seq n) :=
  FMap.get_set_self seqReset s.seqs n _
theorem State.seq_modSeq (s : State) (n m : Nat) (f : Seq → Seq) :
    (s.modSeq n f).seq m = if m = n then f (s.seq m) else s.seq m := by
  unfold State.modSeq
  rw [State.seq_setSeq]
  split
  · rename_i h; rw [h]
  · rfl
theorem State.creel_setCreel (s : State) (n m : Nat) (c : Creel) : (s.setCreel n c).creel m = if m = n then c else s.creel m :=
  FMap.get_set Sys2Proof.Machine.creelReset s.creels n m c
@[simp] theorem State.creel_modCreel_self (s : State) (n : Nat) (f : Creel → Creel) : (s.modCreel n f).creel n = f (s.creel n) :=
  FMap.get_set_self Sys2Proof.Machine.creelReset s.creels n _
theorem State.creel_modCreel (s : State) (n m : Nat) (f : Creel → Creel) :
    (s.modCreel n f).creel m = if m = n then f (s.creel m) else s.creel m := by
  unfold State.modCreel
  rw [State.creel_setCreel]
  split
  · rename_i h; rw [h]
  · rfl
theorem State.modCore_modCore (s : State) (n : Nat) (f g : Core → Core) : (s.modCore n f).modCore n g = s.modCore n fun c => g (f c) := by
  simp only [State.modCore, State.setCore, State.core, FMap.get_set_self, FMap.set_set]

/-! ## Only caches change -/

theorem CacheOnly.refl (s : State) : CacheOnly s s := ⟨rfl, fun _ => rfl, fun _ => rfl⟩
theorem CacheOnly.trans {s t u : State} (h : CacheOnly s t) (k : CacheOnly t u) : CacheOnly s u := by
  obtain ⟨h1, h2, h3⟩ := h
  obtain ⟨k1, k2, k3⟩ := k
  refine ⟨?_, fun i => ?_, fun c => ?_⟩
  · rw [h1] at k1; rw [k1]
  · rw [k2 i, h2 i]
  · rw [k3 c, h3 c]
theorem CacheOnly.cores {s t : State} (h : CacheOnly s t) : t.cores = s.cores := by rw [h.1]
theorem CacheOnly.core {s t : State} (h : CacheOnly s t) (n : Nat) : t.core n = s.core n := by simp only [State.core, h.cores]
theorem CacheOnly.mem {s t : State} (h : CacheOnly s t) : t.mem = s.mem := by rw [h.1]
theorem CacheOnly.free {s t : State} (h : CacheOnly s t) : t.free = s.free := by rw [h.1]
theorem CacheOnly.coreCreel {s t : State} (h : CacheOnly s t) : t.coreCreel = s.coreCreel := by rw [h.1]
theorem CacheOnly.creelOf {s t : State} (h : CacheOnly s t) (n : Nat) : t.creelOf n = s.creelOf n := by
  simp only [State.creelOf, h.coreCreel]
theorem CacheOnly.setTile (s : State) (n : Nat) (x : Tile) : CacheOnly s (s.setTile n x) := ⟨rfl, fun _ => rfl, fun _ => rfl⟩
theorem CacheOnly.setSlice (s : State) (n : Nat) (x : Slice) : CacheOnly s (s.setSlice n x) := ⟨rfl, fun _ => rfl, fun _ => rfl⟩
theorem CacheOnly.modSeqCache (s : State) (n : Nat) (f : Seq → FMap (List CLine)) :
    CacheOnly s (s.modSeq n fun q => { q with cache := f q }) := by
  refine ⟨rfl, fun i => ?_, fun _ => rfl⟩
  rw [State.seq_modSeq]
  split <;> rfl
theorem CacheOnly.ucAdd (s : State) (c off n : Nat) : CacheOnly s (s.ucAdd c off n) := by
  refine ⟨rfl, fun _ => rfl, fun i => ?_⟩
  unfold State.ucAdd
  rw [State.creel_modCreel]
  split <;> rfl
theorem CacheOnly.foldl {α : Type} (f : State → α → State) (hf : ∀ s a, CacheOnly s (f s a)) (l : List α) (s : State) :
    CacheOnly s (l.foldl f s) := by
  induction l generalizing s with
  | nil => exact CacheOnly.refl s
  | cons a r ih => exact (hf s a).trans (ih _)

theorem CacheOnly.setPriv (s : State) (ag line : Nat) (st : Moesi) : CacheOnly s (s.setPriv ag line st) := by
  unfold State.setPriv
  split
  · exact CacheOnly.setTile ..
  · exact CacheOnly.modSeqCache s _ fun q => q.cache.set (setSeqCache line) (setState (q.cache.get [] (setSeqCache line)) line st)
theorem CacheOnly.dropPriv (s : State) (ag line : Nat) : CacheOnly s (s.dropPriv ag line) := by
  unfold State.dropPriv
  split
  · exact CacheOnly.setTile ..
  · exact CacheOnly.modSeqCache s _ fun q => q.cache.set (setSeqCache line) (setDrop (q.cache.get [] (setSeqCache line)) line)
theorem CacheOnly.sliceFill (s : State) (line : Nat) (d : Bool) (cr : Option Nat) : CacheOnly s (s.sliceFill line d cr) := by
  simp only [State.sliceFill]
  repeat' split
  all_goals first | exact CacheOnly.setSlice .. | exact CacheOnly.refl s
theorem CacheOnly.sliceAlloc (s : State) (line : Nat) (d : Bool) (cr : Option Nat) : CacheOnly s (s.sliceAlloc line d cr) := by
  simp only [State.sliceAlloc]
  repeat' split
  · exact CacheOnly.sliceFill ..
  · exact (CacheOnly.sliceFill ..).trans (CacheOnly.ucAdd ..)
  · exact CacheOnly.sliceFill ..
theorem CacheOnly.sliceClean (s : State) (line : Nat) (k : Bool) : CacheOnly s (s.sliceClean line k) := CacheOnly.setSlice ..
theorem CacheOnly.setDir (s : State) (d : DirEntry) : CacheOnly s (s.setDir d) := CacheOnly.setSlice ..
theorem CacheOnly.dropDir (s : State) (line : Nat) : CacheOnly s (s.dropDir line) := CacheOnly.setSlice ..
theorem CacheOnly.dirLeave (s : State) (ag line : Nat) : CacheOnly s (s.dirLeave ag line) := by
  simp only [State.dirLeave]
  repeat' split
  all_goals first | exact CacheOnly.refl s | exact CacheOnly.dropDir .. | exact CacheOnly.setDir ..
theorem CacheOnly.writebackLine (s : State) (ag line : Nat) (cr : Option Nat) : CacheOnly s (s.writebackLine ag line cr) := by
  simp only [State.writebackLine]
  split
  · exact CacheOnly.refl s
  · refine ((CacheOnly.dropPriv s ag line).trans ?_).trans (CacheOnly.dirLeave ..)
    repeat' split
    · exact CacheOnly.sliceAlloc ..
    · exact CacheOnly.sliceAlloc ..
    · exact CacheOnly.refl _
theorem CacheOnly.invalidateAt (s : State) (wb : Bool) (ag line : Nat) : CacheOnly s (s.invalidateAt wb ag line) := by
  simp only [State.invalidateAt]
  split
  · exact CacheOnly.dirLeave ..
  · refine CacheOnly.trans ?_ ((CacheOnly.dropPriv ..).trans (CacheOnly.dirLeave ..))
    split
    · exact CacheOnly.sliceFill ..
    · exact CacheOnly.refl s
theorem CacheOnly.invalidateAll (s : State) (wb : Bool) (line : Nat) (e : Option Nat) : CacheOnly s (s.invalidateAll wb line e) := by
  simp only [State.invalidateAll]
  split
  · exact CacheOnly.refl s
  · exact CacheOnly.foldl _ (fun s a => CacheOnly.invalidateAt s wb a line) _ s
theorem CacheOnly.dirRoom (s : State) (line : Nat) : CacheOnly s (s.dirRoom line) := by
  simp only [State.dirRoom]
  repeat' split
  · exact CacheOnly.refl s
  · exact CacheOnly.refl s
  · exact (CacheOnly.invalidateAll ..).trans (CacheOnly.dropDir ..)
  · exact CacheOnly.refl s
theorem CacheOnly.fillPriv (s : State) (ag line : Nat) (st : Moesi) (f : Bool) (cr : Option Nat) :
    CacheOnly s (s.fillPriv ag line st f cr) := by
  simp only [State.fillPriv]
  split
  · refine CacheOnly.trans ?_ (CacheOnly.setTile ..)
    split
    · exact CacheOnly.writebackLine ..
    · exact CacheOnly.refl s
  · refine CacheOnly.trans ?_ (CacheOnly.modSeqCache _ _ fun q => q.cache.set _ _)
    split
    · exact CacheOnly.writebackLine ..
    · exact CacheOnly.refl s
theorem CacheOnly.sliceTouch (s : State) (line : Nat) : CacheOnly s (s.sliceTouch line) := by
  simp only [State.sliceTouch]
  split
  · exact CacheOnly.setSlice ..
  · exact CacheOnly.refl s
theorem CacheOnly.touchPriv (s : State) (ag line : Nat) (st : Moesi) (f : Bool) (cr : Option Nat) :
    CacheOnly s (s.touchPriv ag line st f cr) := by
  simp only [State.touchPriv]
  repeat' split
  all_goals first | exact CacheOnly.setTile .. | exact CacheOnly.fillPriv ..
theorem CacheOnly.victimRecall (s : State) (line : Nat) (cr : Option Nat) : CacheOnly s (s.victimRecall line cr).1 := by
  simp only [State.victimRecall]
  repeat' split
  · exact CacheOnly.setSlice ..
  · exact (CacheOnly.setSlice ..).trans (CacheOnly.sliceFill ..)
  · exact CacheOnly.refl s
theorem CacheOnly.homeData (s : State) (line : Nat) (al : Bool) (cr : Option Nat) : CacheOnly s (s.homeData line al cr).1 := by
  have h := CacheOnly.victimRecall s line cr
  simp only [State.homeData]
  repeat' split
  · exact CacheOnly.sliceTouch ..
  · exact h
  · exact h.trans (CacheOnly.sliceAlloc ..)
  · exact h
theorem CacheOnly.homeRead (s : State) (ag line : Nat) (cr : Option Nat) : CacheOnly s (s.homeRead ag line cr).1 := by
  have h := CacheOnly.homeData s line (ag < 224) cr
  simp only [State.homeRead]
  split
  · split
    · dsimp only
      split
      · exact (CacheOnly.setPriv ..).trans (CacheOnly.setDir ..)
      · exact (CacheOnly.setPriv ..).trans (CacheOnly.setDir ..)
      · exact CacheOnly.setDir ..
    · exact h.trans (CacheOnly.setDir ..)
  · exact (h.trans (CacheOnly.dirRoom ..)).trans (CacheOnly.setDir ..)
theorem CacheOnly.bridgeCount (s : State) (ag line : Nat) (cr : Option Nat) : CacheOnly s (s.bridgeCount ag line cr) := by
  simp only [State.bridgeCount]
  repeat' split
  · exact CacheOnly.ucAdd ..
  · exact CacheOnly.refl s
  · exact CacheOnly.refl s
theorem CacheOnly.readNow (s : State) (ag line : Nat) (f : Bool) (cr : Option Nat) : CacheOnly s (s.readNow ag line f cr).1 := by
  simp only [State.readNow]
  split
  · exact CacheOnly.touchPriv ..
  · exact ((CacheOnly.bridgeCount ..).trans (CacheOnly.homeRead ..)).trans (CacheOnly.fillPriv ..)
theorem CacheOnly.ownNow (s : State) (ag line : Nat) (cr : Option Nat) : CacheOnly s (s.ownNow ag line cr).1 := by
  simp only [State.ownNow]
  split
  · exact CacheOnly.touchPriv ..
  · exact CacheOnly.touchPriv ..
  · exact (((CacheOnly.bridgeCount ..).trans (CacheOnly.invalidateAll ..)).trans (CacheOnly.setDir ..)).trans (CacheOnly.touchPriv ..)
  · refine (((CacheOnly.trans ?_ (CacheOnly.dirRoom ..)).trans (CacheOnly.setDir ..)).trans (CacheOnly.fillPriv ..))
    refine ((CacheOnly.bridgeCount s ag line cr).trans (CacheOnly.invalidateAll _ false line none)).trans ?_
    split
    · exact CacheOnly.refl _
    · exact CacheOnly.homeData ..
theorem CacheOnly.arrive (s : State) (ag line : Nat) (f : Bool) (cr : Option Nat) : CacheOnly s (s.arrive ag line f cr) := by
  simp only [State.arrive]
  repeat' split
  all_goals first | exact CacheOnly.fillPriv .. | exact CacheOnly.refl s
theorem CacheOnly.serveWaiting (s : State) (line : Nat) : CacheOnly s (s.serveWaiting line) := by
  simp only [State.serveWaiting]
  split
  · exact CacheOnly.refl s
  · refine (CacheOnly.setSlice ..).trans (CacheOnly.foldl _ (fun s q => ?_) _ _)
    split
    · exact CacheOnly.ownNow ..
    · exact CacheOnly.readNow ..
theorem CacheOnly.settleLine (s : State) (line : Nat) : CacheOnly s (s.settleLine line) := by
  simp only [State.settleLine]
  split
  · exact CacheOnly.refl s
  · exact ((CacheOnly.setSlice ..).trans (CacheOnly.foldl _ (fun s (f : HomeFill) => CacheOnly.arrive s f.agent line false (s.agentCreel f.agent)) _ _)).trans
      (CacheOnly.serveWaiting ..)
/-- A read through the caches changes nothing but what caches hold. -/
theorem CacheOnly.cohRead (s : State) (ag line : Nat) (f : Bool) (cr : Option Nat) : CacheOnly s (s.cohRead ag line f cr).1 :=
  (CacheOnly.settleLine ..).trans (CacheOnly.readNow ..)
/-- Obtaining a line for writing changes nothing but what caches hold. -/
theorem CacheOnly.cohOwn (s : State) (ag line : Nat) (cr : Option Nat) : CacheOnly s (s.cohOwn ag line cr).1 :=
  (CacheOnly.settleLine ..).trans (CacheOnly.ownNow ..)
theorem CacheOnly.homeWrite (s : State) (line : Nat) : CacheOnly s (s.homeWrite line) := by
  simp only [State.homeWrite]
  refine ((CacheOnly.settleLine s line).trans (CacheOnly.invalidateAll _ true line none)).trans ?_
  repeat' split
  all_goals first
    | exact CacheOnly.sliceFill ..
    | exact CacheOnly.refl _
    | exact (CacheOnly.victimRecall ..).trans (CacheOnly.sliceFill ..)
    | exact CacheOnly.victimRecall ..
theorem CacheOnly.homeLook (s : State) (line : Nat) : CacheOnly s (s.homeLook line).1 := by
  simp only [State.homeLook]
  split
  · exact CacheOnly.settleLine ..
  · exact (CacheOnly.settleLine ..).trans (CacheOnly.homeData ..)
theorem CacheOnly.homeWriteRange (s : State) (a n : Nat) : CacheOnly s (s.homeWriteRange a n) :=
  CacheOnly.foldl _ CacheOnly.homeWrite _ s
theorem CacheOnly.cleanAt (s : State) (ag line : Nat) (d : Bool) (cr : Option Nat) : CacheOnly s (s.cleanAt ag line d cr) := by
  simp only [State.cleanAt]
  split
  · exact CacheOnly.refl s
  · split
    · exact CacheOnly.writebackLine ..
    · rename_i st _ _
      have h : CacheOnly s (if st.isDirty then s.sliceAlloc line true cr else s) := by
        split
        · exact CacheOnly.sliceAlloc ..
        · exact CacheOnly.refl s
      split
      · exact h.trans (CacheOnly.setPriv ..)
      · split
        · exact h.trans ((CacheOnly.setPriv ..).trans (CacheOnly.setDir ..))
        · exact h.trans (CacheOnly.setPriv ..)
      · exact h
theorem CacheOnly.cleanTile (s : State) (ag line : Nat) (d : Bool) (cr : Option Nat) : CacheOnly s (s.cleanTile ag line d cr) :=
  (CacheOnly.settleLine ..).trans (CacheOnly.cleanAt ..)
theorem CacheOnly.cleanAll (s : State) (line : Nat) (d : Bool) : CacheOnly s (s.cleanAll line d) := by
  simp only [State.cleanAll]
  refine (CacheOnly.trans (CacheOnly.trans (CacheOnly.settleLine s line) ?_) (CacheOnly.sliceClean _ line (!d))).trans (CacheOnly.setSlice ..)
  split
  · exact CacheOnly.refl _
  · exact CacheOnly.foldl _ (fun s a => CacheOnly.cleanAt s a line d (s.agentCreel a)) _ _

end Sys2Proof.Machine
end

