-- ==== Sys2Proof/Laws/Exec.lean ====
section
/-!
SUPPORT. The meaning of each command, one equation per constructor, and what a step is.
-/
namespace Sys2Proof.Machine

@[simp] theorem exec_add a q d s1 s2 s : exec (.add a q d s1 s2) s = execAdd a q d s1 s2 s := rfl
@[simp] theorem exec_sub a q d s1 s2 s : exec (.sub a q d s1 s2) s = execSub a q d s1 s2 s := rfl
@[simp] theorem exec_and a q d s1 s2 s : exec (.and a q d s1 s2) s = execAnd a q d s1 s2 s := rfl
@[simp] theorem exec_or a q d s1 s2 s : exec (.or a q d s1 s2) s = execOr a q d s1 s2 s := rfl
@[simp] theorem exec_xor a q d s1 s2 s : exec (.xor a q d s1 s2) s = execXor a q d s1 s2 s := rfl
@[simp] theorem exec_andn a q d s1 s2 s : exec (.andn a q d s1 s2) s = execAndn a q d s1 s2 s := rfl
@[simp] theorem exec_orn a q d s1 s2 s : exec (.orn a q d s1 s2) s = execOrn a q d s1 s2 s := rfl
@[simp] theorem exec_xnor a q d s1 s2 s : exec (.xnor a q d s1 s2) s = execXnor a q d s1 s2 s := rfl
@[simp] theorem exec_sll a q d s1 s2 s : exec (.sll a q d s1 s2) s = execSll a q d s1 s2 s := rfl
@[simp] theorem exec_srl a q d s1 s2 s : exec (.srl a q d s1 s2) s = execSrl a q d s1 s2 s := rfl
@[simp] theorem exec_sra a q d s1 s2 s : exec (.sra a q d s1 s2) s = execSra a q d s1 s2 s := rfl
@[simp] theorem exec_rol a q d s1 s2 s : exec (.rol a q d s1 s2) s = execRol a q d s1 s2 s := rfl
@[simp] theorem exec_ror a q d s1 s2 s : exec (.ror a q d s1 s2) s = execRor a q d s1 s2 s := rfl
@[simp] theorem exec_addw a q d s1 s2 s : exec (.addw a q d s1 s2) s = execAddw a q d s1 s2 s := rfl
@[simp] theorem exec_subw a q d s1 s2 s : exec (.subw a q d s1 s2) s = execSubw a q d s1 s2 s := rfl
@[simp] theorem exec_mul a q d s1 s2 s : exec (.mul a q d s1 s2) s = execMul a q d s1 s2 s := rfl
@[simp] theorem exec_mulhs a q d s1 s2 s : exec (.mulhs a q d s1 s2) s = execMulhs a q d s1 s2 s := rfl
@[simp] theorem exec_mulhu a q d s1 s2 s : exec (.mulhu a q d s1 s2) s = execMulhu a q d s1 s2 s := rfl
@[simp] theorem exec_div a q d s1 s2 s : exec (.div a q d s1 s2) s = execDiv a q d s1 s2 s := rfl
@[simp] theorem exec_divu a q d s1 s2 s : exec (.divu a q d s1 s2) s = execDivu a q d s1 s2 s := rfl
@[simp] theorem exec_rem a q d s1 s2 s : exec (.rem a q d s1 s2) s = execRem a q d s1 s2 s := rfl
@[simp] theorem exec_remu a q d s1 s2 s : exec (.remu a q d s1 s2) s = execRemu a q d s1 s2 s := rfl
@[simp] theorem exec_min a q d s1 s2 s : exec (.min a q d s1 s2) s = execMin a q d s1 s2 s := rfl
@[simp] theorem exec_max a q d s1 s2 s : exec (.max a q d s1 s2) s = execMax a q d s1 s2 s := rfl
@[simp] theorem exec_minu a q d s1 s2 s : exec (.minu a q d s1 s2) s = execMinu a q d s1 s2 s := rfl
@[simp] theorem exec_maxu a q d s1 s2 s : exec (.maxu a q d s1 s2) s = execMaxu a q d s1 s2 s := rfl
@[simp] theorem exec_clz a q d s1 s : exec (.clz a q d s1) s = execClz a q d s1 s := rfl
@[simp] theorem exec_ctz a q d s1 s : exec (.ctz a q d s1) s = execCtz a q d s1 s := rfl
@[simp] theorem exec_popc a q d s1 s : exec (.popc a q d s1) s = execPopc a q d s1 s := rfl
@[simp] theorem exec_bswap a q d s1 s : exec (.bswap a q d s1) s = execBswap a q d s1 s := rfl
@[simp] theorem exec_sextb a q d s1 s : exec (.sextb a q d s1) s = execSextb a q d s1 s := rfl
@[simp] theorem exec_sexth a q d s1 s : exec (.sexth a q d s1) s = execSexth a q d s1 s := rfl
@[simp] theorem exec_sextw a q d s1 s : exec (.sextw a q d s1) s = execSextw a q d s1 s := rfl
@[simp] theorem exec_zextb a q d s1 s : exec (.zextb a q d s1) s = execZextb a q d s1 s := rfl
@[simp] theorem exec_zexth a q d s1 s : exec (.zexth a q d s1) s = execZexth a q d s1 s := rfl
@[simp] theorem exec_zextw a q d s1 s : exec (.zextw a q d s1) s = execZextw a q d s1 s := rfl
@[simp] theorem exec_movpg a q d s : exec (.movpg a q d) s = execMovpg a q d s := rfl
@[simp] theorem exec_movgp a q s1 s : exec (.movgp a q s1) s = execMovgp a q s1 s := rfl
@[simp] theorem exec_addi a q d s1 imm s : exec (.addi a q d s1 imm) s = execAddi a q d s1 imm s := rfl
@[simp] theorem exec_andi a q d s1 imm s : exec (.andi a q d s1 imm) s = execAndi a q d s1 imm s := rfl
@[simp] theorem exec_ori a q d s1 imm s : exec (.ori a q d s1 imm) s = execOri a q d s1 imm s := rfl
@[simp] theorem exec_xori a q d s1 imm s : exec (.xori a q d s1 imm) s = execXori a q d s1 imm s := rfl
@[simp] theorem exec_slli a q d s1 n s : exec (.slli a q d s1 n) s = execSlli a q d s1 n s := rfl
@[simp] theorem exec_srli a q d s1 n s : exec (.srli a q d s1 n) s = execSrli a q d s1 n s := rfl
@[simp] theorem exec_srai a q d s1 n s : exec (.srai a q d s1 n) s = execSrai a q d s1 n s := rfl
@[simp] theorem exec_rori a q d s1 n s : exec (.rori a q d s1 n) s = execRori a q d s1 n s := rfl
@[simp] theorem exec_ldi a q d imm s : exec (.ldi a q d imm) s = execLdi a q d imm s := rfl
@[simp] theorem exec_shi a q d imm s : exec (.shi a q d imm) s = execShi a q d imm s := rfl
@[simp] theorem exec_cmpEq a q pt pf s1 s2 s : exec (.cmpEq a q pt pf s1 s2) s = execCmpEq a q pt pf s1 s2 s := rfl
@[simp] theorem exec_cmpNe a q pt pf s1 s2 s : exec (.cmpNe a q pt pf s1 s2) s = execCmpNe a q pt pf s1 s2 s := rfl
@[simp] theorem exec_cmpLt a q pt pf s1 s2 u s : exec (.cmpLt a q pt pf s1 s2 u) s = execCmpLt a q pt pf s1 s2 u s := rfl
@[simp] theorem exec_cmpGe a q pt pf s1 s2 u s : exec (.cmpGe a q pt pf s1 s2 u) s = execCmpGe a q pt pf s1 s2 u s := rfl
@[simp] theorem exec_cmpTst a q pt pf s1 s2 s : exec (.cmpTst a q pt pf s1 s2) s = execCmpTst a q pt pf s1 s2 s := rfl
@[simp] theorem exec_pand a q pt pf pa pb s : exec (.pand a q pt pf pa pb) s = execPand a q pt pf pa pb s := rfl
@[simp] theorem exec_por a q pt pf pa pb s : exec (.por a q pt pf pa pb) s = execPor a q pt pf pa pb s := rfl
@[simp] theorem exec_pxor a q pt pf pa pb s : exec (.pxor a q pt pf pa pb) s = execPxor a q pt pf pa pb s := rfl
@[simp] theorem exec_pandn a q pt pf pa pb s : exec (.pandn a q pt pf pa pb) s = execPandn a q pt pf pa pb s := rfl
@[simp] theorem exec_br a q disp s : exec (.br a q disp) s = execBr a q disp s := rfl
@[simp] theorem exec_call a q disp s : exec (.call a q disp) s = execCall a q disp s := rfl
@[simp] theorem exec_jmpr a q s1 s : exec (.jmpr a q s1) s = execJmpr a q s1 s := rfl
@[simp] theorem exec_callr a q s1 s : exec (.callr a q s1) s = execCallr a q s1 s := rfl
@[simp] theorem exec_ret a q s1 s : exec (.ret a q s1) s = execRet a q s1 s := rfl
@[simp] theorem exec_loop a q d n s : exec (.loop a q d n) s = execLoop a q d n s := rfl
@[simp] theorem exec_illegalInstruction a word s : exec (.illegalInstruction a word) s = execIllegalInstruction a word s := rfl
@[simp] theorem exec_ldb a q data base off mark s : exec (.ldb a q data base off mark) s = execLdb a q data base off mark s := rfl
@[simp] theorem exec_ldbu a q data base off mark s : exec (.ldbu a q data base off mark) s = execLdbu a q data base off mark s := rfl
@[simp] theorem exec_ldh a q data base off mark s : exec (.ldh a q data base off mark) s = execLdh a q data base off mark s := rfl
@[simp] theorem exec_ldhu a q data base off mark s : exec (.ldhu a q data base off mark) s = execLdhu a q data base off mark s := rfl
@[simp] theorem exec_ldw a q data base off mark s : exec (.ldw a q data base off mark) s = execLdw a q data base off mark s := rfl
@[simp] theorem exec_ldwu a q data base off mark s : exec (.ldwu a q data base off mark) s = execLdwu a q data base off mark s := rfl
@[simp] theorem exec_ldd a q data base off mark s : exec (.ldd a q data base off mark) s = execLdd a q data base off mark s := rfl
@[simp] theorem exec_stb a q data base off mark s : exec (.stb a q data base off mark) s = execStb a q data base off mark s := rfl
@[simp] theorem exec_sth a q data base off mark s : exec (.sth a q data base off mark) s = execSth a q data base off mark s := rfl
@[simp] theorem exec_stw a q data base off mark s : exec (.stw a q data base off mark) s = execStw a q data base off mark s := rfl
@[simp] theorem exec_std a q data base off mark s : exec (.std a q data base off mark) s = execStd a q data base off mark s := rfl
@[simp] theorem exec_ldp a q data base off mark s : exec (.ldp a q data base off mark) s = execLdp a q data base off mark s := rfl
@[simp] theorem exec_stp a q data base off mark s : exec (.stp a q data base off mark) s = execStp a q data base off mark s := rfl
@[simp] theorem exec_swap a q d s1 s2 mark s : exec (.swap a q d s1 s2 mark) s = execSwap a q d s1 s2 mark s := rfl
@[simp] theorem exec_atomicAdd a q d s1 s2 mark s : exec (.atomicAdd a q d s1 s2 mark) s = execAtomicAdd a q d s1 s2 mark s := rfl
@[simp] theorem exec_atomicAnd a q d s1 s2 mark s : exec (.atomicAnd a q d s1 s2 mark) s = execAtomicAnd a q d s1 s2 mark s := rfl
@[simp] theorem exec_atomicOr a q d s1 s2 mark s : exec (.atomicOr a q d s1 s2 mark) s = execAtomicOr a q d s1 s2 mark s := rfl
@[simp] theorem exec_atomicXor a q d s1 s2 mark s : exec (.atomicXor a q d s1 s2 mark) s = execAtomicXor a q d s1 s2 mark s := rfl
@[simp] theorem exec_atomicMin a q d s1 s2 mark s : exec (.atomicMin a q d s1 s2 mark) s = execAtomicMin a q d s1 s2 mark s := rfl
@[simp] theorem exec_atomicMax a q d s1 s2 mark s : exec (.atomicMax a q d s1 s2 mark) s = execAtomicMax a q d s1 s2 mark s := rfl
@[simp] theorem exec_atomicMinu a q d s1 s2 mark s : exec (.atomicMinu a q d s1 s2 mark) s = execAtomicMinu a q d s1 s2 mark s := rfl
@[simp] theorem exec_atomicMaxu a q d s1 s2 mark s : exec (.atomicMaxu a q d s1 s2 mark) s = execAtomicMaxu a q d s1 s2 mark s := rfl
@[simp] theorem exec_cas a q data base off mark s : exec (.cas a q data base off mark) s = execCas a q data base off mark s := rfl
@[simp] theorem exec_cas16 a q data base off mark s : exec (.cas16 a q data base off mark) s = execCas16 a q data base off mark s := rfl
@[simp] theorem exec_fence a q s : exec (.fence a q) s = execFence a q s := rfl
@[simp] theorem exec_fenceIo a q s : exec (.fenceIo a q) s = execFenceIo a q s := rfl
@[simp] theorem exec_fenceSt a q s : exec (.fenceSt a q) s = execFenceSt a q s := rfl
@[simp] theorem exec_fenceSpec a q s : exec (.fenceSpec a q) s = execFenceSpec a q s := rfl
@[simp] theorem exec_isync a q s : exec (.isync a q) s = execIsync a q s := rfl
@[simp] theorem exec_pbar a q s : exec (.pbar a q) s = execPbar a q s := rfl
@[simp] theorem exec_pflush a q s : exec (.pflush a q) s = execPflush a q s := rfl
@[simp] theorem exec_fadd a q f d s1 s2 s : exec (.fadd a q f d s1 s2) s = execFadd a q f d s1 s2 s := rfl
@[simp] theorem exec_fsub a q f d s1 s2 s : exec (.fsub a q f d s1 s2) s = execFsub a q f d s1 s2 s := rfl
@[simp] theorem exec_fmul a q f d s1 s2 s : exec (.fmul a q f d s1 s2) s = execFmul a q f d s1 s2 s := rfl
@[simp] theorem exec_fdiv a q f d s1 s2 s : exec (.fdiv a q f d s1 s2) s = execFdiv a q f d s1 s2 s := rfl
@[simp] theorem exec_fma a q f d s1 s2 s : exec (.fma a q f d s1 s2) s = execFma a q f d s1 s2 s := rfl
@[simp] theorem exec_fmin a q f d s1 s2 s : exec (.fmin a q f d s1 s2) s = execFmin a q f d s1 s2 s := rfl
@[simp] theorem exec_fmax a q f d s1 s2 s : exec (.fmax a q f d s1 s2) s = execFmax a q f d s1 s2 s := rfl
@[simp] theorem exec_fsqrt a q f d s1 s : exec (.fsqrt a q f d s1) s = execFsqrt a q f d s1 s := rfl
@[simp] theorem exec_fcmp a q f d s1 s2 s : exec (.fcmp a q f d s1 s2) s = execFcmp a q f d s1 s2 s := rfl
@[simp] theorem exec_fcvtDL a q f d s1 s : exec (.fcvtDL a q f d s1) s = execFcvtDL a q f d s1 s := rfl
@[simp] theorem exec_fcvtLD a q f d s1 s : exec (.fcvtLD a q f d s1) s = execFcvtLD a q f d s1 s := rfl
@[simp] theorem exec_fcvtDS a q d s1 s : exec (.fcvtDS a q d s1) s = execFcvtDS a q d s1 s := rfl
@[simp] theorem exec_fcvtSD a q d s1 s : exec (.fcvtSD a q d s1) s = execFcvtSD a q d s1 s := rfl
@[simp] theorem exec_fclass a q f d s1 s : exec (.fclass a q f d s1) s = execFclass a q f d s1 s := rfl
@[simp] theorem exec_dadd a q f d s1 s2 s : exec (.dadd a q f d s1 s2) s = execDadd a q f d s1 s2 s := rfl
@[simp] theorem exec_dsub a q f d s1 s2 s : exec (.dsub a q f d s1 s2) s = execDsub a q f d s1 s2 s := rfl
@[simp] theorem exec_dmul a q f d s1 s2 s : exec (.dmul a q f d s1 s2) s = execDmul a q f d s1 s2 s := rfl
@[simp] theorem exec_ddiv a q f d s1 s2 s : exec (.ddiv a q f d s1 s2) s = execDdiv a q f d s1 s2 s := rfl
@[simp] theorem exec_dqua a q f d s1 s2 s : exec (.dqua a q f d s1 s2) s = execDqua a q f d s1 s2 s := rfl
@[simp] theorem exec_drint a q f d s1 s : exec (.drint a q f d s1) s = execDrint a q f d s1 s := rfl
@[simp] theorem exec_dcmp a q f d s1 s2 s : exec (.dcmp a q f d s1 s2) s = execDcmp a q f d s1 s2 s := rfl
@[simp] theorem exec_dfromi a q f d s1 s : exec (.dfromi a q f d s1) s = execDfromi a q f d s1 s := rfl
@[simp] theorem exec_dtoi a q f d s1 s : exec (.dtoi a q f d s1) s = execDtoi a q f d s1 s := rfl
@[simp] theorem exec_dgetexp a q f d s1 s : exec (.dgetexp a q f d s1) s = execDgetexp a q f d s1 s := rfl
@[simp] theorem exec_dwiden a q d s1 s : exec (.dwiden a q d s1) s = execDwiden a q d s1 s := rfl
@[simp] theorem exec_dnarrow a q d s1 s : exec (.dnarrow a q d s1) s = execDnarrow a q d s1 s := rfl
@[simp] theorem exec_vadd a q e d s1 s2 s : exec (.vadd a q e d s1 s2) s = execVadd a q e d s1 s2 s := rfl
@[simp] theorem exec_vsub a q e d s1 s2 s : exec (.vsub a q e d s1 s2) s = execVsub a q e d s1 s2 s := rfl
@[simp] theorem exec_vmul a q e d s1 s2 s : exec (.vmul a q e d s1 s2) s = execVmul a q e d s1 s2 s := rfl
@[simp] theorem exec_vmin a q e d s1 s2 s : exec (.vmin a q e d s1 s2) s = execVmin a q e d s1 s2 s := rfl
@[simp] theorem exec_vmax a q e d s1 s2 s : exec (.vmax a q e d s1 s2) s = execVmax a q e d s1 s2 s := rfl
@[simp] theorem exec_vminu a q e d s1 s2 s : exec (.vminu a q e d s1 s2) s = execVminu a q e d s1 s2 s := rfl
@[simp] theorem exec_vmaxu a q e d s1 s2 s : exec (.vmaxu a q e d s1 s2) s = execVmaxu a q e d s1 s2 s := rfl
@[simp] theorem exec_vcmpeq a q e d s1 s2 s : exec (.vcmpeq a q e d s1 s2) s = execVcmpeq a q e d s1 s2 s := rfl
@[simp] theorem exec_vand a q d s1 s2 s : exec (.vand a q d s1 s2) s = execVand a q d s1 s2 s := rfl
@[simp] theorem exec_vor a q d s1 s2 s : exec (.vor a q d s1 s2) s = execVor a q d s1 s2 s := rfl
@[simp] theorem exec_vxor a q d s1 s2 s : exec (.vxor a q d s1 s2) s = execVxor a q d s1 s2 s := rfl
@[simp] theorem exec_vandn a q d s1 s2 s : exec (.vandn a q d s1 s2) s = execVandn a q d s1 s2 s := rfl
@[simp] theorem exec_vsel a q d s1 s2 s : exec (.vsel a q d s1 s2) s = execVsel a q d s1 s2 s := rfl
@[simp] theorem exec_vbcast a q d s1 s : exec (.vbcast a q d s1) s = execVbcast a q d s1 s := rfl
@[simp] theorem exec_vins a q d s1 lane s : exec (.vins a q d s1 lane) s = execVins a q d s1 lane s := rfl
@[simp] theorem exec_vext a q d s1 lane s : exec (.vext a q d s1 lane) s = execVext a q d s1 lane s := rfl
@[simp] theorem exec_vslli a q e d s1 n s : exec (.vslli a q e d s1 n) s = execVslli a q e d s1 n s := rfl
@[simp] theorem exec_vsrli a q e d s1 n s : exec (.vsrli a q e d s1 n) s = execVsrli a q e d s1 n s := rfl
@[simp] theorem exec_vsrai a q e d s1 n s : exec (.vsrai a q e d s1 n) s = execVsrai a q e d s1 n s := rfl
@[simp] theorem exec_vpermB a q d s1 s2 s : exec (.vpermB a q d s1 s2) s = execVpermB a q d s1 s2 s := rfl
@[simp] theorem exec_vredaddD a q d s1 s : exec (.vredaddD a q d s1) s = execVredaddD a q d s1 s := rfl
@[simp] theorem exec_vcmpgtD a q d s1 s2 s : exec (.vcmpgtD a q d s1 s2) s = execVcmpgtD a q d s1 s2 s := rfl
@[simp] theorem exec_vld a q d s1 s2 s : exec (.vld a q d s1 s2) s = execVld a q d s1 s2 s := rfl
@[simp] theorem exec_vst a q d s1 s2 s : exec (.vst a q d s1 s2) s = execVst a q d s1 s2 s := rfl
@[simp] theorem exec_vfadd a q f d s1 s2 s : exec (.vfadd a q f d s1 s2) s = execVfadd a q f d s1 s2 s := rfl
@[simp] theorem exec_vfsub a q f d s1 s2 s : exec (.vfsub a q f d s1 s2) s = execVfsub a q f d s1 s2 s := rfl
@[simp] theorem exec_vfmul a q f d s1 s2 s : exec (.vfmul a q f d s1 s2) s = execVfmul a q f d s1 s2 s := rfl
@[simp] theorem exec_vfdiv a q f d s1 s2 s : exec (.vfdiv a q f d s1 s2) s = execVfdiv a q f d s1 s2 s := rfl
@[simp] theorem exec_vfma a q f d s1 s2 s : exec (.vfma a q f d s1 s2) s = execVfma a q f d s1 s2 s := rfl
@[simp] theorem exec_vfmin a q f d s1 s2 s : exec (.vfmin a q f d s1 s2) s = execVfmin a q f d s1 s2 s := rfl
@[simp] theorem exec_vfmax a q f d s1 s2 s : exec (.vfmax a q f d s1 s2) s = execVfmax a q f d s1 s2 s := rfl
@[simp] theorem exec_vfcmplt a q f d s1 s2 s : exec (.vfcmplt a q f d s1 s2) s = execVfcmplt a q f d s1 s2 s := rfl
@[simp] theorem exec_vcvtSW a q d s1 s : exec (.vcvtSW a q d s1) s = execVcvtSW a q d s1 s := rfl
@[simp] theorem exec_vcvtWS a q d s1 s : exec (.vcvtWS a q d s1) s = execVcvtWS a q d s1 s := rfl
@[simp] theorem exec_vcvtDL a q d s1 s : exec (.vcvtDL a q d s1) s = execVcvtDL a q d s1 s := rfl
@[simp] theorem exec_vcvtLD a q d s1 s : exec (.vcvtLD a q d s1) s = execVcvtLD a q d s1 s := rfl
@[simp] theorem exec_aese a q d s1 s2 s : exec (.aese a q d s1 s2) s = execAese a q d s1 s2 s := rfl
@[simp] theorem exec_aesel a q d s1 s2 s : exec (.aesel a q d s1 s2) s = execAesel a q d s1 s2 s := rfl
@[simp] theorem exec_aesd a q d s1 s2 s : exec (.aesd a q d s1 s2) s = execAesd a q d s1 s2 s := rfl
@[simp] theorem exec_aesdl a q d s1 s2 s : exec (.aesdl a q d s1 s2) s = execAesdl a q d s1 s2 s := rfl
@[simp] theorem exec_aesimc a q d s1 s : exec (.aesimc a q d s1) s = execAesimc a q d s1 s := rfl
@[simp] theorem exec_clmul a q d s1 s2 s : exec (.clmul a q d s1 s2) s = execClmul a q d s1 s2 s := rfl
@[simp] theorem exec_clmulh a q d s1 s2 s : exec (.clmulh a q d s1 s2) s = execClmulh a q d s1 s2 s := rfl
@[simp] theorem exec_sha256ms0 a q d s1 s2 s : exec (.sha256ms0 a q d s1 s2) s = execSha256ms0 a q d s1 s2 s := rfl
@[simp] theorem exec_sha256ms1 a q d s1 s2 s : exec (.sha256ms1 a q d s1 s2) s = execSha256ms1 a q d s1 s2 s := rfl
@[simp] theorem exec_sha512ms0 a q d s1 s2 s : exec (.sha512ms0 a q d s1 s2) s = execSha512ms0 a q d s1 s2 s := rfl
@[simp] theorem exec_sha512ms1 a q d s1 s2 s : exec (.sha512ms1 a q d s1 s2) s = execSha512ms1 a q d s1 s2 s := rfl
@[simp] theorem exec_rdsys a q d n s : exec (.rdsys a q d n) s = execRdsys a q d n s := rfl
@[simp] theorem exec_wrsys a q s1 n s : exec (.wrsys a q s1 n) s = execWrsys a q s1 n s := rfl
@[simp] theorem exec_syscall a q s : exec (.syscall a q) s = execSyscall a q s := rfl
@[simp] theorem exec_break a q s : exec (.break_ a q) s = execBreak a q s := rfl
@[simp] theorem exec_eret a q s : exec (.eret a q) s = execEret a q s := rfl
@[simp] theorem exec_wait a q s : exec (.wait a q) s = execWait a q s := rfl
@[simp] theorem exec_wrpkey a q s1 s : exec (.wrpkey a q s1) s = execWrpkey a q s1 s := rfl
@[simp] theorem exec_rdpkey a q d s : exec (.rdpkey a q d) s = execRdpkey a q d s := rfl
@[simp] theorem exec_rdhoop a q d s : exec (.rdhoop a q d) s = execRdhoop a q d s := rfl
@[simp] theorem exec_rdbeat a q d s : exec (.rdbeat a q d) s = execRdbeat a q d s := rfl
@[simp] theorem exec_tlbinvAll a q s : exec (.tlbinvAll a q) s = execTlbinvAll a q s := rfl
@[simp] theorem exec_tlbinvAsid a q s1 s : exec (.tlbinvAsid a q s1) s = execTlbinvAsid a q s1 s := rfl
@[simp] theorem exec_tlbinvVa a q s1 s2 s : exec (.tlbinvVa a q s1 s2) s = execTlbinvVa a q s1 s2 s := rfl
@[simp] theorem exec_tlbinvVaall a q s1 s : exec (.tlbinvVaall a q s1) s = execTlbinvVaall a q s1 s := rfl
@[simp] theorem exec_cleanP a q s1 s : exec (.cleanP a q s1) s = execCleanP a q s1 s := rfl
@[simp] theorem exec_cleanD a q s1 s : exec (.cleanD a q s1) s = execCleanD a q s1 s := rfl
@[simp] theorem exec_flushP a q s1 s : exec (.flushP a q s1) s = execFlushP a q s1 s := rfl
@[simp] theorem exec_flushD a q s1 s : exec (.flushD a q s1) s = execFlushD a q s1 s := rfl
@[simp] theorem exec_interruptEntry n s : exec (.interruptEntry n) s = execInterruptEntry n s := rfl
@[simp] theorem exec_storeDrain n s : exec (.storeDrain n) s = execStoreDrain n s := rfl
@[simp] theorem exec_parkedLoad n s : exec (.parkedLoad n) s = execParkedLoad n s := rfl
@[simp] theorem exec_memoryOrderReplay n loadAddr s : exec (.memoryOrderReplay n loadAddr) s = execMemoryOrderReplay n loadAddr s := rfl
@[simp] theorem exec_cacheFill ag line fetch wrongPath err s : exec (.cacheFill ag line fetch wrongPath err) s = execCacheFill ag line fetch wrongPath err s := rfl
@[simp] theorem exec_tableWalk n va kind wrongPath s : exec (.tableWalk n va kind wrongPath) s = execTableWalk n va kind wrongPath s := rfl
@[simp] theorem exec_sequencerMissFill a s : exec (.sequencerMissFill a) s = execSequencerMissFill a s := rfl
@[simp] theorem exec_longLatencyCompletion a s : exec (.longLatencyCompletion a) s = execLongLatencyCompletion a s := rfl
@[simp] theorem exec_seqModeInForce a s : exec (.seqModeInForce a) s = execSeqModeInForce a s := rfl
@[simp] theorem exec_read ag line err s : exec (.read ag line err) s = execRead ag line err s := rfl
@[simp] theorem exec_readForOwnership ag line s : exec (.readForOwnership ag line) s = execReadForOwnership ag line s := rfl
@[simp] theorem exec_upgrade ag line s : exec (.upgrade ag line) s = execUpgrade ag line s := rfl
@[simp] theorem exec_writeback ag line s : exec (.writeback ag line) s = execWriteback ag line s := rfl
@[simp] theorem exec_forwardedRead ag line s : exec (.forwardedRead ag line) s = execForwardedRead ag line s := rfl
@[simp] theorem exec_invalidation ag line s : exec (.invalidation ag line) s = execInvalidation ag line s := rfl
@[simp] theorem exec_victimWritebackAck slice line s : exec (.victimWritebackAck slice line) s = execVictimWritebackAck slice line s := rfl
@[simp] theorem exec_wayRetirement slice way s : exec (.wayRetirement slice way) s = execWayRetirement slice way s := rfl
@[simp] theorem exec_wayCleaningCompletion slice s : exec (.wayCleaningCompletion slice) s = execWayCleaningCompletion slice s := rfl
@[simp] theorem exec_wireGroupFailure base bridge s : exec (.wireGroupFailure base bridge) s = execWireGroupFailure base bridge s := rfl
@[simp] theorem exec_channelRead ch line port out latencyNs yielded sameRow s : exec (.channelRead ch line port out latencyNs yielded sameRow) s = execChannelRead ch line port out latencyNs yielded sameRow s := rfl
@[simp] theorem exec_channelWrite ch line port sameRow s : exec (.channelWrite ch line port sameRow) s = execChannelWrite ch line port sameRow s := rfl
@[simp] theorem exec_rowActivation ch bank row port s : exec (.rowActivation ch bank row port) s = execRowActivation ch bank row port s := rfl
@[simp] theorem exec_refreshWindowEnd ch s : exec (.refreshWindowEnd ch) s = execRefreshWindowEnd ch s := rfl
@[simp] theorem exec_scrub ch out s : exec (.scrub ch out) s = execScrub ch out s := rfl
@[simp] theorem exec_rowRepair ch bank row soft outs s : exec (.rowRepair ch bank row soft outs) s = execRowRepair ch bank row soft outs s := rfl
@[simp] theorem exec_rankCopyCompletion ch s : exec (.rankCopyCompletion ch) s = execRankCopyCompletion ch s := rfl
@[simp] theorem exec_retraining ch rank begins passes temp fallbackFails s : exec (.retraining ch rank begins passes temp fallbackFails) s = execRetraining ch rank begins passes temp fallbackFails s := rfl
@[simp] theorem exec_speedChangeDeferralExpiry s : exec .speedChangeDeferralExpiry s = execSpeedChangeDeferralExpiry s := rfl
@[simp] theorem exec_throughputInterval ch port waiting belowShare s : exec (.throughputInterval ch port waiting belowShare) s = execThroughputInterval ch port waiting belowShare s := rfl
@[simp] theorem exec_mbxDoorbell p v slots s : exec (.mbxDoorbell p v slots) s = execMbxDoorbell p v slots s := rfl
@[simp] theorem exec_mbxCqCons p v s : exec (.mbxCqCons p v) s = execMbxCqCons p v s := rfl
@[simp] theorem exec_commandAcceptance s : exec .commandAcceptance s = execCommandAcceptance s := rfl
@[simp] theorem exec_mailboxCompletion p s : exec (.mailboxCompletion p) s = execMailboxCompletion p s := rfl
@[simp] theorem exec_portSuspension p s : exec (.portSuspension p) s = execPortSuspension p s := rfl
@[simp] theorem exec_portSuspensionEnd p s : exec (.portSuspensionEnd p) s = execPortSuspensionEnd p s := rfl
@[simp] theorem exec_officerSessionOpen c0 c1 good0 good1 s : exec (.officerSessionOpen c0 c1 good0 good1) s = execOfficerSessionOpen c0 c1 good0 good1 s := rfl
@[simp] theorem exec_officerSessionEnd removed s : exec (.officerSessionEnd removed) s = execOfficerSessionEnd removed s := rfl
@[simp] theorem exec_challengeLockoutEnd s : exec .challengeLockoutEnd s = execChallengeLockoutEnd s := rfl
@[simp] theorem exec_cardPoll card obj good s : exec (.cardPoll card obj good) s = execCardPoll card obj good s := rfl
@[simp] theorem exec_approvalExpiry s : exec .approvalExpiry s = execApprovalExpiry s := rfl
@[simp] theorem exec_auditorSessionOpen key s : exec (.auditorSessionOpen key) s = execAuditorSessionOpen key s := rfl
@[simp] theorem exec_auditorMessage a m s : exec (.auditorMessage a m) s = execAuditorMessage a m s := rfl
@[simp] theorem exec_auditorSessionEnd a closed s : exec (.auditorSessionEnd a closed) s = execAuditorSessionEnd a closed s := rfl
@[simp] theorem exec_echo p k s : exec (.echo p k) s = execEcho p k s := rfl
@[simp] theorem exec_deviceStatus p k s : exec (.deviceStatus p k) s = execDeviceStatus p k s := rfl
@[simp] theorem exec_logRead p k s : exec (.logRead p k) s = execLogRead p k s := rfl
@[simp] theorem exec_sensorRead p k s : exec (.sensorRead p k) s = execSensorRead p k s := rfl
@[simp] theorem exec_takeOwnership p k flashFault s : exec (.takeOwnership p k flashFault) s = execTakeOwnership p k flashFault s := rfl
@[simp] theorem exec_ceremonyOpen p k s : exec (.ceremonyOpen p k) s = execCeremonyOpen p k s := rfl
@[simp] theorem exec_ceremonyClose p k flashFault s : exec (.ceremonyClose p k flashFault) s = execCeremonyClose p k flashFault s := rfl
@[simp] theorem exec_ownerLock p k s : exec (.ownerLock p k) s = execOwnerLock p k s := rfl
@[simp] theorem exec_ownerUnlock p k s : exec (.ownerUnlock p k) s = execOwnerUnlock p k s := rfl
@[simp] theorem exec_retire p k s : exec (.retire p k) s = execRetire p k s := rfl
@[simp] theorem exec_officerEnroll p k cert s : exec (.officerEnroll p k cert) s = execOfficerEnroll p k cert s := rfl
@[simp] theorem exec_patWrite p k s : exec (.patWrite p k) s = execPatWrite p k s := rfl
@[simp] theorem exec_patRead p k s : exec (.patRead p k) s = execPatRead p k s := rfl
@[simp] theorem exec_debugUnlock p k s : exec (.debugUnlock p k) s = execDebugUnlock p k s := rfl
@[simp] theorem exec_credSet p k s : exec (.credSet p k) s = execCredSet p k s := rfl
@[simp] theorem exec_creelAssign p k s : exec (.creelAssign p k) s = execCreelAssign p k s := rfl
@[simp] theorem exec_grantSet p k s : exec (.grantSet p k) s = execGrantSet p k s := rfl
@[simp] theorem exec_creelRelease p k s : exec (.creelRelease p k) s = execCreelRelease p k s := rfl
@[simp] theorem exec_creelQuota p k s : exec (.creelQuota p k) s = execCreelQuota p k s := rfl
@[simp] theorem exec_waySet p k s : exec (.waySet p k) s = execWaySet p k s := rfl
@[simp] theorem exec_qosSet p k s : exec (.qosSet p k) s = execQosSet p k s := rfl
@[simp] theorem exec_creelStart p k s : exec (.creelStart p k) s = execCreelStart p k s := rfl
@[simp] theorem exec_creelStop p k s : exec (.creelStop p k) s = execCreelStop p k s := rfl
@[simp] theorem exec_creelReset p k s : exec (.creelReset p k) s = execCreelReset p k s := rfl
@[simp] theorem exec_segmentSet p k s : exec (.segmentSet p k) s = execSegmentSet p k s := rfl
@[simp] theorem exec_segmentRead p k s : exec (.segmentRead p k) s = execSegmentRead p k s := rfl
@[simp] theorem exec_resourceAlloc p k s : exec (.resourceAlloc p k) s = execResourceAlloc p k s := rfl
@[simp] theorem exec_resourceFree p k s : exec (.resourceFree p k) s = execResourceFree p k s := rfl
@[simp] theorem exec_coreGate p k s : exec (.coreGate p k) s = execCoreGate p k s := rfl
@[simp] theorem exec_coreWake p k s : exec (.coreWake p k) s = execCoreWake p k s := rfl
@[simp] theorem exec_breachReset p k s : exec (.breachReset p k) s = execBreachReset p k s := rfl
@[simp] theorem exec_memStatus p k s : exec (.memStatus p k) s = execMemStatus p k s := rfl
@[simp] theorem exec_memSpeed p k s : exec (.memSpeed p k) s = execMemSpeed p k s := rfl
@[simp] theorem exec_rankCopy p k s : exec (.rankCopy p k) s = execRankCopy p k s := rfl
@[simp] theorem exec_addrDecode p k s : exec (.addrDecode p k) s = execAddrDecode p k s := rfl
@[simp] theorem exec_scrubPeriod p k s : exec (.scrubPeriod p k) s = execScrubPeriod p k s := rfl
@[simp] theorem exec_disturbSet p k s : exec (.disturbSet p k) s = execDisturbSet p k s := rfl
@[simp] theorem exec_wayPower p k s : exec (.wayPower p k) s = execWayPower p k s := rfl
@[simp] theorem exec_qosCounterReset p k s : exec (.qosCounterReset p k) s = execQosCounterReset p k s := rfl
@[simp] theorem exec_reserveReport p k s : exec (.reserveReport p k) s = execReserveReport p k s := rfl
@[simp] theorem exec_coreMap p k s : exec (.coreMap p k) s = execCoreMap p k s := rfl
@[simp] theorem exec_measureRead p k s : exec (.measureRead p k) s = execMeasureRead p k s := rfl
@[simp] theorem exec_hoopStatus p k s : exec (.hoopStatus p k) s = execHoopStatus p k s := rfl
@[simp] theorem exec_hoopSources p k s : exec (.hoopSources p k) s = execHoopSources p k s := rfl
@[simp] theorem exec_hoopPtp p k s : exec (.hoopPtp p k) s = execHoopPtp p k s := rfl
@[simp] theorem exec_hoopCal p k s : exec (.hoopCal p k) s = execHoopCal p k s := rfl
@[simp] theorem exec_hoopSeconds p k s : exec (.hoopSeconds p k) s = execHoopSeconds p k s := rfl
@[simp] theorem exec_hoopStep p k s : exec (.hoopStep p k) s = execHoopStep p k s := rfl
@[simp] theorem exec_pairBegin p k serial verified shared storage gens s : exec (.pairBegin p k serial verified shared storage gens) s = execPairBegin p k serial verified shared storage gens s := rfl
@[simp] theorem exec_pairStatus p k s : exec (.pairStatus p k) s = execPairStatus p k s := rfl
@[simp] theorem exec_pairPolicy p k s : exec (.pairPolicy p k) s = execPairPolicy p k s := rfl
@[simp] theorem exec_pairRegion p k partnerOk s : exec (.pairRegion p k partnerOk) s = execPairRegion p k partnerOk s := rfl
@[simp] theorem exec_pairRole p k s : exec (.pairRole p k) s = execPairRole p k s := rfl
@[simp] theorem exec_pairWitness p k s : exec (.pairWitness p k) s = execPairWitness p k s := rfl
@[simp] theorem exec_pairDissolve p k s : exec (.pairDissolve p k) s = execPairDissolve p k s := rfl
@[simp] theorem exec_updateStage p k s : exec (.updateStage p k) s = execUpdateStage p k s := rfl
@[simp] theorem exec_activate p k s : exec (.activate p k) s = execActivate p k s := rfl
@[simp] theorem exec_updateConfirm p k s : exec (.updateConfirm p k) s = execUpdateConfirm p k s := rfl
@[simp] theorem exec_updateReject p k s : exec (.updateReject p k) s = execUpdateReject p k s := rfl
@[simp] theorem exec_updateStatus p k s : exec (.updateStatus p k) s = execUpdateStatus p k s := rfl
@[simp] theorem exec_configSave p k flashFault s : exec (.configSave p k flashFault) s = execConfigSave p k flashFault s := rfl
@[simp] theorem exec_configRead p k s : exec (.configRead p k) s = execConfigRead p k s := rfl
@[simp] theorem exec_creelBootSet p k s : exec (.creelBootSet p k) s = execCreelBootSet p k s := rfl
@[simp] theorem exec_deviceConfig p k s : exec (.deviceConfig p k) s = execDeviceConfig p k s := rfl
@[simp] theorem exec_updateWindow p k s : exec (.updateWindow p k) s = execUpdateWindow p k s := rfl
@[simp] theorem exec_warmReset p k s : exec (.warmReset p k) s = execWarmReset p k s := rfl
@[simp] theorem exec_hrDoorbell r v s : exec (.hrDoorbell r v) s = execHrDoorbell r v s := rfl
@[simp] theorem exec_hrCtrl r v s : exec (.hrCtrl r v) s = execHrCtrl r v s := rfl
@[simp] theorem exec_hrCqCons r v s : exec (.hrCqCons r v) s = execHrCqCons r v s := rfl
@[simp] theorem exec_descriptorTake r s : exec (.descriptorTake r) s = execDescriptorTake r s := rfl
@[simp] theorem exec_hamperCompletion id s : exec (.hamperCompletion id) s = execHamperCompletion id s := rfl
@[simp] theorem exec_keyGen id consistent s : exec (.keyGen id consistent) s = execKeyGen id consistent s := rfl
@[simp] theorem exec_keyImport id s : exec (.keyImport id) s = execKeyImport id s := rfl
@[simp] theorem exec_keyExport id s : exec (.keyExport id) s = execKeyExport id s := rfl
@[simp] theorem exec_keyStore id s : exec (.keyStore id) s = execKeyStore id s := rfl
@[simp] theorem exec_keyLoad id s : exec (.keyLoad id) s = execKeyLoad id s := rfl
@[simp] theorem exec_keyInfo id s : exec (.keyInfo id) s = execKeyInfo id s := rfl
@[simp] theorem exec_keyModify id s : exec (.keyModify id) s = execKeyModify id s := rfl
@[simp] theorem exec_keyDestroy id s : exec (.keyDestroy id) s = execKeyDestroy id s := rfl
@[simp] theorem exec_keyPublic id s : exec (.keyPublic id) s = execKeyPublic id s := rfl
@[simp] theorem exec_keyImportPublic id s : exec (.keyImportPublic id) s = execKeyImportPublic id s := rfl
@[simp] theorem exec_keyCombine id s : exec (.keyCombine id) s = execKeyCombine id s := rfl
@[simp] theorem exec_sessionOpen id s : exec (.sessionOpen id) s = execSessionOpen id s := rfl
@[simp] theorem exec_sessionBind id s : exec (.sessionBind id) s = execSessionBind id s := rfl
@[simp] theorem exec_sessionClose id s : exec (.sessionClose id) s = execSessionClose id s := rfl
@[simp] theorem exec_sessionInfo id s : exec (.sessionInfo id) s = execSessionInfo id s := rfl
@[simp] theorem exec_sessionExpiry n s : exec (.sessionExpiry n) s = execSessionExpiry n s := rfl
@[simp] theorem exec_symEcb id s : exec (.symEcb id) s = execSymEcb id s := rfl
@[simp] theorem exec_symCbc id s : exec (.symCbc id) s = execSymCbc id s := rfl
@[simp] theorem exec_symCtr id s : exec (.symCtr id) s = execSymCtr id s := rfl
@[simp] theorem exec_symGcm id s : exec (.symGcm id) s = execSymGcm id s := rfl
@[simp] theorem exec_symXts id s : exec (.symXts id) s = execSymXts id s := rfl
@[simp] theorem exec_symCmac id s : exec (.symCmac id) s = execSymCmac id s := rfl
@[simp] theorem exec_pinTranslate id s : exec (.pinTranslate id) s = execPinTranslate id s := rfl
@[simp] theorem exec_pinVerify id s : exec (.pinVerify id) s = execPinVerify id s := rfl
@[simp] theorem exec_emvArqcVerify id s : exec (.emvArqcVerify id) s = execEmvArqcVerify id s := rfl
@[simp] theorem exec_emvArpc id s : exec (.emvArpc id) s = execEmvArpc id s := rfl
@[simp] theorem exec_arqcEntryExpiry cr s : exec (.arqcEntryExpiry cr) s = execArqcEntryExpiry cr s := rfl
@[simp] theorem exec_cvcGenerate id s : exec (.cvcGenerate id) s = execCvcGenerate id s := rfl
@[simp] theorem exec_cvcVerify id s : exec (.cvcVerify id) s = execCvcVerify id s := rfl
@[simp] theorem exec_ff1Tokenise id s : exec (.ff1Tokenise id) s = execFf1Tokenise id s := rfl
@[simp] theorem exec_ff1Detokenise id s : exec (.ff1Detokenise id) s = execFf1Detokenise id s := rfl
@[simp] theorem exec_sign id s : exec (.sign id) s = execSign id s := rfl
@[simp] theorem exec_verify id s : exec (.verify id) s = execVerify id s := rfl
@[simp] theorem exec_kemEncap id s : exec (.kemEncap id) s = execKemEncap id s := rfl
@[simp] theorem exec_kemDecap id s : exec (.kemDecap id) s = execKemDecap id s := rfl
@[simp] theorem exec_hash id s : exec (.hash id) s = execHash id s := rfl
@[simp] theorem exec_hmac id s : exec (.hmac id) s = execHmac id s := rfl
@[simp] theorem exec_rand id s : exec (.rand id) s = execRand id s := rfl
@[simp] theorem exec_auditSetup id s : exec (.auditSetup id) s = execAuditSetup id s := rfl
@[simp] theorem exec_auditConsumed id s : exec (.auditConsumed id) s = execAuditConsumed id s := rfl
@[simp] theorem exec_auditCheckpoint id s : exec (.auditCheckpoint id) s = execAuditCheckpoint id s := rfl
@[simp] theorem exec_auditHead id s : exec (.auditHead id) s = execAuditHead id s := rfl
@[simp] theorem exec_attestReport id s : exec (.attestReport id) s = execAttestReport id s := rfl
@[simp] theorem exec_attestIdentity id s : exec (.attestIdentity id) s = execAttestIdentity id s := rfl
@[simp] theorem exec_checkpointSigned cr s : exec (.checkpointSigned cr) s = execCheckpointSigned cr s := rfl
@[simp] theorem exec_keyCacheFill cr h line s : exec (.keyCacheFill cr h line) s = execKeyCacheFill cr h line s := rfl
@[simp] theorem exec_drbgReseed inst s : exec (.drbgReseed inst) s = execDrbgReseed inst s := rfl
@[simp] theorem exec_healthTestFailure s : exec .healthTestFailure s = execHealthTestFailure s := rfl
@[simp] theorem exec_healthTestRerun passes s : exec (.healthTestRerun passes) s = execHealthTestRerun passes s := rfl
@[simp] theorem exec_knownAnswerTest engine passes s : exec (.knownAnswerTest engine passes) s = execKnownAnswerTest engine passes s := rfl
@[simp] theorem exec_pqDoorbell n v s : exec (.pqDoorbell n v) s = execPqDoorbell n v s := rfl
@[simp] theorem exec_pqCtrl n v s : exec (.pqCtrl n v) s = execPqCtrl n v s := rfl
@[simp] theorem exec_pqCqCons n v s : exec (.pqCqCons n v) s = execPqCqCons n v s := rfl
@[simp] theorem exec_jobTake u s : exec (.jobTake u) s = execJobTake u s := rfl
@[simp] theorem exec_imageLoad u s : exec (.imageLoad u) s = execImageLoad u s := rfl
@[simp] theorem exec_ingestDecryption u k s : exec (.ingestDecryption u k) s = execIngestDecryption u k s := rfl
@[simp] theorem exec_fieldExtraction u k s : exec (.fieldExtraction u k) s = execFieldExtraction u k s := rfl
@[simp] theorem exec_callDoor u k q dst p s : exec (.callDoor u k q dst p) s = execCallDoor u k q dst p s := rfl
@[simp] theorem exec_convert u k q dst p s : exec (.convert u k q dst p) s = execConvert u k q dst p s := rfl
@[simp] theorem exec_decimal u k q dst p s : exec (.decimal u k q dst p) s = execDecimal u k q dst p s := rfl
@[simp] theorem exec_emit u k q dst p s : exec (.emit u k q dst p) s = execEmit u k q dst p s := rfl
@[simp] theorem exec_next u k q dst s : exec (.next u k q dst) s = execNext u k q dst s := rfl
@[simp] theorem exec_canon u k q dst p s : exec (.canon u k q dst p) s = execCanon u k q dst p s := rfl
@[simp] theorem exec_end u k s : exec (.end_ u k) s = execEnd u k s := rfl
@[simp] theorem exec_doorOperationCompletion u k s : exec (.doorOperationCompletion u k) s = execDoorOperationCompletion u k s := rfl
@[simp] theorem exec_jobTimeLimit u k s : exec (.jobTimeLimit u k) s = execJobTimeLimit u k s := rfl
@[simp] theorem exec_plaiterUnitReplacement u s : exec (.plaiterUnitReplacement u) s = execPlaiterUnitReplacement u s := rfl
@[simp] theorem exec_hoopPps cycles tenM s : exec (.hoopPps cycles tenM) s = execHoopPps cycles tenM s := rfl
@[simp] theorem exec_ptpMessage sync offset utc s : exec (.ptpMessage sync offset utc) s = execPtpMessage sync offset utc s := rfl
@[simp] theorem exec_sourceLost src inputLost s : exec (.sourceLost src inputLost) s = execSourceLost src inputLost s := rfl
@[simp] theorem exec_hoopSecondsDiscard s : exec .hoopSecondsDiscard s = execHoopSecondsDiscard s := rfl
@[simp] theorem exec_slewComplete s : exec .slewComplete s = execSlewComplete s := rfl
@[simp] theorem exec_holdoverAlarm s : exec .holdoverAlarm s = execHoldoverAlarm s := rfl
@[simp] theorem exec_hoopSecondsSave s : exec .hoopSecondsSave s = execHoopSecondsSave s := rfl
@[simp] theorem exec_heartbeatSend s : exec .heartbeatSend s = execHeartbeatSend s := rfl
@[simp] theorem exec_heartbeat seq sec frac hst src pst fence epoch advised s : exec (.heartbeat seq sec frac hst src pst fence epoch advised) s = execHeartbeat seq sec frac hst src pst fence epoch advised s := rfl
@[simp] theorem exec_partnerLoss s : exec .partnerLoss s = execPartnerLoss s := rfl
@[simp] theorem exec_fenceClaim s : exec .fenceClaim s = execFenceClaim s := rfl
@[simp] theorem exec_fenceCheck s : exec .fenceCheck s = execFenceCheck s := rfl
@[simp] theorem exec_pfenceIn level s : exec (.pfenceIn level) s = execPfenceIn level s := rfl
@[simp] theorem exec_witnessClaim s : exec .witnessClaim s = execWitnessClaim s := rfl
@[simp] theorem exec_witnessGrant m s : exec (.witnessGrant m) s = execWitnessGrant m s := rfl
@[simp] theorem exec_witnessTimeout s : exec .witnessTimeout s = execWitnessTimeout s := rfl
@[simp] theorem exec_takeover s : exec .takeover s = execTakeover s := rfl
@[simp] theorem exec_linkDownTimeout s : exec .linkDownTimeout s = execLinkDownTimeout s := rfl
@[simp] theorem exec_linkBringUp bundles s : exec (.linkBringUp bundles) s = execLinkBringUp bundles s := rfl
@[simp] theorem exec_frameRetransmit s : exec .frameRetransmit s = execFrameRetransmit s := rfl
@[simp] theorem exec_linkFrame cls seq tagOk msg s : exec (.linkFrame cls seq tagOk msg) s = execLinkFrame cls seq tagOk msg s := rfl
@[simp] theorem exec_linkRekey s : exec .linkRekey s = execLinkRekey s := rfl
@[simp] theorem exec_bundleFailure b s : exec (.bundleFailure b) s = execBundleFailure b s := rfl
@[simp] theorem exec_commitAcknowledgement id s : exec (.commitAcknowledgement id) s = execCommitAcknowledgement id s := rfl
@[simp] theorem exec_commitDeadline id s : exec (.commitDeadline id) s = execCommitDeadline id s := rfl
@[simp] theorem exec_commitApply cr s : exec (.commitApply cr) s = execCommitApply cr s := rfl
@[simp] theorem exec_lagAlarm cr s : exec (.lagAlarm cr) s = execLagAlarm cr s := rfl
@[simp] theorem exec_joiningEnd cfgs s : exec (.joiningEnd cfgs) s = execJoiningEnd cfgs s := rfl
@[simp] theorem exec_resyncCopyEnd cr s : exec (.resyncCopyEnd cr) s = execResyncCopyEnd cr s := rfl
@[simp] theorem exec_lgcCtl lg v s : exec (.lgcCtl lg v) s = execLgcCtl lg v s := rfl
@[simp] theorem exec_lgcTags lg v s : exec (.lgcTags lg v) s = execLgcTags lg v s := rfl
@[simp] theorem exec_lgcStrict lg k v s : exec (.lgcStrict lg k v) s = execLgcStrict lg k v s := rfl
@[simp] theorem exec_lgcHdm lg k v s : exec (.lgcHdm lg k v) s = execLgcHdm lg k v s := rfl
@[simp] theorem exec_hfCommit ep cr v s : exec (.hfCommit ep cr v) s = execHfCommit ep cr v s := rfl
@[simp] theorem exec_hfExport ep cr j v s : exec (.hfExport ep cr j v) s = execHfExport ep cr j v s := rfl
@[simp] theorem exec_inboundRequest lg fn r s : exec (.inboundRequest lg fn r) s = execInboundRequest lg fn r s := rfl
@[simp] theorem exec_inboundMsi lg fn off data s : exec (.inboundMsi lg fn off data) s = execInboundMsi lg fn off data s := rfl
@[simp] theorem exec_hostPageAccess ep fn off write size v s : exec (.hostPageAccess ep fn off write size v) s = execHostPageAccess ep fn off write size v s := rfl
@[simp] theorem exec_outboundAccess ep cr off write core data s : exec (.outboundAccess ep cr off write core data) s = execOutboundAccess ep cr off write core data s := rfl
@[simp] theorem exec_completionArrival lg tag status data poison s : exec (.completionArrival lg tag status data poison) s = execCompletionArrival lg tag status data poison s := rfl
@[simp] theorem exec_completionTimeout lg tag s : exec (.completionTimeout lg tag) s = execCompletionTimeout lg tag s := rfl
@[simp] theorem exec_lateCompletion lg tag s : exec (.lateCompletion lg tag) s = execLateCompletion lg tag s := rfl
@[simp] theorem exec_quarantineEnd lg tag s : exec (.quarantineEnd lg tag) s = execQuarantineEnd lg tag s := rfl
@[simp] theorem exec_perstN ep s : exec (.perstN ep) s = execPerstN ep s := rfl
@[simp] theorem exec_functionLevelReset ep fn s : exec (.functionLevelReset ep fn) s = execFunctionLevelReset ep fn s := rfl
@[simp] theorem exec_linkStateChange lg port s : exec (.linkStateChange lg port) s = execLinkStateChange lg port s := rfl
@[simp] theorem exec_dpcRelease lg port linkFell s : exec (.dpcRelease lg port linkFell) s = execDpcRelease lg port linkFell s := rfl
@[simp] theorem exec_msiXMessage ep fn vec s : exec (.msiXMessage ep fn vec) s = execMsiXMessage ep fn vec s := rfl
@[simp] theorem exec_frameReceive port b fcsOk s : exec (.frameReceive port b fcsOk) s = execFrameReceive port b fcsOk s := rfl
@[simp] theorem exec_lqRxdb cr slot v s : exec (.lqRxdb cr slot v) s = execLqRxdb cr slot v s := rfl
@[simp] theorem exec_lqTxdb cr slot v s : exec (.lqTxdb cr slot v) s = execLqTxdb cr slot v s := rfl
@[simp] theorem exec_lqCtrl cr slot v s : exec (.lqCtrl cr slot v) s = execLqCtrl cr slot v s := rfl
@[simp] theorem exec_frameTransmit port s : exec (.frameTransmit port) s = execFrameTransmit port s := rfl
@[simp] theorem exec_irSrcWrite cr v s : exec (.irSrcWrite cr v) s = execIrSrcWrite cr v s := rfl
@[simp] theorem exec_irIpi cr v s : exec (.irIpi cr v) s = execIrIpi cr v s := rfl
@[simp] theorem exec_event src cr s : exec (.event src cr) s = execEvent src cr s := rfl
@[simp] theorem exec_vectorDelivery src s : exec (.vectorDelivery src) s = execVectorDelivery src s := rfl
@[simp] theorem exec_ucFreeze cr v s : exec (.ucFreeze cr v) s = execUcFreeze cr v s := rfl
@[simp] theorem exec_registerWrite core cr pa size v s : exec (.registerWrite core cr pa size v) s = execRegisterWrite core cr pa size v s := rfl
@[simp] theorem exec_fatalDeviceError unit code s : exec (.fatalDeviceError unit code) s = execFatalDeviceError unit code s := rfl
@[simp] theorem exec_sysResetN ns cut s : exec (.sysResetN ns cut) s = execSysResetN ns cut s := rfl
@[simp] theorem exec_coldStart inp s : exec (.coldStart inp) s = execColdStart inp s := rfl
@[simp] theorem exec_warmResetN ns s : exec (.warmResetN ns) s = execWarmResetN ns s := rfl
@[simp] theorem exec_recoveryBundle b s : exec (.recoveryBundle b) s = execRecoveryBundle b s := rfl
@[simp] theorem exec_creelReleaseBoot cr reason s : exec (.creelReleaseBoot cr reason) s = execCreelReleaseBoot cr reason s := rfl
@[simp] theorem exec_heldCoreStart n s : exec (.heldCoreStart n) s = execHeldCoreStart n s := rfl
@[simp] theorem exec_healthConfirmation s : exec .healthConfirmation s = execHealthConfirmation s := rfl
@[simp] theorem exec_healthWindowExpiry s : exec .healthWindowExpiry s = execHealthWindowExpiry s := rfl
@[simp] theorem exec_healthCheckFailure s : exec .healthCheckFailure s = execHealthCheckFailure s := rfl
@[simp] theorem exec_fallBackRetry s : exec .fallBackRetry s = execFallBackRetry s := rfl
@[simp] theorem exec_slackSample kind unit ratio s : exec (.slackSample kind unit ratio) s = execSlackSample kind unit ratio s := rfl
@[simp] theorem exec_retirementTrigger kind unit s : exec (.retirementTrigger kind unit) s = execRetirementTrigger kind unit s := rfl
@[simp] theorem exec_coreSwap n s : exec (.coreSwap n) s = execCoreSwap n s := rfl
@[simp] theorem exec_oldTilePowerOff t s : exec (.oldTilePowerOff t) s = execOldTilePowerOff t s := rfl
@[simp] theorem exec_flashBlockRetirement flash blk s : exec (.flashBlockRetirement flash blk) s = execFlashBlockRetirement flash blk s := rfl
@[simp] theorem exec_borderTrip sensor reading onVbat s : exec (.borderTrip sensor reading onVbat) s = execBorderTrip sensor reading onVbat s := rfl
@[simp] theorem exec_pwrbrakeN level s : exec (.pwrbrakeN level) s = execPwrbrakeN level s := rfl
@[simp] theorem exec_governorTick powers currents tj s : exec (.governorTick powers currents tj) s = execGovernorTick powers currents tj s := rfl
@[simp] theorem exec_thermtrip die s : exec (.thermtrip die) s = execThermtrip die s := rfl
@[simp] theorem exec_referenceClockLoss inp s : exec (.referenceClockLoss inp) s = execReferenceClockLoss inp s := rfl
@[simp] theorem exec_railExcursion rail mv s : exec (.railExcursion rail mv) s = execRailExcursion rail mv s := rfl
@[simp] theorem exec_rankCopyLine ch out s : exec (.rankCopyLine ch out) s = execRankCopyLine ch out s := rfl
@[simp] theorem exec_resyncLineCopy cr s : exec (.resyncLineCopy cr) s = execResyncLineCopy cr s := rfl
@[simp] theorem exec_backOffAlert ch rank s : exec (.backOffAlert ch rank) s = execBackOffAlert ch rank s := rfl
@[simp] theorem exec_openRowTimeout ch bank s : exec (.openRowTimeout ch bank) s = execOpenRowTimeout ch bank s := rfl
@[simp] theorem exec_linkTrained l s : exec (.linkTrained l) s = execLinkTrained l s := rfl
@[simp] theorem exec_linePortLinkDown port s : exec (.linePortLinkDown port) s = execLinePortLinkDown port s := rfl
@[simp] theorem exec_hostConfigWrite ep fn w s : exec (.hostConfigWrite ep fn w) s = execHostConfigWrite ep fn w s := rfl
@[simp] theorem exec_hoopPpsOut s : exec .hoopPpsOut s = execHoopPpsOut s := rfl
@[simp] theorem exec_hubPortCountLog s : exec .hubPortCountLog s = execHubPortCountLog s := rfl

/-- A step with a command in front runs it over the rest of the queue. -/
theorem step_cons {s : State} {c : Instr} {r : List Instr} (h : s.pending = c :: r) :
    step s = exec c { s with pending := r } := by
  simp only [step, h]
/-- A step on an empty queue lets time pass. -/
theorem step_nil {s : State} (h : s.pending = []) : step s = .next s.idle := by
  simp only [step, h]

end Sys2Proof.Machine
end

