-- ==== Sys2Proof/Laws/Hash.lean ====
section
/-!
SUPPORT. What the hash functions give for every message: SHA-256 gives 32 bytes, SHA-384 and HMAC-SHA-384 give 48.
-/
namespace Sys2Proof.Machine

@[simp] theorem toLe_length (n v : Nat) : (toLe n v).length = n := by
  induction n generalizing v <;> simp_all [toLe]
@[simp] theorem toBe_length (n v : Nat) : (toBe n v).length = n := by simp [toBe]
theorem shaRound_length {w : Nat} (r : ShaRot) (h : List (BitVec w)) (kw : BitVec w × BitVec w) (e : h.length = 8) :
    (shaRound r h kw).length = 8 := by
  unfold shaRound; split <;> simp_all
theorem shaRounds_length {w : Nat} (r : ShaRot) (l : List (BitVec w × BitVec w)) (h : List (BitVec w)) (e : h.length = 8) :
    (l.foldl (shaRound r) h).length = 8 := by
  induction l generalizing h with
  | nil => exact e
  | cons x l ih => exact ih _ (shaRound_length r h x e)
theorem shaBlock_length {w : Nat} (r : ShaRot) (k h : List (BitVec w)) (b : Bytes) (e : h.length = 8) : (shaBlock r k h b).length = 8 := by
  simp [shaBlock, shaRounds_length, e]
theorem shaBlocks_length {w : Nat} (r : ShaRot) (k : List (BitVec w)) (l : List Bytes) (h : List (BitVec w)) (e : h.length = 8) :
    (l.foldl (shaBlock r k) h).length = 8 := by
  induction l generalizing h with
  | nil => exact e
  | cons x l ih => exact ih _ (shaBlock_length r k h x e)
/-- SHA-2 gives as many bytes as it is asked for, up to its eight words. -/
theorem sha2_length {w : Nat} (r : ShaRot) (k h : List (BitVec w)) (out : Nat) (m : Bytes) (e : h.length = 8) (o : out ≤ 8 * (w / 8)) :
    (sha2 r k h out m).length = out := by
  have f : ∀ l : List (BitVec w), (l.flatMap fun x => toBe (w / 8) x.toNat).length = l.length * (w / 8) := by
    intro l
    induction l with
    | nil => simp
    | cons x l ih => simp [ih, Nat.succ_mul, Nat.add_comm]
  rw [sha2, List.length_take, f, shaBlocks_length _ _ _ _ e]
  omega
@[simp] theorem sha256_length (m : Bytes) : (sha256 m).length = 32 := sha2_length _ _ _ _ _ (by decide +kernel) (by omega)
@[simp] theorem sha384_length (m : Bytes) : (sha384 m).length = 48 := sha2_length _ _ _ _ _ (by decide +kernel) (by omega)
@[simp] theorem hmac_sha384_length (key m : Bytes) : (hmac 2 key m).length = 48 := sha384_length _

end Sys2Proof.Machine
end

