-- ==== Sys2Proof/Laws/Run.lean ====
section
/-!
SUPPORT. What surrounds an instruction: what settling, translation and the fetch can change, and how an instruction of a
core or a sequencer ends.
-/
namespace Sys2Proof.Machine

/-! ## Settling -/

theorem Core.applyPend_eq (c : Core) (p : PendWrite) : ∃ m, c.applyPend p = { c with sys := m } := by
  simp only [Core.applyPend]
  repeat' split
  all_goals exact ⟨_, rfl⟩
theorem settleList_eq (l : List PendWrite) (c : Core) (h : List Nat) (k : Nat) : ∃ m, (settleList c l h k).1 = { c with sys := m } := by
  induction l generalizing c h k with
  | nil => exact ⟨c.sys, rfl⟩
  | cons p r ih =>
    simp only [settleList]
    split
    · exact ih ..
    · obtain ⟨m, hm⟩ := c.applyPend_eq p
      obtain ⟨m', h'⟩ := ih (c.applyPend p) h (k + 1)
      exact ⟨m', by rw [h', hm]⟩
/-- Settling changes the system registers of the core, its pending writes and the free counter. -/
theorem State.settle_eq (s : State) (n : Nat) : s.settle n = { s with cores := (s.settle n).cores, free := (s.settle n).free } := by
  simp only [State.settle]
  split <;> rfl
theorem State.settle_core (s : State) (n : Nat) : ∃ m l, (s.settle n).core n = { s.core n with sys := m, pend := l } := by
  simp only [State.settle]
  split
  · exact ⟨_, _, rfl⟩
  · obtain ⟨m, hm⟩ := settleList_eq (s.core n).pend (s.core n) [] s.free
    refine ⟨m, (settleList (s.core n) (s.core n).pend [] s.free).2, ?_⟩
    simp only [State.core_setCore_self, hm]
theorem State.settle_core_ne (s : State) {n m : Nat} (h : m ≠ n) : (s.settle n).core m = s.core m := by
  simp only [State.settle]
  split
  · rfl
  · rw [State.core_setCore, if_neg h]; rfl
theorem State.settle_none {s : State} {n : Nat} (h : (s.core n).pend = []) : s.settle n = s := by
  simp only [State.settle, h, if_true]
@[simp] theorem State.settle_x (s : State) (n : Nat) : ((s.settle n).core n).x = (s.core n).x := by
  obtain ⟨m, l, h⟩ := s.settle_core n
  rw [h]

/-! ## Translation and fetch -/

theorem State.wrBytes_mem_congr (b : Bytes) {s t : State} (h : t.mem = s.mem) (a : Nat) : (t.wrBytes a b).mem = (s.wrBytes a b).mem := by
  induction b generalizing s t a with
  | nil => exact h
  | cons x r ih =>
    rw [State.wrBytes, State.wrBytes]
    exact ih (by rw [State.wr8_mem, State.wr8_mem, h]) (a + 1)
theorem wr64_mem_congr {s t : State} (h : t.mem = s.mem) (a : Nat) (v : W64) : (t.wr64 a v).mem = (s.wr64 a v).mem :=
  State.wrBytes_mem_congr _ h a
theorem TranslateOnly.refl (s : State) (n : Nat) : TranslateOnly s s n := ⟨rfl, ⟨_, _, rfl⟩, fun _ _ => rfl, .inl rfl⟩
/-- Drawing a free value and changing the cached leaves of the core first changes nothing more. -/
theorem TranslateOnly.before {s t u : State} {n : Nat} (h1 : t = { s with cores := t.cores, free := t.free })
    (h2 : ∃ tlb ptr, t.core n = { s.core n with tlb := tlb, ptr := ptr }) (h3 : ∀ m, m ≠ n → t.core m = s.core m)
    (k : TranslateOnly t u n) : TranslateOnly s u n := by
  obtain ⟨k1, ⟨a, b, k2⟩, k3, k4⟩ := k
  obtain ⟨a', b', h2⟩ := h2
  have hm : t.mem = s.mem := by rw [h1]
  refine ⟨?_, ⟨a, b, ?_⟩, fun m hm => ?_, ?_⟩
  · rw [h1] at k1; rw [k1]
  · rw [k2, h2]
  · rw [k3 m hm, h3 m hm]
  · rcases k4 with k4 | ⟨ea, e, k4⟩
    · exact .inl (k4.trans hm)
    · refine .inr ⟨ea, e, ?_⟩
      rw [k4, wr64_mem_congr hm]
theorem State.wrBytes_eq (b : Bytes) (s : State) (a : Nat) : s.wrBytes a b = { s with mem := (s.wrBytes a b).mem } := by
  induction b generalizing s a with
  | nil => rfl
  | cons x r ih =>
    rw [State.wrBytes]
    exact ih (s.wr8 a x) (a + 1)
theorem State.wr64_eq (s : State) (a : Nat) (v : W64) : s.wr64 a v = { s with mem := (s.wr64 a v).mem } := State.wrBytes_eq _ s a
theorem State.wr64_cores (s : State) (a : Nat) (v : W64) : (s.wr64 a v).cores = s.cores := by
  have h := s.wr64_eq a v
  generalize s.wr64 a v = t at h ⊢
  rw [h]
theorem State.wr64_core (s : State) (a n : Nat) (v : W64) : (s.wr64 a v).core n = s.core n := by
  simp only [State.core, s.wr64_cores]
theorem State.walkStart_eq (s : State) (n va : Nat) :
    (s.walkStart n va).1 = { s with cores := (s.walkStart n va).1.cores, free := (s.walkStart n va).1.free } ∧
      ∀ m, (s.walkStart n va).1.core m = s.core m := by
  simp only [State.walkStart]
  split <;> exact ⟨rfl, fun _ => rfl⟩
theorem State.walkFill_only (s : State) (n va : Nat) (e : W64) (ea l k : Nat) (ps : List (Nat × Nat × Nat)) :
    TranslateOnly s (s.walkFill n va e ea l k ps).1 n := by
  simp only [State.walkFill]
  split
  · refine ⟨rfl, ⟨_, _, State.core_modCore_self ..⟩, fun m h => ?_, .inl rfl⟩
    rw [State.core_modCore, if_neg h]
  · have h1 := s.wr64_eq ea (setFld e 6 6 1)
    have h2 := s.wr64_core ea n (setFld e 6 6 1)
    have h3 : ∀ m, (s.wr64 ea (setFld e 6 6 1)).core m = s.core m := fun m => s.wr64_core ea m _
    refine ⟨?_, ?_, fun m h => ?_, .inr ⟨ea, e, ?_⟩⟩
    · generalize s.wr64 ea (setFld e 6 6 1) = t at h1
      rw [h1]; rfl
    · rw [State.core_modCore_self, h2]; exact ⟨_, _, rfl⟩
    · rw [State.core_modCore, if_neg h, h3]
    · rw [State.modCore_mem]
theorem State.walkAccess_only (s : State) (n va : Nat) (w : Bool) : TranslateOnly s (s.walkAccess n va w).1 n := by
  have h := s.walkStart_eq n va
  have h' : TranslateOnly s (s.walkStart n va).1 n :=
    TranslateOnly.before h.1 ⟨_, _, h.2 n⟩ (fun m _ => h.2 m) (TranslateOnly.refl _ n)
  simp only [State.walkAccess]
  repeat' split
  · exact h'
  · exact TranslateOnly.before h.1 ⟨_, _, h.2 n⟩ (fun m _ => h.2 m) (State.walkFill_only ..)
  · exact h'
  · exact h'
theorem State.walked_only (s : State) (n va : Nat) (k : AccKind) (w : Bool) : TranslateOnly s (s.walked n va k w).1 n := by
  have h := s.walkAccess_only n va w
  simp only [State.walked]
  split <;> rename_i e <;> rw [e] at h <;> exact h
/-- A translation changes nothing but what `TranslateOnly` lists. -/
theorem State.translate_only (s : State) (n : Nat) (va : W64) (k : AccKind) (w : Bool) :
    TranslateOnly s (s.translate n va k w).1 n := by
  simp only [State.translate]
  repeat' split
  · exact TranslateOnly.refl s n
  · exact TranslateOnly.refl s n
  · exact TranslateOnly.refl s n
  · exact State.walked_only ..
  · exact TranslateOnly.before (t := s.spend) rfl ⟨_, _, rfl⟩ (fun _ _ => rfl) (TranslateOnly.refl _ n)
  · exact TranslateOnly.before (t := s.spend) rfl ⟨_, _, rfl⟩ (fun _ _ => rfl) (State.walked_only ..)
theorem State.translate_off {s : State} {n : Nat} (h : (s.core n).xlateOn = false) (va : W64) (k : AccKind) (w : Bool) :
    (s.translate n va k w).1 = s := by
  simp only [State.translate, h, Bool.not_false, if_true]
  split <;> rfl
/-- A fetch changes nothing but what its translation and the caches change, and the poison mark of a line read from a
fenced rank. -/
theorem State.fetch_only (s : State) (n : Nat) :
    ∃ v w, TranslateOnly s v n ∧ CacheOnly v w ∧ ((s.fetch n).1 = w ∨ ∃ l, (s.fetch n).1 = w.markPoison l) := by
  have h := s.translate_only n (s.core n).x.pc .fetch false
  simp only [State.fetch]
  repeat' split
  all_goals first
    | exact ⟨_, _, h, CacheOnly.cohRead .., .inl rfl⟩
    | exact ⟨_, _, h, CacheOnly.cohRead .., .inr ⟨_, rfl⟩⟩
    | exact ⟨_, _, h, CacheOnly.refl _, .inl rfl⟩
theorem State.fetch_core (s : State) (n : Nat) : ∃ tlb ptr, (s.fetch n).1.core n = { s.core n with tlb := tlb, ptr := ptr } := by
  obtain ⟨v, w, h1, h2, h3⟩ := s.fetch_only n
  obtain ⟨a, b, h⟩ := h1.2.1
  have hw : w.core n = { s.core n with tlb := a, ptr := b } := by rw [h2.core, h]
  rcases h3 with h3 | ⟨l, h3⟩
  · exact ⟨a, b, by rw [h3, hw]⟩
  · exact ⟨a, b, by rw [h3]; exact hw⟩
theorem State.fetch_x (s : State) (n : Nat) : ((s.fetch n).1.core n).x = (s.core n).x := by
  obtain ⟨a, b, h⟩ := s.fetch_core n
  rw [h]

/-! ## Counting -/

theorem legAdd_eq (evs : List (Nat × Nat)) (c : Core) : ∃ l b, legAdd evs c = { c with leg := l, beat := b } := ⟨_, _, rfl⟩
/-- What one counter's step leaves as it was. -/
def CountedFrom (c d : Core) : Prop :=
  (∃ m, d = { c with sys := m }) ∧ ∀ r, ¬ (r = 0x81 ∨ (0x90 ≤ r ∧ r < 0x98)) → d.sysr r = c.sysr r
theorem Core.sysr_setSys (c : Core) (n r : Nat) (v : W64) : (c.setSys n v).sysr r = if r = n then v else c.sysr r :=
  FMap.get_set 0 c.sys n r v
theorem CountedFrom.refl (c : Core) : CountedFrom c c := ⟨⟨_, rfl⟩, fun _ _ => rfl⟩
theorem CountedFrom.trans {a b c : Core} (h : CountedFrom a b) (k : CountedFrom b c) : CountedFrom a c := by
  obtain ⟨⟨m, rfl⟩, h2⟩ := h
  obtain ⟨⟨m', rfl⟩, k2⟩ := k
  exact ⟨⟨m', rfl⟩, fun r hr => (k2 r hr).trans (h2 r hr)⟩
theorem CountedFrom.setSys (c : Core) (n : Nat) (v : W64) (h : n = 0x81 ∨ (0x90 ≤ n ∧ n < 0x98)) : CountedFrom c (c.setSys n v) := by
  refine ⟨⟨_, rfl⟩, fun r hr => ?_⟩
  rw [Core.sysr_setSys, if_neg]
  rintro rfl
  exact hr h
theorem pmOne_from (priv : Bool) (evs : List (Nat × Nat)) (acc : Core × Option Nat × Bool) (n : Nat) (hn : n < 8) :
    CountedFrom acc.1 (pmOne priv evs acc n).1 := by
  obtain ⟨c, carry, irq⟩ := acc
  have h1 : ∀ a v, CountedFrom c (if a = 0 then c else c.setSys (0x90 + n) v) := by
    intro a v
    split
    · exact CountedFrom.refl c
    · exact CountedFrom.setSys c _ v (.inr ⟨by omega, by omega⟩)
  simp only [pmOne]
  repeat' split
  all_goals first
    | exact CountedFrom.refl c
    | exact CountedFrom.setSys c _ _ (.inl rfl)
    | exact CountedFrom.setSys c _ _ (.inr ⟨by omega, by omega⟩)
    | exact (CountedFrom.setSys c _ _ (.inr ⟨by omega, by omega⟩)).trans (CountedFrom.setSys _ _ _ (.inl rfl))
theorem pmFold_from (priv : Bool) (evs : List (Nat × Nat)) (l : List Nat) (hl : ∀ n ∈ l, n < 8) (acc : Core × Option Nat × Bool) :
    CountedFrom acc.1 (l.foldl (pmOne priv evs) acc).1 := by
  induction l generalizing acc with
  | nil => exact CountedFrom.refl _
  | cons n r ih =>
    simp only [List.foldl_cons]
    exact (pmOne_from priv evs acc n (hl n (by simp))).trans (ih (fun k hk => hl k (by simp [hk])) _)
/-- Counting changes only what `SameButCounts` lists. -/
theorem Core.count_same (c : Core) (priv : Bool) (evs : List (Nat × Nat)) : SameButCounts c (c.count priv evs) := by
  have hl : ∀ n ∈ List.range 8, n < 8 := fun n hn => List.mem_range.1 hn
  have h := pmFold_from priv evs (List.range 8) hl (legAdd evs c, none, false)
  simp only [Core.count]
  generalize (List.range 8).foldl (pmOne priv evs) (legAdd evs c, none, false) = r at h ⊢
  obtain ⟨d, o, irq⟩ := r
  obtain ⟨⟨m, hm⟩, h2⟩ := h
  simp only at hm h2 ⊢
  have hs : ∀ r, (legAdd evs c).sysr r = c.sysr r := fun _ => rfl
  have h80 : d.sysr 0x80 = c.sysr 0x80 := (h2 0x80 (by omega)).trans (hs _)
  split
  · split
    · refine ⟨⟨_, _, _, _, by rw [hm]; rfl⟩, fun r hr => ?_, .inr ?_⟩
      · rw [Core.sysr_setSys, if_neg (by omega)]
        exact (h2 r (by omega)).trans (hs r)
      · simp only [Core.setSys, h80]
        rw [hm]; rfl
    · refine ⟨⟨_, _, _, _, by rw [hm]; rfl⟩, fun r hr => ?_, .inr ?_⟩
      · exact (h2 r (by omega)).trans (hs r)
      · simp only [h80]
        rw [hm]; rfl
  · refine ⟨⟨_, _, _, _, by rw [hm]; rfl⟩, fun r hr => ?_, .inl ?_⟩
    · exact (h2 r (by omega)).trans (hs r)
    · rw [hm]; rfl

/-! ## How an instruction of a core ends -/

theorem CoreCompletes.count (v : State) (n : Nat) (pc : W64) (p : Bool) (e : List (Nat × Nat)) :
    CoreCompletes v ((v.spend.setPc n pc).modCore n fun c => c.count p e) n pc := by
  refine ⟨v.free + 1, (({ v.core n with x := { (v.core n).x with pc := pc } } : Core).count p e), ?_, Core.count_same _ p e⟩
  simp only [State.setPc, State.modCore, State.setCore, State.core, State.spend, FMap.get_set_self, FMap.set_set]
/-- What prediction does with a branch whose guard is false: nothing, or what `skipBranch` does (04/R120). -/
def State.skipped (u : State) (n : Nat) (o : Op) (pc : W64) : State × List (Nat × Nat) :=
  match o.branch with | some (k, t) => u.skipBranch n k pc t | none => (u, [])
/-- The frame of a core's instruction, once the fetch has passed. -/
theorem CoreFetches.runCore {s u : State} {n : CoreId} {ev : List (Nat × Nat)} (h : CoreFetches s n u ev) (o : Op)
    (body : State → Ctx → Res) :
    ∃ priv, s.runCore n o body =
      if !o.legal then u.takeExc n 1 none 0
      else if !(u.core n).x.rdp o.guard.toNat then
        (((u.skipped n o (u.core n).x.pc).1.spend.setPc n ((u.core n).x.pc + 4)).modCore n fun c =>
          c.count priv ((u.skipped n o (u.core n).x.pc).1.specEvents ((0x31, 1) :: (u.skipped n o (u.core n).x.pc).2)).2)
      else match body u (u.core n).x with
        | .done v evs => ((v.spend.setPc n ((u.core n).x.pc + 4)).modCore n fun c =>
            c.count priv ((1, 1) :: ev ++ o.events ++ evs ++ (v.specEvents []).2))
        | .counted v => v.setPc n ((u.core n).x.pc + 4)
        | .jump v t evs => ((v.spend.setPc n t).modCore n fun c =>
            c.count priv ((1, 1) :: ev ++ o.events ++ evs ++ (v.specEvents []).2))
        | .exc v code ea ei => v.takeExc n code ea ei
        | .mc v k code a => v.takeMc n k code a
        | .wait v => v
        | .ends v _ _ => v := by
  have hf := h.fetched
  have hx : (u.core n).x.pc = (((s.settle n).modCore n fun c => { c with ioFence := false }).core n).x.pc := by
    have := State.fetch_x ((s.settle n).modCore n fun c => { c with ioFence := false }) n
    rw [hf] at this
    rw [this]
  refine ⟨(((s.settle n).modCore n fun c => { c with ioFence := false }).core n).priv, ?_⟩
  have h1 : ¬ ((s.core n).run ≠ .running ∨ (s.core n).parked.isSome = true ∨ (s.core n).dev.isSome = true) := by
    simp [h.running, h.parked, h.dev]
  have h3 : ¬ ((s.core n).ioFence = true ∧ (s.core n).strict ≠ []) := fun hh => hh.2 (h.noDeviceFence hh.1)
  unfold State.runCore
  simp only [if_neg h1, h.awake, h.noInterrupt, Bool.false_eq_true, if_false, if_neg h3, hf, ← hx, State.specEvents,
    State.skipped]
  all_goals
    split
    · rfl
    · split
      · rfl
      · generalize body u (u.core n).x = r
        cases r <;> rfl
theorem CoreRuns.done {s u v : State} {n : CoreId} {o : Op} {ev evs : List (Nat × Nat)} (h : CoreRuns s n o.guard u ev)
    (ha : o.agent = .core n) (hl : o.legal = true) {body : State → Ctx → Res} (hb : body u (u.core n).x = .done v evs) :
    ∃ t, runInstr o body s = .next t ∧ CoreCompletes v t n ((u.core n).x.pc + 4) := by
  obtain ⟨p, hp⟩ := h.toCoreFetches.runCore o body
  refine ⟨s.runCore n o body, by simp only [runInstr, ha], ?_⟩
  rw [hp]
  simp only [hl, h.guard, hb, Bool.not_true, Bool.false_eq_true, if_false]
  exact CoreCompletes.count ..
theorem CoreRuns.jump {s u v : State} {n : CoreId} {o : Op} {ev evs : List (Nat × Nat)} {pc : W64}
    (h : CoreRuns s n o.guard u ev) (ha : o.agent = .core n) (hl : o.legal = true) {body : State → Ctx → Res}
    (hb : body u (u.core n).x = .jump v pc evs) : ∃ t, runInstr o body s = .next t ∧ CoreCompletes v t n pc := by
  obtain ⟨p, hp⟩ := h.toCoreFetches.runCore o body
  refine ⟨s.runCore n o body, by simp only [runInstr, ha], ?_⟩
  rw [hp]
  simp only [hl, h.guard, hb, Bool.not_true, Bool.false_eq_true, if_false]
  exact CoreCompletes.count ..
theorem CoreRuns.exc {s u v : State} {n : CoreId} {o : Op} {ev : List (Nat × Nat)} {code : Nat} {ea : Option W64} {ei : W64}
    (h : CoreRuns s n o.guard u ev) (ha : o.agent = .core n) (hl : o.legal = true) {body : State → Ctx → Res}
    (hb : body u (u.core n).x = .exc v code ea ei) : runInstr o body s = .next (v.takeExc n code ea ei) := by
  obtain ⟨p, hp⟩ := h.toCoreFetches.runCore o body
  simp only [runInstr, ha]
  rw [hp]
  simp only [hl, h.guard, hb, Bool.not_true, Bool.false_eq_true, if_false]
theorem CoreRuns.counted {s u v : State} {n : CoreId} {o : Op} {ev : List (Nat × Nat)}
    (h : CoreRuns s n o.guard u ev) (ha : o.agent = .core n) (hl : o.legal = true) {body : State → Ctx → Res}
    (hb : body u (u.core n).x = .counted v) : runInstr o body s = .next (v.setPc n ((u.core n).x.pc + 4)) := by
  obtain ⟨p, hp⟩ := h.toCoreFetches.runCore o body
  simp only [runInstr, ha]
  rw [hp]
  simp only [hl, h.guard, hb, Bool.not_true, Bool.false_eq_true, if_false]
theorem CoreRuns.waits {s u v : State} {n : CoreId} {o : Op} {ev : List (Nat × Nat)}
    (h : CoreRuns s n o.guard u ev) (ha : o.agent = .core n) (hl : o.legal = true) {body : State → Ctx → Res}
    (hb : body u (u.core n).x = .wait v) : runInstr o body s = .next v := by
  obtain ⟨p, hp⟩ := h.toCoreFetches.runCore o body
  simp only [runInstr, ha]
  rw [hp]
  simp only [hl, h.guard, hb, Bool.not_true, Bool.false_eq_true, if_false]
/-- Fields that are no encoding: ILLEGAL_INSTRUCTION, whatever the guard (02/R38, R42). -/
theorem CoreFetches.illegal {s u : State} {n : CoreId} {o : Op} {ev : List (Nat × Nat)} (h : CoreFetches s n u ev)
    (ha : o.agent = .core n) (hl : o.legal = false) (body : State → Ctx → Res) :
    runInstr o body s = .next (u.takeExc n 1 none 0) := by
  obtain ⟨p, hp⟩ := h.runCore o body
  simp only [runInstr, ha]
  rw [hp]
  simp [hl]
/-- A false guard: nothing is written (02/R40) but what prediction learns of a branch (04/R120), or the fields are no
encoding. -/
theorem CoreFetches.skip {s u : State} {n : CoreId} {o : Op} {ev : List (Nat × Nat)} (h : CoreFetches s n u ev)
    (ha : o.agent = .core n) (hg : (u.core n).x.rdp o.guard.toNat = false) (body : State → Ctx → Res) :
    ∃ t, runInstr o body s = .next t ∧
      (CoreCompletes (u.skipped n o (u.core n).x.pc).1 t n ((u.core n).x.pc + 4) ∨ t = u.takeExc n 1 none 0) := by
  obtain ⟨p, hp⟩ := h.runCore o body
  refine ⟨s.runCore n o body, by simp only [runInstr, ha], ?_⟩
  rw [hp]
  cases hl : o.legal with
  | false => exact .inr (by simp)
  | true =>
    left
    simp only [hg, Bool.not_true, Bool.false_eq_true, if_false, Bool.not_false, if_true]
    exact CoreCompletes.count ..

/-! ## How an instruction of a sequencer ends -/

theorem SeqRuns.runSeq {s u : State} {q : SeqId} {o : Op} (h : SeqRuns s q o.guard o.reads o.writes u) (ho : o.coreOnly = false)
    (hl : o.legal = true) (body : State → Ctx → Res) :
    s.runSeq q o body =
      match body (seqBody u q o.writes) (u.seq (seqIx q)).x with
      | .done s _ => s.seqComplete (seqIx q) ((u.seq (seqIx q)).x.pc + 4) (o.beats + if tbit (u.seq (seqIx q)).mode 1 then o.sharedExtra else 0) o.loopLen false o.writes.head?
      | .counted s => s.seqComplete (seqIx q) ((u.seq (seqIx q)).x.pc + 4) (o.beats + if tbit (u.seq (seqIx q)).mode 1 then o.sharedExtra else 0) o.loopLen false o.writes.head?
      | .jump s t _ => s.seqComplete (seqIx q) t (o.beats + if tbit (u.seq (seqIx q)).mode 1 then o.sharedExtra else 0) o.loopLen true o.writes.head?
      | .exc s code ea _ => s.endProgram (seqIx q) code (ea.getD 0)
      | .mc s _ _ a => s.endProgram (seqIx q) 0x24 (w64 a)
      | .wait s => (s.spend).modSeq (seqIx q) fun z => { z with beats := z.beats + w64 (Config.free .stallBeats s.free) }
      | .ends s code a =>
        (if code = 0 then s.seqComplete (seqIx q) ((u.seq (seqIx q)).x.pc + 4) (o.beats + if tbit (u.seq (seqIx q)).mode 1 then o.sharedExtra else 0) none false none
          else s).endProgram (seqIx q) code a := by
  have h1 : ¬ (seqImemSize (seqIx q) ≤ (u.seq (seqIx q)).x.pc.toNat) := Nat.not_le.2 h.inside
  have h2 : ((o.reads ++ o.writes).any fun r => (u.seq (seqIx q)).busy.contains r) = false := by
    rw [List.any_eq_false]
    intro r hr
    simpa using h.free r hr
  have h3 : (o.reads.any fun r => (u.seq (seqIx q)).poisoned.contains r) = false := by
    rw [List.any_eq_false]
    intro r hr
    simpa using h.clean r hr
  unfold State.runSeq
  simp only [h.run, h.pair, h.fence, ← h.settled, if_neg h1, ho, hl, h.guard, h2, h3, Bool.not_true, Bool.false_eq_true, if_false, or_self,
    ne_eq, not_true_eq_false]
  rfl
theorem SeqRuns.done {s u v : State} {q : SeqId} {o : Op} {evs : List (Nat × Nat)} (h : SeqRuns s q o.guard o.reads o.writes u)
    (ha : o.agent = .seq q) (ho : o.coreOnly = false) (hl : o.legal = true) (hs : o.sharedExtra = 0) {body : State → Ctx → Res}
    (hb : body (seqBody u q o.writes) (u.seq (seqIx q)).x = .done v evs) :
    runInstr o body s = .next (v.seqComplete (seqIx q) ((u.seq (seqIx q)).x.pc + 4) o.beats o.loopLen false o.writes.head?) := by
  simp only [runInstr, ha, h.runSeq ho hl, hb, hs]
  simp
theorem SeqRuns.jump {s u v : State} {q : SeqId} {o : Op} {evs : List (Nat × Nat)} {pc : W64}
    (h : SeqRuns s q o.guard o.reads o.writes u) (ha : o.agent = .seq q) (ho : o.coreOnly = false) (hl : o.legal = true)
    (hs : o.sharedExtra = 0) {body : State → Ctx → Res}
    (hb : body (seqBody u q o.writes) (u.seq (seqIx q)).x = .jump v pc evs) :
    runInstr o body s = .next (v.seqComplete (seqIx q) pc o.beats o.loopLen true o.writes.head?) := by
  simp only [runInstr, ha, h.runSeq ho hl, hb, hs]
  simp
/-- A core-only instruction, or fields that are no encoding, end the program (02/R45, R38). -/
theorem SeqRuns.illegal {s u : State} {q : SeqId} {o : Op} {g : PReg} {a b : List Nat} (h : SeqRuns s q g a b u) (ha : o.agent = .seq q)
    (ho : o.coreOnly = true ∨ o.legal = false) (body : State → Ctx → Res) :
    runInstr o body s = .next ((u.modSeq (seqIx q) fun z => { z with beats := z.beats + (if z.leftLoop then 5 else 3) }).endProgram
      (seqIx q) 1 0) := by
  have h1 : ¬ (seqImemSize (seqIx q) ≤ (u.seq (seqIx q)).x.pc.toNat) := Nat.not_le.2 h.inside
  have h2 : o.coreOnly = true ∨ (!o.legal) = true := by
    rcases ho with ho | ho
    · exact .inl ho
    · exact .inr (by simp [ho])
  simp only [runInstr, ha]
  unfold State.runSeq
  simp only [h.run, h.pair, h.fence, ← h.settled, if_neg h1, Bool.not_true, Bool.false_eq_true, if_false, if_pos h2, ne_eq,
    not_true_eq_false]

end Sys2Proof.Machine
end

