-- ==== Sys2Proof/Tests/Slice0.lean ====
section
/-!
SUPPORT. Tests: the checks of WellFormed, steps from the spec's own numbers, and for every statement with hypotheses a state and
operands that meet them (`witness_<statement>`), clause by clause.
-/
namespace Sys2Proof.Tests
open Sys2Proof Sys2Proof.Machine Sys2Proof.Claims
set_option Elab.async false

/-! ## Well-formed commands: each check refuses an ill-formed term -/

theorem test_registerWrite_size : Instr.wellFormed (.registerWrite none 1 0 8 0) = true ∧
    Instr.wellFormed (.registerWrite none 1 0 3 0) = false := by decide
theorem test_hostPageAccess_size : Instr.wellFormed (.hostPageAccess 0 1 0 true 4 0) = true ∧
    Instr.wellFormed (.hostPageAccess 0 1 0 true 0 0) = false := by decide
theorem test_hfExport_window : Instr.wellFormed (.hfExport 0 0 1 0) = true ∧ Instr.wellFormed (.hfExport 0 0 0 0) = false := by decide
theorem test_inboundRequest_data : Instr.wellFormed (.inboundRequest 8 1 (.write 0 [1] false)) = true ∧
    Instr.wellFormed (.inboundRequest 8 1 (.write 0 [] false)) = false ∧
    Instr.wellFormed (.inboundRequest 8 1 (.atomic 0 16 .cas 0 0)) = true ∧
    Instr.wellFormed (.inboundRequest 8 1 (.atomic 0 2 .swap 0 0)) = false := by decide
theorem test_outboundAccess_data : Instr.wellFormed (.outboundAccess 0 0 0 true none [1]) = true ∧
    Instr.wellFormed (.outboundAccess 0 0 0 true none []) = false := by decide
theorem test_governorTick_lengths : Instr.wellFormed (.governorTick [1, 1, 1, 1, 1, 1] [1, 1, 1, 1] [1, 1, 1, 1]) = true ∧
    Instr.wellFormed (.governorTick [] [1, 1, 1, 1] [1, 1, 1, 1]) = false ∧
    Instr.wellFormed (.governorTick [1, 1, 1, 1, 1, 1] [1] [1, 1, 1, 1]) = false ∧
    Instr.wellFormed (.governorTick [1, 1, 1, 1, 1, 1] [1, 1, 1, 1] []) = false := by decide

/-! ## A small device -/

/-- A creel that runs, with the low 16 MiB granted and open to all accesses, and the entry of its own hub pages. -/
def aCreel : Creel :=
  { creelReset with st := .running, grants := [(0, (0, 0xFFFFFF))], segs := [(0, { w0 := 0x1F, w1 := 0xFFF000 }), (63, hubEntry)], wayMask := 0xFFFF }
def runningCore : Core := { coreReset with run := .running }
/-- A device that runs: creel 1 has cores 0 and 1, unit 0, ring 0, queue 0; 64 GiB of DRAM. -/
def dev : State :=
  { State.reset with
    coreCreel := [(0, 1), (1, 1)], creels := [(1, aCreel)], installed := 2 ^ 36, power := 2, unitCreel := [(0, 1)], ringHolder := [(0, 1)],
    pqHolder := [(0, 1)], cores := [(0, runningCore)] }
/-- The device with core 0 changed, with the creel changed, with the Stake changed, with these bytes at the start of memory. -/
def onCore (f : Core → Core) : State := { dev with cores := [(0, f runningCore)] }
def onCreel (f : Creel → Creel) : State := { dev with creels := [(1, f aCreel)] }
def onBytes (s : State) (a : Nat) (b : Bytes) : State := s.wrBytes a b
/-- A core with these general registers. -/
def withG (g : FMap W64) : State := onCore fun c => { c with x := { c.x with g := g } }
/-- The state that core 0's fetch leaves, and the events that it counts. -/
def fetchRes (s : State) (n : Nat) : State × FetchRes := ((s.settle n).modCore n fun c => { c with ioFence := false }).fetch n
def fetchEvents : FetchRes → List (Nat × Nat) | .ok e => e | _ => []
def Runs (s : State) : Prop := CoreRuns s 0 0 (fetchRes s 0).1 (fetchEvents (fetchRes s 0).2)
def fetchOk : FetchRes → Bool | .ok _ => true | _ => false
theorem fetchOk_eq (r : FetchRes) (h : fetchOk r = true) : r = .ok (fetchEvents r) := by cases r <;> simp_all [fetchOk, fetchEvents]
theorem runs_of (s : State) (h : (s.core 0).run = .running ∧ (s.core 0).parked = none ∧ (s.core 0).dev = none ∧ (s.core 0).waiting = false ∧
    ((s.settle 0).core 0).due = none ∧ (s.core 0).ioFence = false ∧ (((fetchRes s 0).1.core 0).x.rdp 0 = true) ∧ fetchOk (fetchRes s 0).2 = true) : Runs s :=
  ⟨⟨h.1, h.2.1, h.2.2.1, h.2.2.2.1, h.2.2.2.2.1, fun e => absurd e (by simp [h.2.2.2.2.2.1]),
    by rw [← fetchOk_eq _ h.2.2.2.2.2.2.2]; rfl⟩, h.2.2.2.2.2.2.1⟩
/-- Sequencer 0 of the Hamper, and one of Plaiter unit 0, running. -/
def hseq : SeqId := .hamper 0
def pseq : SeqId := .plaiter 0 0
def onSeq (q : SeqId) (f : Seq → Seq) : State := { dev with seqs := [(seqIx q, f { seqReset with run := true })] }
/-- A sequencer's state with its mode settled. -/
def settled (s : State) (q : SeqId) : State := s.modSeq (seqIx q) Seq.settle
theorem seqRuns_of (s : State) (q : SeqId) (rds wrs : List Nat) (h : (s.seq (seqIx q)).run = true ∧ (s.seq (seqIx q)).skew = [] ∧
    (s.seq (seqIx q)).fenced = false ∧ ((settled s q).seq (seqIx q)).x.pc.toNat < seqImemSize (seqIx q) ∧ ((settled s q).seq (seqIx q)).x.rdp 0 = true ∧
    ((settled s q).seq (seqIx q)).busy = [] ∧ ((settled s q).seq (seqIx q)).poisoned = []) : SeqRuns s q 0 rds wrs (settled s q) :=
  ⟨h.1, h.2.1, h.2.2.1, rfl, h.2.2.2.1, h.2.2.2.2.1, by simp [h.2.2.2.2.2.1], by simp [h.2.2.2.2.2.2]⟩
/-- What the fetch of core 0 leaves of a state. -/
def fetched (s : State) : State := (fetchRes s 0).1

theorem dev_runs : Runs dev := runs_of _ (by decide +kernel)
theorem hseq_runs (rds wrs : List Nat) : SeqRuns (onSeq hseq id) hseq 0 rds wrs (settled (onSeq hseq id) hseq) := seqRuns_of _ _ _ _ (by decide +kernel)
theorem pseq_runs (rds wrs : List Nat) : SeqRuns (onSeq pseq id) pseq 0 rds wrs (settled (onSeq pseq id) pseq) := seqRuns_of _ _ _ _ (by decide +kernel)

/-! ## Words of MIS-3 written out from the encoding tables (02/R36 to R45) -/

/-- guard, major, d, s1, s2, minor, u: [31:28], [27:21], [20:15], [14:9], [8:3], [2:0] in format A. -/
theorem test_decode_add : decodeWord (.core 0) 0x00050420 = some (.add (.core 0) 0 10 2 4) := by decide +kernel
theorem test_decode_cmp : decodeWord (.core 0) 0x03420505 = some (.cmpLt (.core 0) 0 1 0 10 2 true) := by decide +kernel
theorem test_decode_or : decodeWord (.seq (.hamper 0)) 0x00000003 = some (.or (.seq (.hamper 0)) 0 0 0 0) := by decide +kernel
theorem test_decode_wrsys : decodeWord (.core 0) 0x0E201011 = some (.wrsys (.core 0) 0 8 0x11) := by decide +kernel
theorem test_decode_dqua : decodeWord (.core 0) 0x0B038A34 = some (.dqua (.core 0) 0 .d 7 5 6) := by decide +kernel
theorem test_decode_reserved : decodeWord (.core 0) 0 = none ∧ decodeWord (.core 0) 0xFFE00000 = none := by decide +kernel

/-! ## MIS-3 -/

theorem witness_IntegerResults : Runs dev ∧ SeqRuns (onSeq hseq id) hseq 0 [1, 2] [3] (settled (onSeq hseq id) hseq) :=
  ⟨dev_runs, hseq_runs _ _⟩
theorem witness_PredicateWrites : Runs dev ∧ SeqRuns (onSeq hseq id) hseq 0 [1, 2] [] (settled (onSeq hseq id) hseq) ∧
    ¬ ((1 : PReg) = 2 ∧ (1 : PReg) ≠ 0) ∧ ¬ ((0 : PReg) = 0 ∧ (0 : PReg) ≠ 0) := ⟨dev_runs, hseq_runs _ _, by decide, by decide⟩
/-- A branch forwards, a jump to an odd address, a jump to an address that is not canonical; a branch of a sequencer. -/
theorem witness_BranchesReachTheirTarget :
    (Runs dev ∧ ((fetched dev).core 0).x.pc + (1 : BitVec 21).signExtend 64 * 4 = 4 ∧ canonical (vaWidth (((fetched dev).core 0).sysr 0x22)) 4 = true) ∧
    (Runs (withG [(1, 2)]) ∧ ((fetched (withG [(1, 2)])).core 0).x.rd 1 % 4 ≠ 0) ∧
    (Runs (withG [(1, 2 ^ 62)]) ∧ canonical (vaWidth (((fetched (withG [(1, 2 ^ 62)])).core 0).sysr 0x22)) (2 ^ 62) = false) ∧
    (SeqRuns (onSeq hseq id) hseq 0 [1] [63] (settled (onSeq hseq id) hseq) ∧ ((settled (onSeq hseq id) hseq).seq (seqIx hseq)).x.rd 1 = 0) :=
  ⟨⟨dev_runs, by decide +kernel, by decide +kernel⟩, ⟨runs_of _ (by decide +kernel), by decide +kernel⟩,
    ⟨runs_of _ (by decide +kernel), by decide +kernel⟩, hseq_runs _ _, by decide +kernel⟩
def atFour (v : W64) : State := onCore fun c => { c with x := { c.x with pc := 4, g := [(5, v)] } }
def seqAtFour (v : W64) : State := onSeq hseq fun z => { z with x := { z.x with pc := 4, g := [(5, v)] } }
/-- LOOP g5, 1 at pc 4, with the counter at 3 and at 1. -/
theorem witness_LoopRepeatsItsBody :
    (Runs (atFour 3) ∧ ((fetched (atFour 3)).core 0).x.rd 5 ≠ 1 ∧ ((fetched (atFour 3)).core 0).x.pc - 4 * w64 1 = 0 ∧
      canonical (vaWidth (((fetched (atFour 3)).core 0).sysr 0x22)) 0 = true) ∧
    (Runs (atFour 1) ∧ ((fetched (atFour 1)).core 0).x.rd 5 = 1) ∧
    (SeqRuns (seqAtFour 3) hseq 0 [5] [5] (settled (seqAtFour 3) hseq) ∧ ((settled (seqAtFour 3) hseq).seq 0).x.rd 5 ≠ 1) ∧
    (SeqRuns (seqAtFour 1) hseq 0 [5] [5] (settled (seqAtFour 1) hseq) ∧ ((settled (seqAtFour 1) hseq).seq 0).x.rd 5 = 1) :=
  ⟨⟨runs_of _ (by decide +kernel), by decide +kernel, by decide +kernel, by decide +kernel⟩, ⟨runs_of _ (by decide +kernel), by decide +kernel⟩,
    ⟨seqRuns_of _ _ _ _ (by decide +kernel), by decide +kernel⟩, ⟨seqRuns_of _ _ _ _ (by decide +kernel), by decide +kernel⟩⟩
theorem witness_FalseGuardWritesNothing : agentOf (.add (.core 0) 1 3 1 2) = some (.core 0, 1) ∧
    CoreFetches dev 0 (fetched dev) (fetchEvents (fetchRes dev 0).2) ∧ ((fetched dev).core 0).x.rdp 1 = false :=
  ⟨rfl, dev_runs.toCoreFetches, by decide +kernel⟩

/-! ## Memory accesses -/

/-- An access of core 0 in the state its fetch leaves: the state after its checks, and its halves. -/
def accessOf (s : State) (va : W64) (size : Nat) (k : AccKind) (al vec : Bool) : State × AccRes := (fetched s).access 0 va size k al vec
def halvesOk : AccRes → List (Nat × Nat × MemType) | .ok h _ => h | _ => []
def eventsOk : AccRes → List (Nat × Nat) | .ok _ e => e | _ => []
/-- The access passes its checks, with these halves. -/
def Passes (s : State) (va : W64) (size : Nat) (k : AccKind) (al vec : Bool) (h : List (Nat × Nat × MemType)) : Prop :=
  (fetched s).access 0 va size k al vec = ((accessOf s va size k al vec).1, .ok h (eventsOk (accessOf s va size k al vec).2))
theorem passes_of {s : State} {va : W64} {size : Nat} {k : AccKind} {al vec : Bool} {h : List (Nat × Nat × MemType)}
    (e : halvesOk (accessOf s va size k al vec).2 = h ∧ h ≠ []) : Passes s va size k al vec h := by
  obtain ⟨rfl, n⟩ := e
  cases r : accessOf s va size k al vec with
  | mk t x => cases x <;> simp_all [Passes, accessOf, halvesOk, eventsOk]
/-- A core whose store buffer holds the bytes 0x100 to 0x107, or half of them. -/
def withSb (n : Nat) : State := onCore fun c =>
  { c with sb := [{ mt := .wb, bytes := (List.range n).map fun i => (0x100 + i, 7), sealed := false, release := false, stores := 1 }], x := { c.x with g := [(1, 0x100)] } }
def bufOf (s : State) : FMap Byte := (((s.core 0).sb.head?.map (·.bytes)).getD [])
/-- An aligned load of 8 bytes at 0x100: with an empty store buffer, one that covers it, one that covers half of it. -/
theorem witness_CoreLoadResults :
    (Runs (withSb 0) ∧ Passes (withSb 0) 0x100 8 .load false false [(0x100, 8, .wb)] ∧
      (∀ a ∈ upto 0x100 8, (accessOf dev 0x100 8 .load false false).1.poisoned (a / 64) = false ∧
        (accessOf dev 0x100 8 .load false false).1.fencedLine (a / 64) = false)) ∧
    (Runs (withSb 8) ∧ Passes (withSb 8) 0x100 8 .load false false [(0x100, 8, .wb)] ∧
      overlaps (bufOf (accessOf (withSb 8) 0x100 8 .load false false).1) (upto 0x100 8) = true ∧
      ∀ a ∈ upto 0x100 8, (bufOf (accessOf (withSb 8) 0x100 8 .load false false).1).has a = true) ∧
    (Runs (withSb 4) ∧ Passes (withSb 4) 0x100 8 .load false false [(0x100, 8, .wb)] ∧
      overlaps (bufOf (accessOf (withSb 4) 0x100 8 .load false false).1) (upto 0x100 8) = true ∧
      ∃ a ∈ upto 0x100 8, (bufOf (accessOf (withSb 4) 0x100 8 .load false false).1).has a = false) :=
  ⟨⟨runs_of _ (by decide +kernel), passes_of (by decide +kernel), by decide +kernel⟩, ⟨runs_of _ (by decide +kernel), passes_of (by decide +kernel), by decide +kernel, by decide +kernel⟩,
    ⟨runs_of _ (by decide +kernel), passes_of (by decide +kernel), by decide +kernel, by decide +kernel⟩⟩
/-- Translation on: the first GiB is WB memory, the second the same memory as UC (06/R178 to R180). -/
def xlated : State := onBytes (onCore fun c => { c with sys := [(0, 0x11), (0x20, 0x3000)] }) 0x3000 (toLe 8 0xCF ++ toLe 8 0x2CF)
theorem witness_UncachedAndDeviceLoads :
    (Runs xlated ∧ Passes xlated 0x40000100 8 .load false false [(0x100, 8, .uc)] ∧
      (∀ a ∈ upto 0x100 8, (accessOf xlated 0x40000100 8 .load false false).1.poisoned (a / 64) = false ∧
        (accessOf xlated 0x40000100 8 .load false false).1.fencedLine (a / 64) = false)) ∧
    (Runs dev ∧ Passes dev 0xFF00010001000 8 .load false false [(0xFF00010001000, 8, .strict)] ∧
      (accessOf dev 0xFF00010001000 8 .load false false).1.ownPage 0xFF00010001000 = true) :=
  ⟨⟨runs_of _ (by decide +kernel), passes_of (by decide +kernel), by decide +kernel⟩, dev_runs, passes_of (by decide +kernel), by decide +kernel⟩
theorem witness_CoreStoreResults :
    (Runs dev ∧ Passes dev 0xFFC 8 .store false false [(0xFFC, 4, .wb), (0x1000, 4, .wb)] ∧
      (accessOf dev 0xFFC 8 .store false false).1.mirrored 0 = false) ∧
    (Runs dev ∧ Passes dev 0xFF00010001008 8 .store false false [(0xFF00010001008, 8, .strict)] ∧
      (accessOf dev 0xFF00010001008 8 .store false false).1.ownPage 0xFF00010001008 = true) :=
  ⟨⟨dev_runs, passes_of (by decide +kernel), by decide +kernel⟩, dev_runs, passes_of (by decide +kernel), by decide +kernel⟩
theorem witness_BufferedStoresLeaveMemory : ((withSb 8).core 0).sb.length < 128 := by decide +kernel
/-- The buffered store once its L1D holds the line in M. -/
def owned : State := ((withSb 8).cohOwn 0 4 (some 1)).1
theorem witness_StoreDrainWritesItsBytes :
    (((withSb 8).core 0).sb.length = 1 ∧ ∃ a ∈ mapKeys (bufOf (withSb 8)), (withSb 8).l1dOwned ((withSb 8).tileOf 0) (a / 64) = false) ∧
    ((owned.core 0).sb.length = 1 ∧ (∀ a ∈ mapKeys (bufOf owned), owned.l1dOwned (owned.tileOf 0) (a / 64) = true) ∧
      (∀ a ∈ mapKeys (bufOf owned), owned.region a ≠ .reserved) ∧ (mapKeys (bufOf owned)).Nodup) := by decide +kernel
theorem witness_CoreAtomicResults :
    (Runs dev ∧ Passes dev 0x100 8 .atomic true false [(0x100, 8, .wb)]) ∧ (Runs dev ∧ Passes dev 0x200 16 .atomic true false [(0x200, 16, .wb)]) ∧
    (∀ a ∈ [0x100, 0x200], (beforeAtomic (accessOf dev 0x100 8 .atomic true false).1 0 0 a 16).poisoned (a / 64) = false ∧
      (beforeAtomic (accessOf dev 0x100 8 .atomic true false).1 0 0 a 16).fencedLine (a / 64) = false) :=
  ⟨⟨dev_runs, passes_of (by decide +kernel)⟩, ⟨dev_runs, passes_of (by decide +kernel)⟩, by decide +kernel⟩
theorem witness_UntranslatedAccesses :
    (dev.core 0).xlateOn = false ∧ (0x100 : W64).toNat % 16 = 0 ∧ (0x100 : W64).toNat + 16 ≤ dev.installed ∧ dev.installed ≤ 0x80000000000 ∧
    dev.creelOf 0 = some 1 ∧ dev.segOk 1 0x100 (rightOf .store) = true ∧ (0x101 : W64).toNat % 8 ≠ 0 := by decide +kernel
/-- A Plaiter sequencer with a job, in local mode and in shared mode. -/
def withJob (m : W64) : State :=
  { onSeq pseq (fun z => { z with mode := m, x := { z.x with g := [(1, 0x100)] } }) with units := [(0, { unitReset with jobs := [(0, jobReset)] })] }
def localOk : LocalRes → Bool | .val _ _ => true | _ => false
/-- In shared mode with the line in its cache. -/
def sharedJob : State := ((withJob 2).cohOwn (224 + seqIx pseq) 4 (some 1)).1
theorem witness_SequencerMemoryAccess :
    (SeqRuns (withJob 0) pseq 0 [1] [3] (settled (withJob 0) pseq) ∧ tbit ((settled (withJob 0) pseq).seq (seqIx pseq)).mode 1 = false ∧
      ((settled (withJob 0) pseq).seq (seqIx pseq)).badLocal = false ∧
      localOk ((settled (withJob 0) pseq).localLoad (seqIx pseq) 0x100 8 (.reg 3 8 false)) = true ∧
      localOk ((settled (withJob 0) pseq).localStore (seqIx pseq) 0x100 [1, 2, 3, 4]) = true) ∧
    (SeqRuns sharedJob pseq 0 [1] [3] (settled sharedJob pseq) ∧ tbit ((settled sharedJob pseq).seq (seqIx pseq)).mode 1 = true ∧
      (settled sharedJob pseq).sealedHit (seqIx pseq) 0x100 8 = false ∧
      (∀ w, (settled sharedJob pseq).seqCheck (seqIx pseq) 0x100 8 w = true) ∧ (settled sharedJob pseq).region 0x100 = .dram ∧
      (settled sharedJob pseq).seqDev 0x100 8 = false ∧
      (∀ l ∈ linesOf 0x100 8, (settled sharedJob pseq).seqPresent (seqIx pseq) l = true ∧ (settled sharedJob pseq).poisoned l = false ∧
        l ∉ ((settled sharedJob pseq).seq (seqIx pseq)).badLines) ∧
      ((settled sharedJob pseq).seq (seqIx pseq)).missBusy = false) :=
  ⟨⟨seqRuns_of _ _ _ _ (by decide +kernel), by decide +kernel⟩, seqRuns_of _ _ _ _ (by decide +kernel), by decide +kernel⟩
theorem witness_BarriersComplete :
    (((fetched dev).drainAll 0).wcDrainAll 0).commitGate 0 = (((fetched dev).drainAll 0).wcDrainAll 0, true) ∧
    ((((fetched dev).drainAll 0).wcDrainAll 0).core 0).strict = [] ∧ (fetched dev).mirrored 0 = false ∧ ((fetched dev).core 0).sb = [] ∧
    ((fetched (withSb 8)).core 0).sb ≠ [] ∧ ((fetched dev).core 0).priv = true ∧ Runs dev ∧ Runs (withSb 8) ∧
    SeqRuns (onSeq hseq id) hseq 0 [] [] (settled (onSeq hseq id) hseq) ∧
    ((seqBody (settled (onSeq hseq id) hseq) hseq []).seq (seqIx hseq)).missBusy = false ∧
    ((seqBody (settled (onSeq hseq id) hseq) hseq []).seq (seqIx hseq)).openIo = false :=
  ⟨rfl, by decide +kernel, by decide +kernel, by decide +kernel, by decide +kernel, by decide +kernel, dev_runs, runs_of _ (by decide +kernel),
    hseq_runs _ _, by decide +kernel, by decide +kernel⟩

/-! ## Other formats, vectors -/

/-- Binary64 1 and 2^-60, whose sum is inexact; their traps masked or not (SYS_DFPC bits 25 to 21). -/
def fpState (dfpc : W64) : State := onCore fun c => { c with sys := [(0, 1), (0x11, dfpc)], x := { c.x with g := [(1, 0x3FF0000000000000), (2, 0x3C30000000000000)] }, v := [(1, 0x3FF0000000000000), (2, 0x3C30000000000000)] }
theorem witness_BinaryFloatingPointResults : (∀ m ∈ [0, 0x3E00000], Runs (fpState m)) ∧
    (let x := ((fetched (fpState 0)).core 0).x; ∃ o ∈ fpOps, (o.op .d 0 x 3 1 2).2 ≠ 0 ∧ fld (0x3E00000 : W64) 25 21 &&& (o.op .d 0 x 3 1 2).2 ≠ 0 ∧
      fld (0 : W64) 25 21 &&& (o.op .d 0 x 3 1 2).2 = 0) := by
  refine ⟨?_, by decide +kernel⟩
  simp only [List.forall_mem_cons]
  exact ⟨runs_of _ (by decide +kernel), runs_of _ (by decide +kernel), by simp⟩
/-- Decimal64 1 and 1E-30, whose sum is inexact. -/
def decState (dfpc : W64) : State := onCore fun c => { c with sys := [(0, 1), (0x11, dfpc)], x := { c.x with g := [(1, 0x2238000000000001), (2, 0x21C0000000000001)] } }
def decSeqState (dfpc : W64) : State := onSeq hseq fun z => { z with dfpc := dfpc, x := { z.x with g := [(1, 0x2238000000000001), (2, 0x21C0000000000001)] } }
theorem witness_DecimalResults : (Runs (decState 0) ∧ Runs (decState 0xF800)) ∧
    SeqRuns (decSeqState 0) hseq 0 [1, 2] [3] (settled (decSeqState 0) hseq) ∧
    SeqRuns (decSeqState 0xF800) hseq 0 [1, 2] [3] (settled (decSeqState 0xF800) hseq) ∧
    (let x := ((fetched (decState 0)).core 0).x; ∃ o ∈ decOps, (fld (0xF800 : W64) 15 11 &&& (o.op .d 0 x 1 2).2) ≠ 0) ∧
    (∃ o ∈ decOps, o.beats.isSome = true) ∧ decEven .d 3 ∧ decEven .q 4 :=
  ⟨⟨runs_of _ (by decide +kernel), runs_of _ (by decide +kernel)⟩, seqRuns_of _ _ _ _ (by decide +kernel), seqRuns_of _ _ _ _ (by decide +kernel),
    by decide +kernel, by decide +kernel, by simp [decEven], by simp [decEven]⟩
theorem witness_VectorLaneResults : Runs dev ∧ VWidth.h ≠ .b ∧ (15 : BitVec 6).toNat < laneBits .h ∧ laneBits .h ≤ (16 : BitVec 6).toNat := ⟨dev_runs, by decide⟩
theorem witness_VectorRegisterResults : Runs dev ∧ Passes dev 0x100 32 .load false true [(0x100, 32, .wb)] ∧ Passes dev 0x100 32 .store false true [(0x100, 32, .wb)] ∧
    (∀ a ∈ upto 0x100 32, (accessOf dev 0x100 32 .load false true).1.poisoned (a / 64) = false ∧ (accessOf dev 0x100 32 .load false true).1.fencedLine (a / 64) = false) :=
  ⟨dev_runs, passes_of (by decide +kernel), passes_of (by decide +kernel), by decide +kernel⟩
theorem witness_VectorFloatingPointResults : (Runs (fpState 0) ∧ Runs (fpState 0x3E00000)) ∧
    (let u := fetched (fpState 0); ∃ o ∈ vectorFpOps .d 3 1 2, fld (0x3E00000 : W64) 25 21 &&& (((List.range (256 / o.2.1)).map (o.2.2 u 0 0)).map (·.2)).foldl (· ||| ·) 0 ≠ 0) :=
  ⟨⟨runs_of _ (by decide +kernel), runs_of _ (by decide +kernel)⟩, by decide +kernel⟩
theorem witness_CryptoAssistResults : Runs dev := dev_runs

/-! ## Exceptions and system instructions -/

def atUser : State := onCore fun c => { c with sys := [(0, 0)] }
def withVector (ie : W64) : State := onCore fun c => { c with sys := [(0, 1 + 2 * ie)], svec := [(0, 0x14)] }
theorem witness_TrapsAndReturns : Runs dev ∧ Runs atUser ∧ decodeWord (.core 0) 0 = none ∧ decodeWord (.seq hseq) 0 = none ∧ SeqRuns (onSeq hseq id) hseq 0 [] [] (settled (onSeq hseq id) hseq) ∧
    ((fetched dev).core 0).priv = true ∧ ((fetched dev).core 0).pend = [] ∧ ((fetched atUser).core 0).priv = false :=
  ⟨dev_runs, runs_of _ (by decide +kernel), by decide +kernel, by decide +kernel, hseq_runs _ _, by decide +kernel⟩
theorem witness_InterruptEntryTakesTheHighestVector :
    (dev.core 0).waiting = false ∧ (((withVector 0).settle 0).core 0).ie = false ∧ bankTop ((dev.settle 0).core 0).svec 256 = none ∧
    (dev.core 1).run ≠ .running ∧
    (((withVector 1).core 0).run = .running ∧ ((withVector 1).core 0).parked = none ∧ ((withVector 1).core 0).dev = none ∧
      ((withVector 1).core 0).waiting = false ∧ (((withVector 1).settle 0).core 0).ie = true ∧
      bankTop (((withVector 1).settle 0).core 0).svec 256 = some 4) := by decide +kernel
theorem witness_SystemRegisterReads : (Runs dev ∧ Runs atUser) ∧ (0x99 : BitVec 9).toNat ∈ userRegs ∧ (0x41 : BitVec 9).toNat ∈ sRegs ∧ (0x97 : BitVec 9).toNat ∈ pmRegs ∧
    ((fetched dev).core 0).priv = true ∧ ((fetched atUser).core 0).priv = false ∧ (0x1FF : BitVec 9).toNat ∉ userRegs ++ sRegs ++ pmRegs ∧
    (0xA : BitVec 9).toNat ∉ userRegs ++ sRegs ++ pmRegs ∧ SeqRuns (onSeq hseq id) hseq 0 [] [3] (settled (onSeq hseq id) hseq) :=
  ⟨⟨dev_runs, runs_of _ (by decide +kernel)⟩, by decide +kernel, by decide +kernel, by decide +kernel, by decide +kernel, by decide +kernel, by decide +kernel,
    by decide +kernel, hseq_runs _ _⟩
theorem witness_SystemRegisterWrites : (Runs dev ∧ ((fetched dev).core 0).priv = true) ∧ (Runs atUser ∧ ((fetched atUser).core 0).priv = false) ∧
    SeqRuns (onSeq hseq id) hseq 0 [1] [] (settled (onSeq hseq id) hseq) ∧ isPlaiter (seqIx hseq) = false :=
  ⟨⟨dev_runs, by decide +kernel⟩, ⟨runs_of _ (by decide +kernel), by decide +kernel⟩, hseq_runs _ _, by decide⟩
/-- Boundary values of the field maps: the reserved rounding modes 7 and 5 and those below them; the reserved selection 0x3C. -/
theorem witness_SystemRegisterFieldMaps : (fld (6 : W64) 2 0 ≠ 7 ∧ fld (0x26 : W64) 5 3 < 5) ∧ fld (7 : W64) 2 0 = 7 ∧ 5 ≤ fld (0x28 : W64) 5 3 ∧
    0x3C ≤ fld (0x3C : W64) 7 0 := by decide
theorem witness_IsyncPutsWritesInForce : let c : Core := { coreReset with pend := [⟨5, 0x80, 0x1E⟩, ⟨0, 3, 0x1E⟩] }
    c.pend = [⟨5, 0x80, 0x1E⟩] ++ [⟨0, 3, 0x1E⟩] ∧ (∀ p ∈ c.pend, p.reg ≠ 1) ∧ fld (2 : W64) 1 0 ≠ 3 := by decide
theorem witness_SystemInstructions : (Runs dev ∧ bankAny ((fetched dev).core 0).svec = false ∧ bankAny ((fetched dev).core 0).upend = false ∧
      ((fetched dev).core 0).priv = true) ∧ (Runs (withVector 0) ∧ bankAny ((fetched (withVector 0)).core 0).svec = true) ∧
    (Runs atUser ∧ ((fetched atUser).core 0).priv = false) ∧ (2 : Reg).getLsbD 0 = false ∧
    SeqRuns (onSeq hseq id) hseq 0 [] [2, 3] (settled (onSeq hseq id) hseq) :=
  ⟨⟨dev_runs, by decide +kernel⟩, ⟨runs_of _ (by decide +kernel), by decide +kernel⟩, ⟨runs_of _ (by decide +kernel), by decide +kernel⟩, by decide, hseq_runs _ _⟩
/-- The address that a translation gives. -/
def paOf : XlRes → Nat | .ok pa _ _ _ => pa | _ => 0
def mapsOk : XlRes → Bool | .ok _ _ none _ => true | _ => false
theorem witness_CacheMaintenance : Runs dev ∧
    mapsOk ((fetched dev).translate 0 0x100 .load false).2.1 = true ∧ isDevType (((fetched dev).translate 0 0x100 .load false).1.effType 0x100 none) = false ∧
    mapsOk ((fetched dev).translate 0 0xFF00010001000 .load false).2.1 = true ∧
    isDevType (((fetched dev).translate 0 0xFF00010001000 .load false).1.effType 0xFF00010001000 none) = true ∧ (fetched dev).tileOf 0 < 224 ∧ (fetched dev).victimHeld 4 = false ∧
    ({ dev with slices := [(homeOf 4, { sliceReset with victims := [{ line := 4, issued := false }] })] } : State).victimHeld 4 = true :=
  ⟨dev_runs, by decide +kernel⟩
/-- Counter 1 enabled for level S, counter 0 not chained and counter 1 stopped; the same for a counter that a lower one carries into. -/
theorem witness_CountersCountTheirEvents : let c : Core := { coreReset with sys := [(0x80, 2), (0x89, 0x100010)] }
    tbit (c.sysr 0x80) 0 = false ∧ tbit (c.sysr 0x80) 1 = true ∧ tbit (c.sysr 0x88) 23 = false ∧ tbit (c.sysr 0x89) 20 = true ∧ tbit (c.sysr 0x89) 21 = false := by decide

/-! ## Events of the memory system -/

/-- A load parked at 0x100, with an overlapping buffered store and without one. -/
def parkedState (n : Nat) : State := onCore fun c =>
  { c with parked := some { va := 0x100, addrs := upto 0x100 8, dest := .reg 3 8 false, acquire := false }, sb := ((withSb n).core 0).sb }
theorem witness_CoreMemoryEvents :
    ((parkedState 8).core 0).parked.isSome = true ∧ (∃ e ∈ ((parkedState 8).core 0).sb, overlaps e.bytes (upto 0x100 8) = true) ∧
    ((parkedState 0).core 0).parked.isSome = true ∧ (∀ e ∈ ((parkedState 0).core 0).sb, overlaps e.bytes (upto 0x100 8) = false) ∧
    (∀ a ∈ upto 0x100 8, (parkedState 0).poisoned (a / 64) = false ∧ (parkedState 0).fencedLine (a / 64) = false) ∧
    (((parkedState 0).core 0).parked.bind (parkedState 0).parkedReserved) = none ∧
    (dev.core 1).run ≠ .running ∧ (7 : W64) ∉ (dev.core 0).pred.conflicts ∧ (7 : W64) ∈ ((onCore fun c => { c with pred := { c.pred with conflicts := [7] } }).core 0).pred.conflicts ∧
    (dev.core 0).xlateOn = false ∧ (xlated.core 0).xlateOn = true ∧ canonical (vaWidth ((xlated.core 0).sysr 0x22)) 0x40000100 = true ∧
    canonical (vaWidth ((xlated.core 0).sysr 0x22)) 0x4000000000 = false ∧
    (match (xlated.walkAccess 0 0x40000100 false).2.2.1 with | .leaf _ _ _ _ => true | _ => false) = true ∧
    (match (xlated.walkAccess 0 0x80000000 true).2.2.1 with | .fault _ => true | _ => false) = true := by decide +kernel
def missOf (store : FMap Byte) (dest : Option LoadDest) : State :=
  onSeq hseq fun z => { z with miss := some { line := 4, addrs := upto 0x100 8, dest := dest, store := store, acquire := false, got := [], poison := false, release := false }, busy := [3] }
def doneOp : SeqOp := { dev := none, regs := [3], vals := [7], poison := true, done := true, miss := false }
theorem witness_SequencerEvents :
    ((missOf [] (some (.reg 3 8 false))).seq 0).miss.isSome = true ∧ (∀ a ∈ upto 0x100 8, (missOf [] none).poisoned (a / 64) = false ∧ (missOf [] none).fencedLine (a / 64) = false) ∧
    ((missOf [(0x100, 1)] none).seq 0).miss.isSome = true ∧ (missOf [(0x100, 1)] none).seqCreel 0 = none ∧
    (((onSeq hseq fun z => { z with ops := [doneOp], busy := [3, 4] }).seq 0).ops.find? (fun o => o.done)) = some doneOp ∧
    ((dev.seq 0).ops.all fun o => !o.done) = true ∧ ((onSeq hseq fun z => { z with modeQ := [(0, 2), (1, 0)] }).seq 0).modeQ = [(0, 2), (1, 0)] := by decide +kernel
/-- Line 4 in no cache; read by tile 0 alone; read by tiles 0 and 1; written by tile 0; written by tile 0 and then read by tile 1. -/
def lineE : State := (dev.cohRead 0 4 false (some 1)).1
def lineS : State := (lineE.cohRead 1 4 false (some 1)).1
def lineM : State := (dev.cohOwn 0 4 (some 1)).1
def lineO : State := (lineM.cohRead 1 4 false (some 1)).1
theorem witness_CoherenceRequests : cacheable dev 4 = true ∧ dev.privSt 0 4 = none ∧ dev.dirOf 4 = none ∧ dev.fencedLine 4 = false ∧
    lineE.privSt 0 4 = some .e ∧ (lineE.dirOf 4).isSome = true ∧ lineS.privSt 1 4 = some .s ∧ lineM.privSt 0 4 = some .m ∧ (lineM.dirOf 4).isSome = true ∧
    lineO.privSt 0 4 = some .o ∧ dev.coreAt 300 = none ∧ dev.coreAt 0 = some 0 := by decide +kernel
theorem witness_SliceAndWireEvents : (dev.slice 0).reserveUsed < 2 ∧ 2 ≤ (({ dev with slices := [(0, { sliceReset with reserveUsed := 2 })] } : State).slice 0).reserveUsed ∧
    (∀ q ∈ (dev.slice (homeOf 4)).waitq, q.line ≠ 4) ∧ dev.homeBusy 4 = false ∧
    ({ dev with slices := [(homeOf 4, { sliceReset with fills := [{ line := 4, agent := 1, arrived := false }] })] } : State).homeBusy 4 = true := by
  decide +kernel

/-! ## Memory channels -/

def onChan (f : Chan → Chan) : State := { dev with chans := [(0, f { chanReset with st := .service, ranks := 4, bin := 3, known := [3, 2] })] }
theorem witness_ChannelReadsAndWrites : (onChan id).servesLine 0 0 = true ∧ channelOf 0 = 0 ∧ (onChan id).region 0 = .dram ∧ (onChan id).fencedLine 0 = false ∧
    (onChan id).poisoned 0 = false ∧ targetOf (({ onChan id with qosCfg := [(1, 0x6400000000)] } : State).qos 1) = 100 := by decide +kernel
def fencedState : State := onChan fun c => { c with st := .degraded, fenced := 1, ranks := 1 }
theorem witness_FencedWritesAreDiscarded : fencedState.servesLine 0 0 = true ∧ channelOf 0 = 0 ∧ fencedState.region 0 = .dram ∧ fencedState.fencedLine 0 = true := by
  refine ⟨by decide +kernel, rfl, rfl, ?_⟩
  have h : (fencedState.chan (channelOf 0)).rankOf 0 = 0 := by
    show (if none = some (Config.rankOf 0 % 1) then 0 else Config.rankOf 0 % 1) = 0
    simp [Nat.mod_one]
  simp only [State.fencedLine, h]
  decide +kernel
def bankWith (since : Nat) : State := onChan fun c => { c with banks := [(0, { bankReset with track := [{ row := 5, count := 9, since := since, ports := [] }] })] }
/-- A copy of rank 0 of channel 0, with one line to copy or none. -/
def copying (n : Nat) : State := { onChan fun c => { c with ranks := 1, reserveRank := 1, copy := some { source := 0, boundary := 0, paused := false } } with installed := 64 * n }
theorem copying_next : (copying 1).nextOfRank 0 0 0 = some 0 := by
  have h : ((copying 1).chan 0).rankOf 0 = 0 := by
    show (if none = some (Config.rankOf 0 % 1) then 1 else Config.rankOf 0 % 1) = 0
    simp [Nat.mod_one]
  show ([0].find? fun l => decide (channelOf l = 0) && decide (((copying 1).chan 0).rankOf l = 0)) = some 0
  simp only [List.find?, h]
  decide +kernel
theorem witness_ChannelMaintenance :
    (((bankWith 510).chan 0).bank 0).holds 1 0 = false ∧
    ((((onChan fun c => { c with banks := [(0, { bankReset with throttled := [1], acts := [(1, 0)] })] }).chan 0).bank 0).holds 1 0 = true) ∧
    ((((bankWith 510).chan 0).bank 0).track.find? (fun e => e.row = 5)).isSome = true ∧ 510 + 1 < (bankWith 510).stake.mitigation ∧
    (((bankWith 511).chan 0).bank 0).track.isEmpty = false ∧ (bankWith 511).stake.mitigation ≤ 511 + 1 ∧
    (((onChan id).chan 0).bank 0).patience = some 200 ∧ passed 0 0 200 = false ∧ passed 859 0 200 = true ∧
    (onChan id).servesLine 0 ((onChan id).nextLine 0 0) = true ∧ (onChan id).installed ≠ 0 ∧
    ((onChan fun c => { c with repair := [rowKey 1 2] }).chan 0).repair.contains (rowKey 1 2) = true ∧ ((onChan id).chan 0).serves = true ∧
    ((onChan id).chan 0).trainRank ≠ some 0 ∧ wayBit ((onChan id).chan 0).fenced 0 = false ∧
    ((copying 1).chan 0).copy.isSome = true ∧ ((copying 1).chan 0).copyGoes { source := 0, boundary := 0, paused := false } = true ∧
    ((copying 1).chan 0).copyGoes { source := 0, boundary := 0, paused := true } = false ∧ (copying 0).nextOfRank 0 0 0 = none := by
  decide +kernel
def retraining (back : Bool) : State := onChan fun c => { c with st := .retrain, fellBack := back, trainRank := some 2 }
theorem witness_ChannelTrainingAndShares : ((onChan id).chan 0).st = .service ∧ ((onChan fun c => { c with st := .degraded }).chan 0).st = .degraded ∧
    (onChan id).changing = false ∧ wayBit ((onChan id).chan 0).fenced 2 = false ∧ ((onChan id).chan 0).trainDue 2 0 0 = true ∧
    ((retraining true).chan 0).st = .retrain ∧ ((retraining true).chan 0).trainRank = some 2 ∧ (retraining true).stake.started = [] ∧
    ((retraining true).chan 0).reserveRank ≠ 2 ∧ ((retraining true).chan 0).copy = none ∧ ((retraining true).chan 0).fellBack = true ∧
    ((retraining false).chan 0).fellBack = false ∧ (∃ b ∈ ((retraining false).chan 0).known, 0 < b ∧ b < ((retraining false).chan 0).bin) ∧
    ((onChan fun c => { c with st := .fallback }).chan 0).st = .fallback ∧ dev.training = false ∧ (retraining true).training = true ∧ (63 : QosPort).val < 64 := by
  decide +kernel

/-! ## Commands of the Stake -/

def onStake (f : Stake → Stake) : State := { dev with stake := f dev.stake }
/-- A command of a port for creel 1 with these words from word 2 on, accepted and first. -/
def cmd (op : Nat) (ws : List W64) : Cmd :=
  { port := 64, slot := 0, op := op, tag := 7, irq := false, creel := 1, words := ws, life := 4 }
def given (s : State) (c : Cmd) : State := s.modStake fun m => { m with accepted := [c] }
/-- The hypotheses of a row's statement: the command is the row's and first, no state of the device refuses it, and the row's own condition. -/
def Meets (o : MbxOp) (s : State) (c : Cmd) : Prop :=
  (given s c).takeCmd c.port 0 o.op = some c ∧
  ((given s c).modStake fun m => { m with accepted := m.accepted.filter (· ≠ c) }).stateRefuses c = none ∧
  o.ok ((given s c).modStake fun m => { m with accepted := m.accepted.filter (· ≠ c) }) c
/-- Some row of a family of commands is met by the device and a command with these words. The row's number in its list is for the proof. -/
def MetAt (P : MbxOp → Prop) (_row : Nat) (s : State) (ws : List W64) : Prop := ∃ o, P o ∧ Meets o s (cmd o.op ws)
def st1 : State := dev.logRec 2 4 0x32 5 1 7
def st2 : State := { dev with bbkm := { dev.bbkm with life := 1 } }
def st3 : State := { dev with bbkm := { dev.bbkm with cards := [11, 12, 13, 14, 15, 16, 17, 18] } }
def st4 : State := onCreel fun x => { x with st := .unassigned }
def st5 : State := onCreel fun x => { x with st := .stopped }
def st6 : State := (onStake fun m => { m with bootImgs := [(1, [1, 2, 3])], boots := [(1, { bootRecReset with digest := sha384 [1, 2, 3], loadAddr := 0x1000, entry := 16, length := 3 })] }).modCreel 1 fun x => { x with st := .stopped }
def st7 : State := onCore fun c => { c with strict := [{ tag := 0, lg := 0, pa := 0, window := 0 }] }
def st8 : State := { onCreel (fun x => { x with segs := [(63, hubEntry)] }) with coreCreel := [] }
def st9 : State := onCreel fun x => { x with quota := [(1, 4)] }
def st10 : State := onCreel fun x => { x with quota := [(1, 1)] }
def st11 : State := onCore fun c => { c with run := .gated }
def st12 : State := onCreel fun x => { x with breach := 0xFFFFFFFFFFFFFFFF }
def st13 : State := { dev with chans := (List.range 16).map fun i => (i, { chanReset with st := .service, known := [0, 1, 2], ranks := 4, reserveRank := 4 }) }
def st14 : State := { dev with chans := (List.range 16).map fun i => (i, { chanReset with st := .training, known := [0, 1, 2], ranks := 4, reserveRank := 4 }) }
def st15 : State := { dev with hoop := { hoopReset with st := 1 } }
def st16 : State := { dev with hoop := { hoopReset with stepNeeded := true, qual := 4, offs := [(2, 0x200000000)] } }
def st17 : State := { dev with pair := { pairReset with st := 3 } }
def st18 : State := { dev with pair := { pairReset with st := 4, roles := [(1, 1)] } }
def st19 : State := { dev with pair := { pairReset with st := 4, roles := [(1, 2)] } }
def st20 : State := onStake fun m => { m with comps := [{ creel := 1, set := 2, ix := 0, card := 5, key := zeros 32, kcv := 0 }] }
def st21 : State := onStake fun m => { m with upd := { m.upd with st := 4 } }
def st22 : State := onStake fun m => { m with upd := { m.upd with st := 1 } }
def st23 : State := { onStake fun m => { m with upd := { m.upd with st := 1 } } with units := [(0, { unitReset with jobs := [(0, jobReset)] })] }
def st24 : State := onStake fun m => { m with upd := { m.upd with st := 1, lowVbat := true } }
def st25 : State := { onStake fun m => { m with upd := { m.upd with st := 3 } } with clock := 2 ^ 38 }
def st26 : State := onStake fun m => { m with upd := { m.upd with st := 3, lowVbat := true } }
def st27 : State := onStake fun m => { m with upd := { m.upd with st := 3 } }
def st28 : State := { onStake fun m => { m with upd := { m.upd with st := 3 } } with units := [(0, { unitReset with jobs := [(0, jobReset)] })] }
def st29 : State := onStake fun m => { m with cfgs := [(0, cfgSlotReset)] }
def st30 : State := onStake fun m => { m with dev := { m.dev with hamask := [(9, 4)] } }
set_option maxRecDepth 4000 in
theorem witness_DeviceCommandEffects :
    MetAt (deviceCommands 5) 0 dev [3] ∧
    MetAt (deviceCommands 5) 1 dev [] ∧
    MetAt (deviceCommands 5) 2 dev [0x8000000000000000] ∧
    MetAt (deviceCommands 5) 3 st1 [0] ∧
    MetAt (deviceCommands 5) 4 dev [1] ∧
    MetAt (deviceCommands 5) 5 st2 [1, 2, 3, 4, 5, 6] ∧
    MetAt (deviceCommands 5) 6 dev [1, 2, 3, 4, 5, 6] ∧
    MetAt (deviceCommands 5) 7 dev [] ∧
    MetAt (deviceCommands 5) 8 dev [] ∧
    MetAt (deviceCommands 5) 9 dev [] ∧
    MetAt (deviceCommands 5) 10 dev [] ∧
    MetAt (deviceCommands 5) 11 dev [] ∧
    MetAt (deviceCommands 5) 12 dev [] ∧
    MetAt (deviceCommands 5) 13 dev [] ∧
    MetAt (deviceCommands 5) 14 st3 [] ∧
    MetAt (deviceCommands 5) 15 dev [3, 0xA003] ∧
    MetAt (deviceCommands 5) 16 dev [3] ∧
    MetAt (deviceCommands 5) 17 dev [] ∧
    MetAt (deviceCommands 5) 18 dev [2, 1, 2, 3, 4, 5, 6] ∧
    MetAt (deviceCommands 5) 19 dev [2, 0, 0, 0, 0, 0, 0] := by
  refine ⟨⟨_, List.mem_of_getElem? (i := 0) rfl, rfl, rfl, ?_⟩, ⟨_, List.mem_of_getElem? (i := 1) rfl, rfl, rfl, ?_⟩, ⟨_, List.mem_of_getElem? (i := 2) rfl, rfl, rfl, ?_⟩, ⟨_, List.mem_of_getElem? (i := 3) rfl, rfl, rfl, ?_⟩, ⟨_, List.mem_of_getElem? (i := 4) rfl, rfl, rfl, ?_⟩, ⟨_, List.mem_of_getElem? (i := 5) rfl, rfl, rfl, ?_⟩, ⟨_, List.mem_of_getElem? (i := 6) rfl, rfl, rfl, ?_⟩, ⟨_, List.mem_of_getElem? (i := 7) rfl, rfl, rfl, ?_⟩, ⟨_, List.mem_of_getElem? (i := 8) rfl, rfl, rfl, ?_⟩, ⟨_, List.mem_of_getElem? (i := 9) rfl, rfl, rfl, ?_⟩, ⟨_, List.mem_of_getElem? (i := 10) rfl, rfl, rfl, ?_⟩, ⟨_, List.mem_of_getElem? (i := 11) rfl, rfl, rfl, ?_⟩, ⟨_, List.mem_of_getElem? (i := 12) rfl, rfl, rfl, ?_⟩, ⟨_, List.mem_of_getElem? (i := 13) rfl, rfl, rfl, ?_⟩, ⟨_, List.mem_of_getElem? (i := 14) rfl, rfl, rfl, ?_⟩, ⟨_, List.mem_of_getElem? (i := 15) rfl, rfl, rfl, ?_⟩, ⟨_, List.mem_of_getElem? (i := 16) rfl, rfl, rfl, ?_⟩, ⟨_, List.mem_of_getElem? (i := 17) rfl, rfl, rfl, ?_⟩, ⟨_, List.mem_of_getElem? (i := 18) rfl, rfl, rfl, ?_⟩, ⟨_, List.mem_of_getElem? (i := 19) rfl, rfl, rfl, ?_⟩⟩
  all_goals first | (first | exact True.intro | rfl | decide +kernel | (intros; rfl) | (unfold notResetting; decide +kernel) | (unfold unpaused; decide +kernel) | (refine Exists.intro _ ?_; decide +kernel) | (unfold noSpeed; intro r h; exact absurd (show r ∈ ([] : List RunCmd) from h) (by simp)) | exact ⟨2, by decide +kernel, by decide +kernel⟩) | ((try (conv => whnf)); (repeat' (apply And.intro)); all_goals first | exact True.intro | rfl | decide +kernel | (intros; rfl) | (unfold notResetting; decide +kernel) | (unfold unpaused; decide +kernel) | (refine Exists.intro _ ?_; decide +kernel) | (unfold noSpeed; intro r h; exact absurd (show r ∈ ([] : List RunCmd) from h) (by simp)) | exact ⟨2, by decide +kernel, by decide +kernel⟩)
set_option maxRecDepth 4000 in
theorem witness_CreelCommandEffects :
    MetAt creelCommands 0 st4 [3, 0, 0, 1] ∧
    MetAt creelCommands 1 st5 [2, 0x2000000, 0x1000] ∧
    MetAt creelCommands 2 st5 [0, 0, 0] ∧
    MetAt creelCommands 3 st5 [] ∧
    MetAt creelCommands 4 dev [1, 4] ∧
    MetAt creelCommands 5 dev [0xFFFF, 0] ∧
    MetAt creelCommands 6 dev [0xFF, 0] ∧
    MetAt creelCommands 7 dev [3, 0x6400000000] ∧
    MetAt creelCommands 8 st6 [] ∧
    MetAt creelCommands 9 st5 [] ∧
    MetAt creelCommands 10 dev [] ∧
    MetAt creelCommands 11 dev [] ∧
    MetAt creelCommands 12 st7 [] ∧
    MetAt creelCommands 13 st8 [5, 0x1F, 0xFFF000] ∧
    MetAt creelCommands 14 dev [0] ∧
    MetAt creelCommands 15 st9 [1] ∧
    MetAt creelCommands 16 st10 [1] ∧
    MetAt creelCommands 17 dev [0] ∧
    MetAt creelCommands 18 dev [5] ∧
    MetAt creelCommands 19 st11 [0] ∧
    MetAt creelCommands 20 st12 [] := by
  refine ⟨⟨_, List.mem_of_getElem? (i := 0) rfl, rfl, rfl, ?_⟩, ⟨_, List.mem_of_getElem? (i := 1) rfl, rfl, rfl, ?_⟩, ⟨_, List.mem_of_getElem? (i := 2) rfl, rfl, rfl, ?_⟩, ⟨_, List.mem_of_getElem? (i := 3) rfl, rfl, rfl, ?_⟩, ⟨_, List.mem_of_getElem? (i := 4) rfl, rfl, rfl, ?_⟩, ⟨_, List.mem_of_getElem? (i := 5) rfl, rfl, rfl, ?_⟩, ⟨_, List.mem_of_getElem? (i := 6) rfl, rfl, rfl, ?_⟩, ⟨_, List.mem_of_getElem? (i := 7) rfl, rfl, rfl, ?_⟩, ⟨_, List.mem_of_getElem? (i := 8) rfl, rfl, rfl, ?_⟩, ⟨_, List.mem_of_getElem? (i := 9) rfl, rfl, rfl, ?_⟩, ⟨_, List.mem_of_getElem? (i := 10) rfl, rfl, rfl, ?_⟩, ⟨_, List.mem_of_getElem? (i := 11) rfl, rfl, rfl, ?_⟩, ⟨_, List.mem_of_getElem? (i := 12) rfl, rfl, rfl, ?_⟩, ⟨_, List.mem_of_getElem? (i := 13) rfl, rfl, rfl, ?_⟩, ⟨_, List.mem_of_getElem? (i := 14) rfl, rfl, rfl, ?_⟩, ⟨_, List.mem_of_getElem? (i := 15) rfl, rfl, rfl, ?_⟩, ⟨_, List.mem_of_getElem? (i := 16) rfl, rfl, rfl, ?_⟩, ⟨_, List.mem_of_getElem? (i := 17) rfl, rfl, rfl, ?_⟩, ⟨_, List.mem_of_getElem? (i := 18) rfl, rfl, rfl, ?_⟩, ⟨_, List.mem_of_getElem? (i := 19) rfl, rfl, rfl, ?_⟩, ⟨_, List.mem_of_getElem? (i := 20) rfl, rfl, rfl, ?_⟩⟩
  all_goals first | (first | exact True.intro | rfl | decide +kernel | (intros; rfl) | (unfold notResetting; decide +kernel) | (unfold unpaused; decide +kernel) | (refine Exists.intro _ ?_; decide +kernel) | (unfold noSpeed; intro r h; exact absurd (show r ∈ ([] : List RunCmd) from h) (by simp)) | exact ⟨2, by decide +kernel, by decide +kernel⟩) | ((try (conv => whnf)); (repeat' (apply And.intro)); all_goals first | exact True.intro | rfl | decide +kernel | (intros; rfl) | (unfold notResetting; decide +kernel) | (unfold unpaused; decide +kernel) | (refine Exists.intro _ ?_; decide +kernel) | (unfold noSpeed; intro r h; exact absurd (show r ∈ ([] : List RunCmd) from h) (by simp)) | exact ⟨2, by decide +kernel, by decide +kernel⟩)
set_option maxRecDepth 4000 in
theorem witness_MemoryCommandEffects :
    MetAt memoryCommands 0 dev [0] ∧
    MetAt memoryCommands 1 st13 [1] ∧
    MetAt memoryCommands 2 st14 [1] ∧
    MetAt memoryCommands 3 st13 [2, 1] ∧
    MetAt memoryCommands 4 dev [0, 0x1000] ∧
    MetAt memoryCommands 6 dev [12] ∧
    MetAt memoryCommands 7 dev [100, 200] ∧
    MetAt memoryCommands 8 dev [3, 2, 1] ∧
    MetAt memoryCommands 9 dev [3] ∧
    MetAt memoryCommands 10 dev [] ∧
    MetAt memoryCommands 11 dev [0] ∧
    MetAt memoryCommands 12 dev [] := by
  refine ⟨⟨_, List.mem_of_getElem? (i := 0) rfl, rfl, rfl, ?_⟩, ⟨_, List.mem_of_getElem? (i := 1) rfl, rfl, rfl, ?_⟩, ⟨_, List.mem_of_getElem? (i := 2) rfl, rfl, rfl, ?_⟩, ⟨_, List.mem_of_getElem? (i := 3) rfl, rfl, rfl, ?_⟩, ⟨_, List.mem_of_getElem? (i := 4) rfl, rfl, rfl, ?_⟩, ⟨_, List.mem_of_getElem? (i := 6) rfl, rfl, rfl, ?_⟩, ⟨_, List.mem_of_getElem? (i := 7) rfl, rfl, rfl, ?_⟩, ⟨_, List.mem_of_getElem? (i := 8) rfl, rfl, rfl, ?_⟩, ⟨_, List.mem_of_getElem? (i := 9) rfl, rfl, rfl, ?_⟩, ⟨_, List.mem_of_getElem? (i := 10) rfl, rfl, rfl, ?_⟩, ⟨_, List.mem_of_getElem? (i := 11) rfl, rfl, rfl, ?_⟩, ⟨_, List.mem_of_getElem? (i := 12) rfl, rfl, rfl, ?_⟩⟩
  all_goals first | (first | exact True.intro | rfl | decide +kernel | (intros; rfl) | (unfold notResetting; decide +kernel) | (unfold unpaused; decide +kernel) | (refine Exists.intro _ ?_; decide +kernel) | (unfold noSpeed; intro r h; exact absurd (show r ∈ ([] : List RunCmd) from h) (by simp)) | exact ⟨2, by decide +kernel, by decide +kernel⟩) | ((try (conv => whnf)); (repeat' (apply And.intro)); all_goals first | exact True.intro | rfl | decide +kernel | (intros; rfl) | (unfold notResetting; decide +kernel) | (unfold unpaused; decide +kernel) | (refine Exists.intro _ ?_; decide +kernel) | (unfold noSpeed; intro r h; exact absurd (show r ∈ ([] : List RunCmd) from h) (by simp)) | exact ⟨2, by decide +kernel, by decide +kernel⟩)
set_option maxRecDepth 4000 in
theorem witness_HoopCommandEffects :
    MetAt hoopCommands 0 dev [] ∧
    MetAt hoopCommands 1 dev [0x321, 14400] ∧
    MetAt hoopCommands 2 dev [1] ∧
    MetAt hoopCommands 3 dev [0] ∧
    MetAt hoopCommands 4 dev [1, 2, 37] ∧
    MetAt hoopCommands 5 dev [1000] ∧
    MetAt hoopCommands 6 st15 [1000] ∧
    MetAt hoopCommands 7 st16 [] ∧
    MetAt hoopCommands 8 dev [] := by
  refine ⟨⟨_, List.mem_of_getElem? (i := 0) rfl, rfl, rfl, ?_⟩, ⟨_, List.mem_of_getElem? (i := 1) rfl, rfl, rfl, ?_⟩, ⟨_, List.mem_of_getElem? (i := 2) rfl, rfl, rfl, ?_⟩, ⟨_, List.mem_of_getElem? (i := 3) rfl, rfl, rfl, ?_⟩, ⟨_, List.mem_of_getElem? (i := 4) rfl, rfl, rfl, ?_⟩, ⟨_, List.mem_of_getElem? (i := 5) rfl, rfl, rfl, ?_⟩, ⟨_, List.mem_of_getElem? (i := 6) rfl, rfl, rfl, ?_⟩, ⟨_, List.mem_of_getElem? (i := 7) rfl, rfl, rfl, ?_⟩, ⟨_, List.mem_of_getElem? (i := 8) rfl, rfl, rfl, ?_⟩⟩
  all_goals first | (first | exact True.intro | rfl | decide +kernel | (intros; rfl) | (unfold notResetting; decide +kernel) | (unfold unpaused; decide +kernel) | (refine Exists.intro _ ?_; decide +kernel) | (unfold noSpeed; intro r h; exact absurd (show r ∈ ([] : List RunCmd) from h) (by simp)) | exact ⟨2, by decide +kernel, by decide +kernel⟩) | ((try (conv => whnf)); (repeat' (apply And.intro)); all_goals first | exact True.intro | rfl | decide +kernel | (intros; rfl) | (unfold notResetting; decide +kernel) | (unfold unpaused; decide +kernel) | (refine Exists.intro _ ?_; decide +kernel) | (unfold noSpeed; intro r h; exact absurd (show r ∈ ([] : List RunCmd) from h) (by simp)) | exact ⟨2, by decide +kernel, by decide +kernel⟩)
set_option maxRecDepth 4000 in
theorem witness_PairCommandEffects :
    MetAt (pairCommands (toLe 8 1 ++ toLe 8 2) 5 6 [] true) 0 dev [1, 2] ∧
    MetAt (pairCommands (toLe 8 1 ++ toLe 8 2) 5 6 [] true) 1 dev [1, 2] ∧
    MetAt (pairCommands (toLe 8 1 ++ toLe 8 2) 5 6 [] true) 2 dev [] ∧
    MetAt (pairCommands (toLe 8 1 ++ toLe 8 2) 5 6 [] true) 3 dev [1, 0x3E8001E0000] ∧
    MetAt (pairCommands (toLe 8 1 ++ toLe 8 2) 5 6 [] true) 4 st17 [1, 0x3E8001E0000] ∧
    MetAt (pairCommands (toLe 8 1 ++ toLe 8 2) 5 6 [] true) 5 dev [1, 1] ∧
    MetAt (pairCommands (toLe 8 1 ++ toLe 8 2) 5 6 [] true) 6 dev [1, 0, 1] ∧
    MetAt (pairCommands (toLe 8 1 ++ toLe 8 2) 5 6 [] true) 8 dev [1, 0x2000000, 1] ∧
    MetAt (pairCommands (toLe 8 1 ++ toLe 8 2) 5 6 [] true) 9 st18 [] ∧
    MetAt (pairCommands (toLe 8 1 ++ toLe 8 2) 5 6 [] true) 10 st19 [] ∧
    MetAt (pairCommands (toLe 8 1 ++ toLe 8 2) 5 6 [] true) 11 dev [] ∧
    MetAt (pairCommands (toLe 8 1 ++ toLe 8 2) 5 6 [] true) 12 dev [0, 0, 0, 0] ∧
    MetAt (pairCommands (toLe 8 1 ++ toLe 8 2) 5 6 [] true) 13 st20 [0, 0, 0, 0x10002] ∧
    MetAt (pairCommands (toLe 8 1 ++ toLe 8 2) 5 6 [] true) 14 dev [0, 0, 0, 0x10002] ∧
    MetAt (pairCommands (toLe 8 1 ++ toLe 8 2) 5 6 [] true) 15 dev [] := by
  refine ⟨⟨_, List.mem_of_getElem? (i := 0) rfl, rfl, rfl, ?_⟩, ⟨_, List.mem_of_getElem? (i := 1) rfl, rfl, rfl, ?_⟩, ⟨_, List.mem_of_getElem? (i := 2) rfl, rfl, rfl, ?_⟩, ⟨_, List.mem_of_getElem? (i := 3) rfl, rfl, rfl, ?_⟩, ⟨_, List.mem_of_getElem? (i := 4) rfl, rfl, rfl, ?_⟩, ⟨_, List.mem_of_getElem? (i := 5) rfl, rfl, rfl, ?_⟩, ⟨_, List.mem_of_getElem? (i := 6) rfl, rfl, rfl, ?_⟩, ⟨_, List.mem_of_getElem? (i := 8) rfl, rfl, rfl, ?_⟩, ⟨_, List.mem_of_getElem? (i := 9) rfl, rfl, rfl, ?_⟩, ⟨_, List.mem_of_getElem? (i := 10) rfl, rfl, rfl, ?_⟩, ⟨_, List.mem_of_getElem? (i := 11) rfl, rfl, rfl, ?_⟩, ⟨_, List.mem_of_getElem? (i := 12) rfl, rfl, rfl, ?_⟩, ⟨_, List.mem_of_getElem? (i := 13) rfl, rfl, rfl, ?_⟩, ⟨_, List.mem_of_getElem? (i := 14) rfl, rfl, rfl, ?_⟩, ⟨_, List.mem_of_getElem? (i := 15) rfl, rfl, rfl, ?_⟩⟩
  all_goals first | (first | exact True.intro | rfl | decide +kernel | (intros; rfl) | (unfold notResetting; decide +kernel) | (unfold unpaused; decide +kernel) | (refine Exists.intro _ ?_; decide +kernel) | (unfold noSpeed; intro r h; exact absurd (show r ∈ ([] : List RunCmd) from h) (by simp)) | exact ⟨2, by decide +kernel, by decide +kernel⟩) | ((try (conv => whnf)); (repeat' (apply And.intro)); all_goals first | exact True.intro | rfl | decide +kernel | (intros; rfl) | (unfold notResetting; decide +kernel) | (unfold unpaused; decide +kernel) | (refine Exists.intro _ ?_; decide +kernel) | (unfold noSpeed; intro r h; exact absurd (show r ∈ ([] : List RunCmd) from h) (by simp)) | exact ⟨2, by decide +kernel, by decide +kernel⟩)
set_option maxRecDepth 4000 in
theorem witness_UpdateCommandEffects :
    MetAt updateCommands 2 st21 [1, 0, 0x1000] ∧
    MetAt updateCommands 3 st22 [] ∧
    MetAt updateCommands 4 st23 [] ∧
    MetAt updateCommands 5 st24 [] ∧
    MetAt updateCommands 6 st25 [] ∧
    MetAt updateCommands 7 st26 [] ∧
    MetAt updateCommands 8 st27 [] ∧
    MetAt updateCommands 9 st28 [] ∧
    MetAt updateCommands 10 dev [] := by
  refine ⟨⟨_, List.mem_of_getElem? (i := 2) rfl, rfl, rfl, ?_⟩, ⟨_, List.mem_of_getElem? (i := 3) rfl, rfl, rfl, ?_⟩, ⟨_, List.mem_of_getElem? (i := 4) rfl, rfl, rfl, ?_⟩, ⟨_, List.mem_of_getElem? (i := 5) rfl, rfl, rfl, ?_⟩, ⟨_, List.mem_of_getElem? (i := 6) rfl, rfl, rfl, ?_⟩, ⟨_, List.mem_of_getElem? (i := 7) rfl, rfl, rfl, ?_⟩, ⟨_, List.mem_of_getElem? (i := 8) rfl, rfl, rfl, ?_⟩, ⟨_, List.mem_of_getElem? (i := 9) rfl, rfl, rfl, ?_⟩, ⟨_, List.mem_of_getElem? (i := 10) rfl, rfl, rfl, ?_⟩⟩
  all_goals first | (first | exact True.intro | rfl | decide +kernel | (intros; rfl) | (unfold notResetting; decide +kernel) | (unfold unpaused; decide +kernel) | (refine Exists.intro _ ?_; decide +kernel) | (unfold noSpeed; intro r h; exact absurd (show r ∈ ([] : List RunCmd) from h) (by simp)) | exact ⟨2, by decide +kernel, by decide +kernel⟩) | ((try (conv => whnf)); (repeat' (apply And.intro)); all_goals first | exact True.intro | rfl | decide +kernel | (intros; rfl) | (unfold notResetting; decide +kernel) | (unfold unpaused; decide +kernel) | (refine Exists.intro _ ?_; decide +kernel) | (unfold noSpeed; intro r h; exact absurd (show r ∈ ([] : List RunCmd) from h) (by simp)) | exact ⟨2, by decide +kernel, by decide +kernel⟩)
set_option maxRecDepth 4000 in
theorem witness_ConfigCommandEffects :
    MetAt configCommands 0 dev [] ∧
    MetAt configCommands 1 dev [] ∧
    MetAt configCommands 2 st29 [0] ∧
    MetAt configCommands 3 st5 [1, 0, 0x1000, 0x2000, 16, 1] ∧
    MetAt configCommands 4 dev [1, 0, 0x1000, 0x2000, 16, 1] ∧
    MetAt configCommands 5 dev [1, 3, 5] ∧
    MetAt configCommands 6 dev [2, 8, 5] ∧
    MetAt configCommands 7 st30 [2, 8, 5] ∧
    MetAt configCommands 8 dev [3, 0, 5] ∧
    MetAt configCommands 9 dev [4, 0, 5, 6] ∧
    MetAt configCommands 10 dev [5, 0, 16] ∧
    MetAt configCommands 11 dev [6, 0, 1] ∧
    MetAt configCommands 12 dev [10, 1] ∧
    MetAt configCommands 13 dev [] := by
  refine ⟨⟨_, List.mem_of_getElem? (i := 0) rfl, rfl, rfl, ?_⟩, ⟨_, List.mem_of_getElem? (i := 1) rfl, rfl, rfl, ?_⟩, ⟨_, List.mem_of_getElem? (i := 2) rfl, rfl, rfl, ?_⟩, ⟨_, List.mem_of_getElem? (i := 3) rfl, rfl, rfl, ?_⟩, ⟨_, List.mem_of_getElem? (i := 4) rfl, rfl, rfl, ?_⟩, ⟨_, List.mem_of_getElem? (i := 5) rfl, rfl, rfl, ?_⟩, ⟨_, List.mem_of_getElem? (i := 6) rfl, rfl, rfl, ?_⟩, ⟨_, List.mem_of_getElem? (i := 7) rfl, rfl, rfl, ?_⟩, ⟨_, List.mem_of_getElem? (i := 8) rfl, rfl, rfl, ?_⟩, ⟨_, List.mem_of_getElem? (i := 9) rfl, rfl, rfl, ?_⟩, ⟨_, List.mem_of_getElem? (i := 10) rfl, rfl, rfl, ?_⟩, ⟨_, List.mem_of_getElem? (i := 11) rfl, rfl, rfl, ?_⟩, ⟨_, List.mem_of_getElem? (i := 12) rfl, rfl, rfl, ?_⟩, ⟨_, List.mem_of_getElem? (i := 13) rfl, rfl, rfl, ?_⟩⟩
  all_goals first | (first | exact True.intro | rfl | decide +kernel | (intros; rfl) | (unfold notResetting; decide +kernel) | (unfold unpaused; decide +kernel) | (refine Exists.intro _ ?_; decide +kernel) | (unfold noSpeed; intro r h; exact absurd (show r ∈ ([] : List RunCmd) from h) (by simp)) | exact ⟨2, by decide +kernel, by decide +kernel⟩) | ((try (conv => whnf)); (repeat' (apply And.intro)); all_goals first | exact True.intro | rfl | decide +kernel | (intros; rfl) | (unfold notResetting; decide +kernel) | (unfold unpaused; decide +kernel) | (refine Exists.intro _ ?_; decide +kernel) | (unfold noSpeed; intro r h; exact absurd (show r ∈ ([] : List RunCmd) from h) (by simp)) | exact ⟨2, by decide +kernel, by decide +kernel⟩)
/-- RESOURCE_FREE of ring 0: idle and with a command in flight, and while it waits. -/
def freeCmd : Cmd := cmd 0x020D [1, 0]
def flight : HCmd := { id := 0, origin := .ring 0, creel := 1, index := 0, words := [], since := 0, taken := true, live := true, yielded := false, lost := false, out := none }
def inFlight (s : State) : State := s.modVault fun v => { v with active := [flight] }
def freeing (n : Nat) : State := { (inFlight dev).modStake (fun m => { m with started := [{ cmd := freeCmd, why := .freeing, old := [0] }] }) with clock := n }
def afterTake (s : State) : State := s.modStake fun m => { m with accepted := m.accepted.filter (· ≠ freeCmd) }
theorem witness_CreelCommandEffects_waits :
    (∀ s ∈ [given dev freeCmd, given (inFlight dev) freeCmd], s.takeCmd 64 0 0x020D = some freeCmd ∧ s.stake.started = [] ∧
      (afterTake s).stateRefuses freeCmd = none ∧ notResetting (afterTake s) freeCmd ∧ ((afterTake s).heldOf 1 1).contains 0 = true) ∧
    (afterTake (given dev freeCmd)).busyOn 1 0 = false ∧ (afterTake (given (inFlight dev) freeCmd)).busyOn 1 0 = true ∧
    ((freeing 5).stake.started.find? (fun r => r.cmd.port = 64 ∧ r.cmd.slot = 0 ∧ r.why = .freeing)).isSome = true ∧ (freeing 5).busyOn 1 0 = true ∧
    micros 50 ≤ (freeing (micros 50)).clock := by
  unfold notResetting
  decide +kernel
theorem witness_MemoryCommandEffects_waits : let s := (onChan id).modStake fun m => { m with started := [{ cmd := cmd 0x0302 [2], why := .changing 2 15, old := [] }] }
    s.stake.started.find? (fun r => r.cmd.port = 64 ∧ r.cmd.slot = 0 ∧ r.cmd.op = 0x0302) = some { cmd := cmd 0x0302 [2], why := .changing 2 15, old := [] } ∧
    ∀ q ∈ s.stake.started, ∀ b d, q.why ≠ .speed b d :=
  ⟨by decide +kernel, fun q h b d e => by simp [State.modStake] at h; subst h; cases e⟩

/-! ## Mailboxes and sessions -/

/-- The Stake up, with port `p` so. -/
def onPort (p : Nat) (f : MbxPort → MbxPort) : State := onStake fun m => { m with up := true, ports := [(p, f portReset)] }
def aComp : MbxComp := { slot := 3, tag := 7, status := 0, irq := true, result := 0, reply := [] }
theorem witness_MailboxRegisters :
    (let s := onPort 64 fun x => { x with prod := 16, comps := [aComp] }
     s.stake.up = true ∧ s.transport 64 = true ∧ (s.port 64).suspended = none ∧ (s.port 64).owner.testBit (8 / 8 / 24) = false ∧
     ((s.port 64).prod + 2 ^ 32 - (0 : W64).toNat % 2 ^ 32) % 2 ^ 32 ≤ 16 ∧ 16 < ((s.port 64).prod + 2 ^ 32 - (17 : W64).toNat % 2 ^ 32) % 2 ^ 32 ∧
     (s.port 64).comps = [aComp] ∧ 16 ≤ ((s.port 64).prod + 2 ^ 32 - (s.port 64).cons) % 2 ^ 32) ∧
    (let s := onPort 64 fun x => { x with prod := 15, comps := [aComp] }
     (s.port 64).comps = [aComp] ∧ ((s.port 64).prod + 2 ^ 32 - (s.port 64).cons) % 2 ^ 32 < 16) ∧
    (onPort 65 id).transport 65 = false ∧
    (let s := onPort 1 fun x => { x with counts := List.replicate 256 0 }
     (s.port 1).suspended = none ∧ 256 ≤ ((s.port 1).counts.filter fun t => s.clock < t + 2 ^ 32).length) ∧
    (let s : State := { onPort 1 fun x => { x with suspended := some 0 } with clock := 2 ^ 32 }
     (s.port 1).suspended = some 0 ∧ 0 + 2 ^ 32 ≤ s.clock) := by decide +kernel
/-- A tenant's slot 0 with this command handed over: an echo, one with a false length, and a reset of its creel before the keys are there. -/
def mailed (w0 : W64) : State := onPort 1 fun x => { x with words := [(0, w0), (1, 0x10000)], owner := 1, queue := [0] }
/-- The port's command is next, and the checks answer so. -/
def Next (s : State) : Prop := s.stake.up = true ∧ s.paused = false ∧
  ((upto (s.stake.turn + 1) 71).map (· % 71)).find? s.portAccepts = some 1 ∧ (s.port 1).queue = [0]
def Checked (s : State) (ok : Bool) (life : Bool) : Prop :=
  decide (check1 (commandOf s 1 0).1 (commandOf s 1 0).2.1 (commandOf s 1 0).2.2 = 0) = ok ∧ s.check2 (commandOf s 1 0).1 = 0 ∧ s.lifeRefuses (commandOf s 1 0).1 = life
theorem witness_CommandAcceptanceChecks :
    (Next (mailed 0x0001_0008_00000007) ∧ Checked (mailed 0x0001_0008_00000007) true false) ∧
    (Next (mailed 0x0001_0010_00000007) ∧ Checked (mailed 0x0001_0010_00000007) false false) ∧
    Next (mailed 0x0209_0000_00000007) ∧ Checked (mailed 0x0209_0000_00000007) true true := by
  unfold Next Checked
  refine ⟨⟨⟨?_, ?_, ?_, ?_⟩, ?_, ?_, ?_⟩, ⟨⟨?_, ?_, ?_, ?_⟩, ?_, ?_, ?_⟩, ⟨?_, ?_, ?_, ?_⟩, ?_, ?_, ?_⟩ <;> decide +kernel
/-- Two enrolled cards; the ceremony's session open since `n`; a credential for the auditor, and its session. -/
def carded (fails : Nat) : State := { onStake fun m => { m with up := true, fails := fails } with bbkm := { dev.bbkm with cards := [1, 2], life := 4 } }
def inSession (clock : Nat) : State := { onStake fun m => { m with session := some { c0 := 1, c1 := 2, last := 0 } } with clock := clock }
def audited (on : Bool) : State := onStake fun m => { m with up := true, creds := [(1, 9 :: zeros 47)], pat := [(65, setFld 0x8040 47 32 1)], auditors := if on then [(0, 5)] else [] }
theorem witness_SessionsOfOfficersAndAuditors :
    (∀ n ∈ [0, 7], (carded n).stake.up = true ∧ (carded n).officer = none ∧ (carded n).stake.lockedAt = none ∧ (carded n).bbkm.life ≠ 1) ∧
    ((1 : BitVec 384).toNat ∈ (carded 0).bbkm.cards ∧ (2 : BitVec 384).toNat ∈ (carded 0).bbkm.cards) ∧
    ((3 : BitVec 384).toNat ∉ (carded 7).bbkm.cards ∧ (4 : BitVec 384).toNat ∉ (carded 7).bbkm.cards ∧ (carded 7).stake.fails = 7) ∧
    (inSession 5).officer = some { c0 := 1, c1 := 2, last := 0 } ∧ (∀ a ∈ (inSession 5).stake.approvals, a.creel ≠ (1 : CreelId).val) ∧
    0 + 900 * 2 ^ 32 ≤ (inSession (900 * 2 ^ 32)).clock ∧
    (let s : State := { onStake fun m => { m with lockedAt := some 0 } with clock := 900 * 2 ^ 32 }
     s.stake.lockedAt = some 0 ∧ 0 + 900 * 2 ^ 32 ≤ s.clock) ∧
    ((audited false).stake.up = true ∧ (audited false).bbkm.life ≠ 6 ∧ (audited false).auditorFits 0 (9 : BitVec 384).toNat = true) ∧
    ((audited true).stake.auditors.has (0 : Fin 2) = true ∧ (4088 : BitVec 32).toNat % 8 = 0 ∧ (4088 : BitVec 32).toNat + 8 ≤ 4096) :=
  ⟨by decide +kernel, by decide +kernel, by decide +kernel, by decide +kernel, by decide +kernel, by decide +kernel, by decide +kernel, by decide +kernel, by decide +kernel⟩

/-! ## The Hoop and pairing -/

def onHoop (f : Hoop → Hoop) : State := { dev with hoop := f hoopReset }
theorem witness_HoopSourceEvents :
    (let s := onHoop fun h => { h with ref := { edges := 3, last := some 0, sec := none, given := none } }
     s.hoop.ref.last.isSome = true ∧ s.refDue = false ∧ 3 ≤ s.hoop.ref.edges) ∧
    (let s := onHoop fun h => { h with sync := List.replicate 15 0 }
     let l := ((0 + s.stake.hoopCfg.ptpAsym.toInt) :: s.hoop.sync).take 16
     s.ptpDue = false ∧ l.length = 16 ∧ withinNs (spread l) 100 = true) ∧
    (let s : State := { onHoop fun h => { h with ref := { edges := 0, last := none, sec := none, given := some (5, 0) } } with clock := 3 * 2 ^ 31 }
     s.hoop.ref.given = some (5, 0) ∧ 0 + 3 * 2 ^ 31 ≤ s.clock) ∧
    (let s := onHoop fun h => { h with slew := true, src := 2 }
     s.hoop.slew = true ∧ s.hoop.src ≠ 0) ∧
    (let s : State := { onHoop fun h => { h with st := 2 } with clock := 14400 * 2 ^ 32 }
     s.hoop.st = 2 ∧ s.hoop.alarm = false ∧ s.hoop.lostAt + s.stake.hoopCfg.alarm * 2 ^ 32 ≤ s.clock) ∧
    (let s := onHoop fun h => { h with sec := 64 }
     s.hoop.saved.getD 0 < s.hoop.sec / 64 * 64 ∧ s.board.ppsSec ≠ s.hoop.sec) := by decide +kernel

def onPair (f : Pair → Pair) : State := { dev with pair := f { pairReset with up := 0xFF, st := 4 } }
def late (s : State) (n : Nat) : State := { s with clock := n }
/-- A commit of core 0 under stall and under continue. -/
def aCommit (cfg : W64) : Commit := { id := 9, creel := 1, cfg := cfg, vault := false, since := 0, late := false, who := .core 0 }
def Due (g : W64) : Prop := let s := late (onPair fun p => { p with commits := [aCommit g] }) (30 * 2 ^ 32 / 10000000)
  s.commitOf 9 = some (aCommit g) ∧ (aCommit g).who = .core 0 ∧ (aCommit g).late = false ∧ (aCommit g).since + fld g 31 16 * 2 ^ 32 / 10000000 ≤ s.clock
def aLine : PairMsg := .line 1 4 [1] false
theorem witness_PairLinkEvents :
    (let s : State := { onPair id with hoop := { hoopReset with sec := 60 } }
     s.linkUp = true ∧ s.pair.keyAt + 60 * 2 ^ 32 ≤ s.now) ∧
    ((onPair id).pair.up.testBit 0 = true ∧ (onPair id).pair.resv.testBit 0 = false ∧ (onPair fun p => { p with resv := 1 }).pair.resv.testBit 0 = true) ∧
    (Due 0x1E0000 ∧ tbit (0x1E0000 : W64) 3 = false) ∧ (Due 0x1E0008 ∧ tbit (0x1E0008 : W64) 3 = true) ∧
    (let s := late (onPair fun p => { p with cfg := [(1, 0x3E8001E0004)], commits := [{ aCommit 0 with who := .none }] }) (1000 * 2 ^ 32 / 1000000)
     tbit (s.pairCfg 1) 2 = true ∧ s.lagging 1 = true) ∧
    (let s := onPair fun p => { p with roles := [(1, 2)], inbox := [(1, [aLine] ++ .marker 1 9 :: [])] }
     s.role 1 = 2 ∧ s.paused = false ∧ s.pair.inbox.get [] 1 = [aLine] ++ .marker 1 9 :: [] ∧ ∀ m ∈ [aLine], isMarker m = false) ∧
    (let s := onPair fun p => { p with roles := [(1, 2)], tagFails := [0, 0] }
     s.linkUp = true ∧ s.pair.st ≠ 0 ∧ s.role 1 = 2 ∧ (0 : Fin 7) ≠ 6 ∧ 1 ≠ s.pair.rx.get 0 (0 : Fin 7) ∧ s.pair.rx.get 0 1 = 0 ∧ s.pair.tagFails = [0, 0] ∧ s.clock < 0 + 2 ^ 32 / 1000) ∧
    (let s := late (onPair id) (5 * 2 ^ 32 / 10000000)
     s.linkUp = true ∧ s.pair.st ≠ 0 ∧ s.stake.debug = false ∧ s.pair.hbSent + 5 * 2 ^ 32 / 10000000 ≤ s.clock) := by
  unfold Due
  refine ⟨?_, ?_, ?_, ?_, ?_, ?_, ?_, ?_⟩ <;> decide +kernel

def ms10 (n : Nat) : Nat := n * 2 ^ 32 / 10000000
/-- The witness run of an epoch, with its claim, and a grant with a given answer for it. -/
def aRun : WitnessRun := { at_ := 0, sec := 0, frac := 0, st := 0, epoch := 1, sent := 0, granted := false }
def witnessed (on granted : Bool) : State :=
  { onPair (fun p => { p with st := 1, holds := true, lost := some 0, wit := if on then some { aRun with granted := granted } else none }) with
    stake := { dev.stake with witness := { witnessReset with enable := true, timeout := 100 } } }
/-- The partner's heartbeats have stopped, before the fence and after it; a claim whose time is over. -/
def Silent (h : Bool) : Prop := let s := late (onPair fun p => { p with holds := h }) (ms10 40)
  s.pair.st = 4 ∧ s.pair.lost = none ∧ s.pair.hbAt + 40 * 2 ^ 32 / 10000000 ≤ s.clock ∧ s.pair.holds = h
def Claimed (f : Bool) (i : Nat) : Prop := let s := late (onPair fun p => { p with claimAt := some 0, fenceIn := f, index := i }) (ms10 10)
  s.pair.claimAt = some 0 ∧ 0 + 10 * 2 ^ 32 / 10000000 ≤ s.clock ∧ s.pair.fenceIn = f ∧ s.pair.index = i
theorem witness_FenceWitnessAndResync :
    Silent false ∧ Silent true ∧ Claimed false 0 ∧ Claimed true 1 ∧ Claimed true 0 ∧
    (let s := late (onPair fun p => { p with lost := some 0, index := 1 }) (ms10 50)
     s.pair.lost = some 0 ∧ 0 + 50 * s.pair.index * 2 ^ 32 / 10000000 ≤ s.clock ∧ s.pair.fenceOut = false ∧ s.pair.fenceIn = false) ∧
    (let s := onPair fun p => { p with lost := some 0, fenceIn := true }
     s.pair.lost.isSome = true ∧ s.pair.fenceIn = true ∧ s.pair.claimAt = none ∧ s.pair.holds = false) ∧
    ((onPair id).pair.st ≠ 0 ∧ (onPair id).pair.st ≠ 6 ∧ (onPair id).pair.claimAt = none ∧ (onPair id).power = 2) ∧
    (let s := witnessed false false
     s.pair.holds = true ∧ s.stake.witness.enable = true ∧ s.pair.lost.isSome = true ∧ s.pair.wit = none) ∧
    (let s := late (witnessed true false) (10 * 100 * 2 ^ 32 / 10000000)
     s.pair.wit = some aRun ∧ aRun.granted = false ∧ aRun.at_ + 10 * s.stake.witness.timeout * 2 ^ 32 / 10000000 ≤ s.clock) ∧
    (let s := late (witnessed true true) (ms10 170)
     s.pair.lost = some 0 ∧ s.pair.holds = true ∧ 0 + (170 + 50 * s.pair.index) * 2 ^ 32 / 10000000 ≤ s.clock ∧ s.paused = false ∧
      s.pair.wit = some { aRun with granted := true }) ∧
    (let s := late (onPair fun p => { p with st := 1, up := 0 }) (2 * 2 ^ 32)
     s.pair.st = 1 ∧ s.linkUp = false ∧ s.pair.lost = none ∧ s.pair.startAt + 2 * 2 ^ 32 ≤ s.clock ∧ 4 ≤ popCount8 (0x0F : BitVec 8).toNat ∧ s.power = 2 ∧ s.stake.debug = false) ∧
    ((onPair fun p => { p with st := 2 }).pair.st = 2 ∧ (onPair fun p => { p with st := 2 }).linkUp = true) ∧
    (let s := onPair fun p => { p with st := 3, copies := [(1, { copyReset with lines := [4, 5] }), (2, copyReset)] }
     s.pair.st = 3 ∧ s.pair.copies.has (1 : CreelId) = true ∧ s.linkUp = true ∧ (s.pair.copies.get copyReset (1 : CreelId)).lines = 4 :: [5] ∧
      s.pair.copies.has (2 : CreelId) = true ∧ s.pair.copies.get copyReset (2 : CreelId) = { lines := [], handles := [], sess := [] }) := by
  unfold Silent Claimed
  refine ⟨?_, ?_, ?_, ?_, ?_, ?_, ?_, ?_, ?_, ?_, ?_, ?_, ?_, ?_⟩ <;> decide +kernel
/-- An answer of the witness to a claim: granted (1) or not. -/
def answer (c key : Bytes) (n : Nat) : Bytes :=
  let b := toBe 4 2 ++ toBe 4 n ++ (c.take 96).drop 8
  b ++ hmac 2 key b
theorem answer_fits (c key : Bytes) (n : Nat) (h : 96 ≤ c.length) : let m := answer c key n
    m.length = 144 ∧ m.drop 96 = hmac 2 key (m.take 96) ∧ m.take 4 = toBe 4 2 ∧ (m.drop 8).take 40 = (c.drop 8).take 40 ∧
      (m.drop 64).take 16 = (c.drop 64).take 16 ∧ (m.drop 4).take 4 = toBe 4 n ∧ (m.drop 48).take 16 = (c.drop 48).take 16 := by
  have h1 : min 88 (c.length - 8) = 88 := by omega
  have h2 : min 32 (c.length - 64) = 32 := by omega
  have h3 : min 48 (c.length - 48) = 48 := by omega
  simp [answer, List.drop_append, List.take_append, List.drop_take, List.take_take, List.drop_eq_nil_of_le, List.take_of_length_le, h1, h2, h3]
theorem witness_WitnessGrant : let s := witnessed true false
    let c := claimBytes s aRun
    (∀ n ∈ [1, 0], let m := answer c s.bbkm.witnessKey n
      m.length = 144 ∧ m.drop 96 = hmac 2 s.bbkm.witnessKey (m.take 96) ∧ beNat (m.take 4) = 2 ∧ (m.drop 8).take 40 = (c.drop 8).take 40 ∧
      (m.drop 64).take 16 = (c.drop 64).take 16 ∧ beNat ((m.drop 4).take 4) = n ∧ (m.drop 48).take 16 = (c.drop 48).take 16) ∧
    ([] : Bytes).drop 96 ≠ hmac 2 s.bbkm.witnessKey (([] : Bytes).take 96) := by
  intro s c
  have hc : 96 ≤ c.length := by simp [c, claimBytes, zeros]
  refine ⟨fun n h => ?_, fun e => by simpa using congrArg List.length e⟩
  obtain ⟨a, b, d, e, f, g, i⟩ := answer_fits c s.bbkm.witnessKey n hc
  refine ⟨a, b, by rw [d]; decide, e, f, ?_, i⟩
  rw [g]
  simp only [List.mem_cons, List.not_mem_nil, or_false] at h
  rcases h with rfl | rfl <;> decide

/-! ## Starts, updates, reserve and power -/

/-- SHA-384 of no bytes, as FIPS 180-4's examples give it. -/
def emptyDigest : Bytes := toBe 48 0x38b060a751ac96384cd9327eb1b1e36a21fdb71114be07434c0cc7bf63f6e1da274edebfe76f65fbd51ad2f14898b95b
theorem test_sha384_empty : sha384 [] = emptyDigest := by decide +kernel
def cleanStart : StartIn :=
  { modules := [], failed := [], temp := 40, borderOk := true, selfTestOk := true, entropyOk := true, bbkmOk := true, baselinesOk := true }
/-- The Stake in the recovery of a start. -/
def recovering : State := onStake fun m => { m with rom := 1 }
/-- Creel 1 stopped and due for release with an empty image; core 0 held with a pending vector. -/
def dueState : State := { onCreel (fun x => { x with st := .stopped }) with
  stake := { dev.stake with due := [(1, 0)], boots := [(1, { bootRecReset with digest := emptyDigest })] }, bbkm := { dev.bbkm with life := 4 } }
def heldState : State := onCore fun c => { c with run := .held, svec := [(0, 1)] }
def updating (f : Update → Update) : State := { onStake fun m => { m with upd := f { m.upd with st := 3 } } with clock := 600 * 2 ^ 32 }
theorem witness_StartsAndResets :
    (State.reset.power ≠ 2 ∧ cleanStart.bbkmOk = true ∧ cleanStart.borderOk = true ∧ State.reset.bootSlot = none) ∧
    ((given dev (cmd 0x0501 [])).power = 2 ∧ (given dev (cmd 0x0501 [])).stake.accepted.head? = some (cmd 0x0501 []) ∧ (cmd 0x0501 []).op = 0x0501 ∧
      (cmd 0x0506 []).op = 0x0506) ∧
    ((onStake fun m => { m with up := true }).power = 2 ∧ (onStake fun m => { m with up := true }).stake.up = true) ∧
    (recovering.stake.rom ≠ 0 ∧ recovering.power = 2 ∧ recovering.stake.up = false) ∧
    (dueState.stake.due.has (1 : CreelId) = true ∧ dueState.stake.due.get 0 (1 : CreelId) = (0 : Fin 4).val ∧ (dueState.creel 1).st = .stopped ∧
      dueState.stake.debug = false ∧ dueState.bbkm.life < 6) ∧ sha384 (dueState.stake.bootImgs.get [] 1) = (dueState.stake.boots.get bootRecReset 1).digest ∧
    ((heldState.core 0).run = .held ∧ ∃ p ∈ (heldState.core 0).svec, p.2 ≠ 0) ∧
    ((updating id).stake.upd.st = 3 ∧ (updating id).stake.upd.mode = false ∧ (updating id).healthy = true ∧ (updating id).quiet = true ∧
      (updating id).stake.upd.began + 60 * (updating id).stake.upd.window * 2 ^ 32 ≤ (updating id).clock) ∧
    ((updating fun u => { u with failed := true }).stake.upd.failed = true ∧ (updating fun u => { u with failed := true }).quiet = true) ∧
    ((updating fun u => { u with st := 4, retry := true }).stake.upd.st = 4 ∧ (updating fun u => { u with st := 4, retry := true }).stake.upd.retry = true ∧
      (updating fun u => { u with st := 4, retry := true }).quiet = true ∧ (updating id).stake.upd.began + 2 ^ 32 ≤ (updating id).clock) := by
  refine ⟨?_, ?_, ?_, ?_, ?_, test_sha384_empty, ?_, ?_, ?_, ?_⟩ <;> decide +kernel
/-- A bundle of five empty images: it qualifies where its signature verifies, which the model leaves open (log entry 17). -/
def emptyBundle : Bytes := zeros 0x20 ++ (List.replicate 5 (zeros 16 ++ emptyDigest)).flatten
theorem images_of_emptyBundle : (List.range 5).all (imageOk emptyBundle) = true ∧ bundleNat emptyBundle 0x0E 2 = 0 := by
  have h : ∀ i, i < 5 → bundleNat emptyBundle (0x20 + 64 * i + 8) 4 = 0 ∧ imageDigest emptyBundle i = emptyDigest := by decide +kernel
  refine ⟨List.all_eq_true.2 fun i hi => ?_, by decide +kernel⟩
  obtain ⟨a, b⟩ := h i (List.mem_range.1 hi)
  simp [imageOk, a, b, test_sha384_empty]
theorem witness_StartsAndResets_bundles (h : Config.bundleSigned (emptyBundle.take 30528) = true) :
    recovering.bundleCheck emptyBundle = 0 ∧ recovering.bundleCheck [] ≠ 0 ∧
    (let s : State := { State.reset with stake := { stakeReset with imgs := [(1, { imgReset with bytes := emptyBundle, status := 0x3F })] } }
     s.power ≠ 2 ∧ s.bootSlot = some 1) := by
  have e : ∀ s : State, s.stake.floor = 0 → s.bundleCheck emptyBundle = 0 := by
    intro s hf
    simp [State.bundleCheck, h, hf, images_of_emptyBundle.1]
  refine ⟨e _ rfl, ?_, by decide, ?_⟩
  · unfold State.bundleCheck
    split
    · decide
    split
    · decide
    rw [if_neg (by simp [List.range_succ, imageOk, imageDigest, test_sha384_empty]; decide)]
    decide
  · simp [State.bootSlot, State.bootable, State.img, FMap.has, FMap.get]
    exact ⟨rfl, e _ rfl⟩

def sampled (n : Nat) (v : Nat) : State := { dev with reserve := { reserveReset with samples := [(4096, List.replicate n v)] } }
theorem witness_ReserveAndPower :
    (dev.power = 2 ∧ dev.monitored 1 0 = true ∧ (70 :: (dev.reserve.samples.get [] (4096 * 1 + 0))).length < 64) ∧
    (let l := (70 :: (sampled 63 70).reserve.samples.get [] (4096 * 1 + 0)).take 64
     (sampled 63 70).monitored 1 0 = true ∧ l.length = 64 ∧ 60 ≤ median l ∧ median l < 75 ∧ (sampled 63 70).reserve.baseOk = true ∧
      (1, 0) ∉ (sampled 63 70).reserve.replacing ∧ ((sampled 63 70).freeTile (0 / 56)).isSome = true) ∧
    ((dev.slice (5 / 16)).reserveUsed < 2 ∧ dev.tileErrors 5 = false) ∧
    (let s : State := { dev with reserve := { reserveReset with replacing := [(1, 0)] } }
     s.reserve.replacing.head? = some (1, s.tileOf 0) ∧ (s.creel 1).st ≠ .resetting ∧ s.creelOf 0 = some 1 ∧ s.paused = false ∧ (s.core 0).dev = none ∧
      s.freeTile (s.tileOf 0 / 56) = some 48) ∧
    (5 ∈ ({ dev with reserve := { reserveReset with oldTiles := [5] } } : State).reserve.oldTiles) ∧
    (let s : State := { dev with board := { boardReset with governor := true, brake := true } }
     s.board.governor = true ∧ s.board.brake = true ∧ s.power = 2 ∧ s.braked = true) ∧
    (let s : State := { dev with board := { boardReset with governor := true } }
     s.braked = false ∧ ∀ d, d < 4 → s.setpoint d ≤ 930) ∧
    (let s : State := { dev with hoop := { hoopReset with sec := 60 } }
     s.power = 2 ∧ s.lastHubLog + 60 ≤ s.hoop.sec) := by
  refine ⟨?_, ?_, ?_, ?_, ?_, ?_, ?_, ?_⟩ <;> decide +kernel

/-! ## Rows with a state of their own: an address of a position, a region of more than 65,536 granules, a bundle to stage -/

theorem filter_self (c : Cmd) : [c].filter (fun x => decide (x ≠ c)) = [] := by simp
theorem given_takes (s : State) (op : Nat) (ws : List W64) (h : s.stake.started = []) : (given s (cmd op ws)).takeCmd 64 0 op = some (cmd op ws) := by
  simp [State.takeCmd, given, State.modStake, cmd, h]
theorem witness_AddrDecodeBack : MetAt memoryCommands 5 { dev with installed := 64 } [1, 0, Config.position 0] := by
  refine ⟨_, List.mem_of_getElem? (i := 5) rfl, given_takes _ _ _ rfl, ?_, ?_⟩
  · simp only [given, State.modStake, filter_self]
    rfl
  · refine ⟨by decide, ?_⟩
    have e : ∀ s : State, s.installed = 64 → s.decodePa (cmd 0x0304 [1, 0, Config.position 0]) = 0 := by
      intro s h
      simp [State.decodePa, h, cmd, Cmd.n, Cmd.w, (by decide : channelOf 0 = 0)]
    rw [e _ rfl]
    decide
def wide : State := onCreel fun x => { x with grants := [(0, (0, 0x3FFFFFFFFF))] }
theorem witness_PairRegionTooMany : MetAt (pairCommands [] 0 0 [] true) 7 wide [1, 0, 65537] := by
  refine ⟨_, List.mem_of_getElem? (i := 7) rfl, given_takes _ _ _ rfl, rfl, ?_⟩
  refine ⟨⟨by decide +kernel, fun _ => rfl⟩, ?_⟩
  have e : ∀ (s : State) (c : Cmd), s.pair.marks = [] → tbit (c.words.getD 0 0) 0 = true → (marksAfter s c).length = arg c 4 := by
    intro s c h t
    unfold marksAfter
    simp only [t, h, if_true]
    simp [upto, FMap.get, List.filter_eq_self.2]
  rw [e _ _ rfl (by decide)]
  decide
/-- The bundle's bytes at 0x1000. -/
def bundled : State := { dev with mem := { dev.mem with cells := (emptyBundle.zipIdx.filter (·.1 ≠ 0)).map fun p => (0x1000 + p.2, p.1) } }
theorem witness_UpdateStage (h : Config.bundleSigned (emptyBundle.take 30528) = true) : MetAt updateCommands 0 bundled [1, 0x1000, 352] := by
  refine ⟨_, List.mem_of_getElem? (i := 0) rfl, given_takes _ _ _ rfl, by decide +kernel, ?_⟩
  refine ⟨by decide +kernel, by decide +kernel, by decide +kernel, ?_⟩
  refine (congrArg (State.bundleCheck _) (show _ = emptyBundle from by decide +kernel)).trans ?_
  simp [State.bundleCheck, h, images_of_emptyBundle.1, images_of_emptyBundle.2]
  decide +kernel
theorem witness_UpdateStageUnsigned (h : Config.bundleSigned [] = false) : MetAt updateCommands 1 dev [1, 0x1000, 0] := by
  refine ⟨_, List.mem_of_getElem? (i := 1) rfl, given_takes _ _ _ rfl, by decide +kernel, ?_⟩
  refine ⟨by decide +kernel, by decide +kernel, by decide +kernel, ?_⟩
  show State.bundleCheck _ [] = 2
  simp [State.bundleCheck, h]

/-! ## Commands of the Hamper -/

/-- Object `ix` of creel 1: its algorithm, usage byte and further bits of word 0, its secret and public parts. -/
def keyOf (ix alg usage more : Nat) (sec pub : Bytes) : KeyObj :=
  { keyReset with w0 := w64 (alg * 2 ^ 56 + usage * 2 ^ 48 + more + 2 ^ 32), notAfter := BitVec.allOnes 64, handle := handleOf 1 1 ix, secret := sec, pub := pub, version := 1 }
/-- A command of ring 0: in, out and aux ranges as (address, length), keys, and the words from 9 on. -/
def hcmd (op : Nat) (i o a : Nat) (k1 k2 : W64) (ps : List W64) : HCmd :=
  let at_ := fun (n a : Nat) => if n = 0 then 0 else w64 a
  { flight with live := true, words := [w64 (op * 2 ^ 48), 0x1000000, k1, k2, at_ i 0x100000, w64 (i * 2 ^ 32 + o), at_ o 0x200000, at_ a 0x300000, w64 (a * 2 ^ 32)] ++ ps }
/-- The vault with these objects and one accepted command; input and aux bytes in memory. -/
def vaulted (ks : List KeyObj) (c : HCmd) (i a : Bytes) : State :=
  let cellsAt := fun (base : Nat) (b : Bytes) => (b.zipIdx.filter (·.1 ≠ 0)).map fun (p : Byte × Nat) => (base + p.2, p.1)
  { onCreel (fun x => { x with quota := [(5, 4), (6, 8)] }) with
    vault := { vaultReset with cap := 2 ^ 18, objs := ks.zipIdx.map fun p => (p.2, p.1), active := [c] },
    mem := { dev.mem with cells := cellsAt 0x100000 i ++ cellsAt 0x300000 a } }
/-- `HRow.Ready`, as a check that runs. -/
def readyB (o : HRow) (s : State) (id : Nat) (c : HCmd) (ks : List KeyObj) : Bool :=
  let n := fld (c.w 1) 43 32
  let buf := fun (used : Bool) (a m : Nat) (w : Bool) => decide (m = 0 ∨ (used = true ∧ a < 0x8000000000000000 ∧ s.dmaOk c.creel a m w = true ∧ (w = false → s.poisonedRange a m = false)))
  decide (s.hReady id o.op = some c ∧ s.vault.broken = false ∧ s.vault.entropy = 0 ∧ ((s.creel c.creel).st = .running ∨ (s.creel c.creel).st = .migrating) ∧ c.creel < 64) &&
  decide (fld (c.w 0) 37 35 = 0 ∧ fld (c.w 0) 47 38 = 0 ∧ fld (c.w 1) 31 24 = 1 ∧ fld (c.w 1) 23 0 = 0 ∧ fld (c.w 8) 31 0 = 0) &&
  decide ((c.sess = false ∧ fld (c.w 1) 63 32 = 0) ∨
    (c.sess = true ∧ s.vault.sess.has n = true ∧ (s.session n).gen % 2 ^ 20 = fld (c.w 1) 63 44 ∧ (s.session n).creel = c.creel ∧ (s.session n).closed = 0 ∧
      ((s.session n).expiry = BitVec.allOnes 64 ∨ s.hoop.sec ≤ (s.session n).expiry.toNat) ∧ (s.session n).families.testBit (o.op / 256 - 1) = true ∧
      (o.k1 = true → (c.w 2).toNat < 16) ∧ (o.k2 = true → (c.w 3).toNat < 16))) &&
  decide ((o.k1 = false → c.w 2 = 0) ∧ (o.k2 = false → c.w 3 = 0) ∧ (o.inp = false → c.w 4 = 0) ∧ (o.out = false → c.w 6 = 0) ∧ (o.aux = false → c.w 7 = 0)) &&
  [9, 10, 11, 12, 13, 14, 15].all (fun i => o.params.contains i || c.w i == 0) &&
  buf o.inp c.inAddr c.inLen false && buf o.out c.outAddr c.outCap true && buf o.aux c.auxAddr c.auxLen false &&
  decide (overlapR c.inAddr c.inLen c.outAddr c.outCap = false ∧ overlapR c.inAddr c.inLen c.auxAddr c.auxLen = false ∧ overlapR c.outAddr c.outCap c.auxAddr c.auxLen = false) &&
  decide ((o.keys s c).map (s.objOf c.creel) = ks.map some) &&
  decide (∀ k ∈ ks, k.bad = false ∧ s.poisonedRange (s.skmBase + 4096 * handleIx k.handle) (64 + k.secret.length + k.pub.length) = false ∧
    (k.notBefore = 0 ∧ k.notAfter = BitVec.allOnes 64) ∧ k.notBefore.toNat ≤ s.hoop.sec ∧ s.hoop.sec ≤ k.notAfter.toNat ∧ k.useLimit = 0)
theorem ready_of (o : HRow) (s : State) (id : Nat) (c : HCmd) (ks : List KeyObj) (h : readyB o s id c ks = true) : o.Ready s id c ks := by
  simp only [readyB, Bool.and_eq_true, decide_eq_true_eq, List.all_eq_true, Bool.or_eq_true, beq_iff_eq] at h
  obtain ⟨⟨⟨⟨⟨⟨⟨⟨⟨⟨a, b⟩, d⟩, e⟩, f⟩, g⟩, i⟩, j⟩, k⟩, l⟩, m⟩ := h
  refine ⟨a.1, a.2.1, a.2.2.1, a.2.2.2.1, a.2.2.2.2, b.1, b.2.1, b.2.2.1, b.2.2.2.1, b.2.2.2.2, d, e.1, e.2.1, e.2.2.1, e.2.2.2.1, e.2.2.2.2, ?_, ?_, ?_, ?_,
    .inl k.1, k.2.1, k.2.2, l, fun x hx => ⟨(m x hx).1, (m x hx).2.1, fun _ => ⟨.inl (m x hx).2.2.1, (m x hx).2.2.2.1, (m x hx).2.2.2.2.1, .inl (m x hx).2.2.2.2.2⟩⟩⟩
  · intro n h1 h2 h3
    exact (f n (by simp; omega)).resolve_left (fun e => h3 (List.elem_iff.1 e))
  · simpa [BufOk] using g
  · simpa [BufOk] using i
  · simpa [BufOk] using j
/-- Some row of a family of the Hamper's commands is met by a state, its command and its keys. The row's number is for the proof. -/
def HMetAt (P : HRow → Prop) (_row : Nat) (s : State) (c : HCmd) (ks : List KeyObj) : Prop := ∃ o, P o ∧ o.Ready s 0 c ks ∧ o.ok s c ks
def hk (ix : Nat) : W64 := handleOf 1 1 ix
def all1 : W64 := BitVec.allOnes 64
/-- The command in the session of context 0, which `opened` opens. -/
def sessed (c : HCmd) : HCmd := { c with words := (c.words.set 0 (c.w 0 ||| 0x100000000)).set 1 0x100001000000 }
def opened (s : State) : State :=
  s.modVault fun v => { v with sess := [(0, { sessReset with gen := 1, creel := 1, closed := 0, families := 0x1FF, expiry := BitVec.allOnes 64 })] }
def digits (n : Nat) : Bytes := List.replicate n 0x35
/-- Keys: AES-128 and AES-256 of all usages of a kind, one that protects keys, TDEA, HMAC, a curve and a lattice. -/
def aes (ix usage : Nat) (more : Nat := 0) : KeyObj := keyOf ix 1 usage more (zeros 16) []
def kek (ix : Nat) : KeyObj := keyOf ix 3 4 0x200000000000 (zeros 32) []
def tdea (usage : Nat) : KeyObj := keyOf 0 8 usage 0 (zeros 16) []
def hmacKey : KeyObj := keyOf 0 0x10 8 0 (zeros 32) []
def curve (ix : Nat) : KeyObj := keyOf ix 0x28 0xC0 0 (zeros 32) (zeros 65)
def lattice : KeyObj := keyOf 0 0x34 4 0 (zeros 64) (zeros 1184)
theorem room (s : State) (c : HCmd) (h : s.vault.cap = 2 ^ 18 ∧ s.objCount c.creel + 1 < s.quota c.creel 6 ∧ s.vault.objs.has 5 = false ∧ s.vault.recGen.get 0 5 < 0xFFFFFF) :
    Room s c := ⟨by rw [h.1]; decide, .inl h.2.1, 5, by rw [h.1]; decide, h.2.2⟩
theorem zero_handles (s : State) (c : HCmd) (e : handleList (inOf s c) = [0, 0]) : ∀ h ∈ handleList (inOf s c), h = 0 ∨ (s.objOf c.creel h).isSome = true :=
  fun h hh => .inl (by rw [e] at hh; simpa using hh)
def ent : Arqc := { key := hk 0, hash := sha256 (digits 14), atc := 0, arqc := 0, since := 0 }
theorem ent_hash (s : State) (c : HCmd) (h : auxOf s c = digits 14) : ent.hash = sha256 (auxOf s c) := by simp only [ent, h]
theorem ffRun_some (key : Bytes) (c : HCmd) (e : Bool) (b : Bytes)
    (h : ¬ ((b.map charVal).any (ffRadix c ≤ ·) = true ∨ (b.map charVal).length < keepHead c + keepTail c + b2n (luhnMode c != 0) ∨ 56 < (b.map charVal).length ∨
      ffRadix c ^ ((b.map charVal).length - keepHead c - keepTail c - b2n (luhnMode c != 0)) < 1000000)) : ffRun key c e b = some ((ffRun key c e b).getD []) := by
  unfold ffRun
  rw [if_neg h]
  rfl
theorem witness_HamperKeysAndSessions_keys :
    HMetAt keyRows 0 (vaulted [] (hcmd 0x0101 0 0 0 0 0 [0x28C0000000000000, 0, all1, 0]) [] []) (hcmd 0x0101 0 0 0 0 0 [0x28C0000000000000, 0, all1, 0]) [] ∧
    HMetAt keyRows 1 (vaulted [] (hcmd 0x0101 0 0 0 0 0 [0x0103000000000000, 0, all1, 0]) [] []) (hcmd 0x0101 0 0 0 0 0 [0x0103000000000000, 0, all1, 0]) [] ∧
    HMetAt keyRows 3 (vaulted [kek 0] (hcmd 0x0102 1 0 0 (hk 0) 0 []) [] []) (hcmd 0x0102 1 0 0 (hk 0) 0 []) [kek 0] ∧
    HMetAt keyRows 5 (vaulted [aes 0 3 0x800000000000, kek 1] (hcmd 0x0103 0 0x1000 0 (hk 0) (hk 1) []) [] []) (hcmd 0x0103 0 0x1000 0 (hk 0) (hk 1) []) [aes 0 3 0x800000000000, kek 1] ∧
    HMetAt keyRows 6 (vaulted [aes 0 3, kek 1] (hcmd 0x0103 0 0x1000 0 (hk 0) (hk 1) []) [] []) (hcmd 0x0103 0 0x1000 0 (hk 0) (hk 1) []) [aes 0 3, kek 1] ∧
    HMetAt keyRows 7 (vaulted [aes 0 3 0x400000000000] (hcmd 0x0104 0 0x1000 0 (hk 0) 0 []) [] []) (hcmd 0x0104 0 0x1000 0 (hk 0) 0 []) [aes 0 3 0x400000000000] ∧
    HMetAt keyRows 9 (vaulted [aes 0 3] (hcmd 0x0106 0 64 0 (hk 0) 0 []) [] []) (hcmd 0x0106 0 64 0 (hk 0) 0 []) [aes 0 3] ∧
    HMetAt keyRows 10 (vaulted [aes 0 3] (hcmd 0x0107 0 0 0 (hk 0) 0 [0x0101000100000000, 0, all1, 0]) [] []) (hcmd 0x0107 0 0 0 (hk 0) 0 [0x0101000100000000, 0, all1, 0]) [aes 0 3] ∧
    HMetAt keyRows 11 (vaulted [aes 0 1] (hcmd 0x0107 0 0 0 (hk 0) 0 [0x0103000100000000, 0, all1, 0]) [] []) (hcmd 0x0107 0 0 0 (hk 0) 0 [0x0103000100000000, 0, all1, 0]) [aes 0 1] ∧
    HMetAt keyRows 12 (vaulted [aes 0 3] (hcmd 0x0108 0 0 0 (hk 0) 0 []) [] []) (hcmd 0x0108 0 0 0 (hk 0) 0 []) [aes 0 3] ∧
    HMetAt keyRows 13 (vaulted [aes 0 3 0x080000000000] (hcmd 0x0108 0 0 0 (hk 0) 0 []) [] []) (hcmd 0x0108 0 0 0 (hk 0) 0 []) [aes 0 3 0x080000000000] ∧
    HMetAt keyRows 14 (vaulted [curve 0] (hcmd 0x0109 0 65 0 (hk 0) 0 []) [] []) (hcmd 0x0109 0 65 0 (hk 0) 0 []) [curve 0] ∧
    HMetAt keyRows 15 (vaulted [] (hcmd 0x010A 65 0 0 0 0 [0x2880000000000000, 0, all1, 0]) [] []) (hcmd 0x010A 65 0 0 0 0 [0x2880000000000000, 0, all1, 0]) [] := by
  refine ⟨⟨_, List.mem_of_getElem? (i := 0) rfl, ready_of _ _ _ _ _ ?_, ?_⟩, ⟨_, List.mem_of_getElem? (i := 1) rfl, ready_of _ _ _ _ _ ?_, ?_⟩, ⟨_, List.mem_of_getElem? (i := 3) rfl, ready_of _ _ _ _ _ ?_, ?_⟩, ⟨_, List.mem_of_getElem? (i := 5) rfl, ready_of _ _ _ _ _ ?_, ?_⟩, ⟨_, List.mem_of_getElem? (i := 6) rfl, ready_of _ _ _ _ _ ?_, ?_⟩, ⟨_, List.mem_of_getElem? (i := 7) rfl, ready_of _ _ _ _ _ ?_, ?_⟩, ⟨_, List.mem_of_getElem? (i := 9) rfl, ready_of _ _ _ _ _ ?_, ?_⟩, ⟨_, List.mem_of_getElem? (i := 10) rfl, ready_of _ _ _ _ _ ?_, ?_⟩, ⟨_, List.mem_of_getElem? (i := 11) rfl, ready_of _ _ _ _ _ ?_, ?_⟩, ⟨_, List.mem_of_getElem? (i := 12) rfl, ready_of _ _ _ _ _ ?_, ?_⟩, ⟨_, List.mem_of_getElem? (i := 13) rfl, ready_of _ _ _ _ _ ?_, ?_⟩, ⟨_, List.mem_of_getElem? (i := 14) rfl, ready_of _ _ _ _ _ ?_, ?_⟩, ⟨_, List.mem_of_getElem? (i := 15) rfl, ready_of _ _ _ _ _ ?_, ?_⟩⟩
  · decide +kernel
  · unfold tmplOk; decide +kernel
  · decide +kernel
  · exact ⟨by unfold tmplOk; decide +kernel, room _ _ (by decide +kernel), .inl rfl⟩
  · decide +kernel
  · exact ⟨by decide, by decide, by decide, by decide, by unfold asKek; decide, rfl⟩
  · decide +kernel
  · unfold asKek; decide +kernel
  · decide +kernel
  · decide +kernel
  · decide +kernel
  · decide +kernel
  · decide +kernel
  · decide +kernel
  · decide +kernel
  · decide +kernel
  · decide +kernel
  · decide +kernel
  · decide +kernel
  · decide +kernel
  · decide +kernel
  · decide +kernel
  · decide +kernel
  · decide +kernel
  · decide +kernel
  · exact ⟨by unfold tmplOk; decide +kernel, by decide, .inl (by decide), by decide, room _ _ (by decide +kernel)⟩
theorem witness_HamperKeysAndSessions_sessions :
    HMetAt sessionRows 0 (vaulted [] (hcmd 0x0201 16 0 0 0 0 [0x1FF, all1, 0]) [] []) (hcmd 0x0201 16 0 0 0 0 [0x1FF, all1, 0]) [] ∧
    HMetAt sessionRows 1 ({ vaulted [] (hcmd 0x0201 0 0 0 0 0 [0x1FF, all1, 0]) [] [] with creels := [(1, { aCreel with quota := [(5, 0)] })] }) (hcmd 0x0201 0 0 0 0 0 [0x1FF, all1, 0]) [] ∧
    HMetAt sessionRows 2 (opened (vaulted [] (sessed (hcmd 0x0202 0 0 0 0 0 [15, 0])) [] [])) (sessed (hcmd 0x0202 0 0 0 0 0 [15, 0])) [] ∧
    HMetAt sessionRows 3 (opened (vaulted [] (sessed (hcmd 0x0203 0 0 0 0 0 [])) [] [])) (sessed (hcmd 0x0203 0 0 0 0 0 [])) [] ∧
    HMetAt sessionRows 4 (opened (vaulted [] (sessed (hcmd 0x0204 0 192 0 0 0 [])) [] [])) (sessed (hcmd 0x0204 0 192 0 0 0 [])) [] := by
  refine ⟨⟨_, List.mem_of_getElem? (i := 0) rfl, ready_of _ _ _ _ _ ?_, ?_⟩, ⟨_, List.mem_of_getElem? (i := 1) rfl, ready_of _ _ _ _ _ ?_, ?_⟩, ⟨_, List.mem_of_getElem? (i := 2) rfl, ready_of _ _ _ _ _ ?_, ?_⟩, ⟨_, List.mem_of_getElem? (i := 3) rfl, ready_of _ _ _ _ _ ?_, ?_⟩, ⟨_, List.mem_of_getElem? (i := 4) rfl, ready_of _ _ _ _ _ ?_, ?_⟩⟩
  · decide +kernel
  · exact ⟨by decide +kernel, by decide +kernel, by decide +kernel, zero_handles _ _ (by decide +kernel), by decide +kernel, 5, by decide, by decide +kernel⟩
  · decide +kernel
  · decide +kernel
  · decide +kernel
  · decide +kernel
  · decide +kernel
  · decide +kernel
  · decide +kernel
  · decide +kernel
theorem witness_HamperCiphersAndHashes :
    HMetAt symRows 0 (vaulted [aes 0 3] (hcmd 0x0301 16 16 0 (hk 0) 0 []) [] []) (hcmd 0x0301 16 16 0 (hk 0) 0 []) [aes 0 3] ∧
    HMetAt symRows 1 (vaulted [aes 0 3] (hcmd 0x0301 16 16 0 (hk 0) 0 [1]) [] []) (hcmd 0x0301 16 16 0 (hk 0) 0 [1]) [aes 0 3] ∧
    HMetAt symRows 2 (vaulted [aes 0 2] (hcmd 0x0301 16 16 0 (hk 0) 0 []) [] []) (hcmd 0x0301 16 16 0 (hk 0) 0 []) [aes 0 2] ∧
    HMetAt symRows 3 (vaulted [aes 0 3] (hcmd 0x0302 16 16 0 (hk 0) 0 []) [] []) (hcmd 0x0302 16 16 0 (hk 0) 0 []) [aes 0 3] ∧
    HMetAt symRows 4 (vaulted [tdea 2] (hcmd 0x0302 8 8 0 (hk 0) 0 [1]) [] []) (hcmd 0x0302 8 8 0 (hk 0) 0 [1]) [tdea 2] ∧
    HMetAt symRows 5 (vaulted [aes 0 3] (hcmd 0x0303 1 1 0 (hk 0) 0 []) [] []) (hcmd 0x0303 1 1 0 (hk 0) 0 []) [aes 0 3] ∧
    HMetAt symRows 6 (vaulted [aes 0 3] (hcmd 0x0304 1 17 1 (hk 0) 0 [0x1000]) [] []) (hcmd 0x0304 1 17 1 (hk 0) 0 [0x1000]) [aes 0 3] ∧
    HMetAt symRows 7 (vaulted [aes 0 3] (hcmd 0x0304 1 29 1 (hk 0) 0 [0x1002]) [] []) (hcmd 0x0304 1 29 1 (hk 0) 0 [0x1002]) [aes 0 3] ∧
    HMetAt symRows 8 (vaulted [aes 0 3] (hcmd 0x0304 17 1 1 (hk 0) 0 [0x1001]) [] []) (hcmd 0x0304 17 1 1 (hk 0) 0 [0x1001]) [aes 0 3] ∧
    HMetAt symRows 9 (vaulted [keyOf 0 3 3 0 (zeros 32) [], keyOf 1 3 3 0 (List.replicate 32 1) []] (hcmd 0x0305 16 16 0 (hk 0) (hk 1) []) [] []) (hcmd 0x0305 16 16 0 (hk 0) (hk 1) []) [keyOf 0 3 3 0 (zeros 32) [], keyOf 1 3 3 0 (List.replicate 32 1) []] ∧
    HMetAt symRows 10 (vaulted [aes 0 8] (hcmd 0x0306 0 16 0 (hk 0) 0 [0x1000]) [] []) (hcmd 0x0306 0 16 0 (hk 0) 0 [0x1000]) [aes 0 8] ∧
    HMetAt symRows 11 (vaulted [aes 0 8] (hcmd 0x0306 0 0 16 (hk 0) 0 [0x1001]) [] []) (hcmd 0x0306 0 0 16 (hk 0) 0 [0x1001]) [aes 0 8] ∧
    HMetAt symRows 12 (vaulted [] (hcmd 0x0601 3 64 0 0 0 [6]) [] []) (hcmd 0x0601 3 64 0 0 0 [6]) [] ∧
    HMetAt symRows 13 (vaulted [hmacKey] (hcmd 0x0602 3 48 0 (hk 0) 0 [0xC002]) [] []) (hcmd 0x0602 3 48 0 (hk 0) 0 [0xC002]) [hmacKey] ∧
    HMetAt symRows 14 (vaulted [hmacKey] (hcmd 0x0602 3 0 48 (hk 0) 0 [0xC102]) [] []) (hcmd 0x0602 3 0 48 (hk 0) 0 [0xC102]) [hmacKey] ∧
    HMetAt symRows 15 (vaulted [] (hcmd 0x0701 0 65536 0 0 0 []) [] []) (hcmd 0x0701 0 65536 0 0 0 []) [] := by
  refine ⟨⟨_, List.mem_of_getElem? (i := 0) rfl, ready_of _ _ _ _ _ ?_, ?_⟩, ⟨_, List.mem_of_getElem? (i := 1) rfl, ready_of _ _ _ _ _ ?_, ?_⟩, ⟨_, List.mem_of_getElem? (i := 2) rfl, ready_of _ _ _ _ _ ?_, ?_⟩, ⟨_, List.mem_of_getElem? (i := 3) rfl, ready_of _ _ _ _ _ ?_, ?_⟩, ⟨_, List.mem_of_getElem? (i := 4) rfl, ready_of _ _ _ _ _ ?_, ?_⟩, ⟨_, List.mem_of_getElem? (i := 5) rfl, ready_of _ _ _ _ _ ?_, ?_⟩, ⟨_, List.mem_of_getElem? (i := 6) rfl, ready_of _ _ _ _ _ ?_, ?_⟩, ⟨_, List.mem_of_getElem? (i := 7) rfl, ready_of _ _ _ _ _ ?_, ?_⟩, ⟨_, List.mem_of_getElem? (i := 8) rfl, ready_of _ _ _ _ _ ?_, ?_⟩, ⟨_, List.mem_of_getElem? (i := 9) rfl, ready_of _ _ _ _ _ ?_, ?_⟩, ⟨_, List.mem_of_getElem? (i := 10) rfl, ready_of _ _ _ _ _ ?_, ?_⟩, ⟨_, List.mem_of_getElem? (i := 11) rfl, ready_of _ _ _ _ _ ?_, ?_⟩, ⟨_, List.mem_of_getElem? (i := 12) rfl, ready_of _ _ _ _ _ ?_, ?_⟩, ⟨_, List.mem_of_getElem? (i := 13) rfl, ready_of _ _ _ _ _ ?_, ?_⟩, ⟨_, List.mem_of_getElem? (i := 14) rfl, ready_of _ _ _ _ _ ?_, ?_⟩, ⟨_, List.mem_of_getElem? (i := 15) rfl, ready_of _ _ _ _ _ ?_, ?_⟩⟩
  · decide +kernel
  · unfold noDukpt encrypts Blocks; decide +kernel
  · decide +kernel
  · exact ⟨rfl, 1, zeros 16, ⟨.inl (by decide), .inl rfl⟩, by unfold Blocks; decide⟩
  · decide +kernel
  · unfold noDukpt encrypts Blocks; decide +kernel
  · decide +kernel
  · unfold noDukpt encrypts Blocks; decide +kernel
  · decide +kernel
  · exact ⟨rfl, 8, zeros 16, ⟨.inl (by decide), .inr rfl⟩, by unfold Blocks; decide, by decide⟩
  · decide +kernel
  · decide +kernel
  · decide +kernel
  · unfold encrypts; decide +kernel
  · decide +kernel
  · unfold encrypts; decide +kernel
  · decide +kernel
  · decide +kernel
  · decide +kernel
  · decide +kernel
  · decide +kernel
  · unfold noDukpt; decide +kernel
  · decide +kernel
  · exact ⟨by decide, by decide, by decide, by decide, by decide, 1, zeros 16, .inl (by decide), .inl rfl⟩
  · decide +kernel
  · decide +kernel
  · decide +kernel
  · decide +kernel
  · decide +kernel
  · decide +kernel
  · decide +kernel
  · decide +kernel
theorem witness_HamperPayments :
    HMetAt payRows 2 (vaulted [aes 0 8] (hcmd 0x0403 1 0 14 (hk 0) 0 []) [] (digits 14)) (hcmd 0x0403 1 0 14 (hk 0) 0 []) [aes 0 8] ∧
    HMetAt payRows 3 (vaulted [aes 0 8] (hcmd 0x0404 0 8 14 (hk 0) 0 []) [] (digits 14)) (hcmd 0x0404 0 8 14 (hk 0) 0 []) [aes 0 8] ∧
    HMetAt payRows 4 (vaulted [tdea 8] (hcmd 0x0404 0 8 14 (hk 0) 0 []) [] (digits 14)) (hcmd 0x0404 0 8 14 (hk 0) 0 []) [tdea 8] ∧
    HMetAt payRows 5 ((vaulted [tdea 8] (hcmd 0x0404 0 8 14 (hk 0) 0 []) [] (digits 14)).modVault fun v => { v with arqc := [(1, [ent])] }) (hcmd 0x0404 0 8 14 (hk 0) 0 []) [tdea 8] ∧
    HMetAt payRows 6 (vaulted [aes 0 8] (hcmd 0x0404 0 8 14 (hk 0) 0 [0, 0, 1]) [] (digits 14)) (hcmd 0x0404 0 8 14 (hk 0) 0 [0, 0, 1]) [aes 0 8] ∧
    HMetAt payRows 7 (vaulted [tdea 8] (hcmd 0x0405 12 3 0 (hk 0) 0 [0x0035353535353535]) (digits 12) []) (hcmd 0x0405 12 3 0 (hk 0) 0 [0x0035353535353535]) [tdea 8] ∧
    HMetAt payRows 8 (vaulted [tdea 8] (hcmd 0x0406 12 0 0 (hk 0) 0 [0x0035353535353535, 0x353535]) (digits 12) []) (hcmd 0x0406 12 0 0 (hk 0) 0 [0x0035353535353535, 0x353535]) [tdea 8] ∧
    HMetAt payRows 9 (vaulted [aes 0 3] (hcmd 0x0408 6 6 0 (hk 0) 0 [10]) (digits 6) []) (hcmd 0x0408 6 6 0 (hk 0) 0 [10]) [aes 0 3] ∧
    HMetAt payRows 10 (vaulted [aes 0 3] (hcmd 0x0409 6 6 0 (hk 0) 0 [10]) (digits 6) []) (hcmd 0x0409 6 6 0 (hk 0) 0 [10]) [aes 0 3] := by
  refine ⟨⟨_, List.mem_of_getElem? (i := 2) rfl, ready_of _ _ _ _ _ ?_, ?_⟩, ⟨_, List.mem_of_getElem? (i := 3) rfl, ready_of _ _ _ _ _ ?_, ?_⟩, ⟨_, List.mem_of_getElem? (i := 4) rfl, ready_of _ _ _ _ _ ?_, ?_⟩, ⟨_, List.mem_of_getElem? (i := 5) rfl, ready_of _ _ _ _ _ ?_, ?_⟩, ⟨_, List.mem_of_getElem? (i := 6) rfl, ready_of _ _ _ _ _ ?_, ?_⟩, ⟨_, List.mem_of_getElem? (i := 7) rfl, ready_of _ _ _ _ _ ?_, ?_⟩, ⟨_, List.mem_of_getElem? (i := 8) rfl, ready_of _ _ _ _ _ ?_, ?_⟩, ⟨_, List.mem_of_getElem? (i := 9) rfl, ready_of _ _ _ _ _ ?_, ?_⟩, ⟨_, List.mem_of_getElem? (i := 10) rfl, ready_of _ _ _ _ _ ?_, ?_⟩⟩
  · decide +kernel
  · exact ⟨by decide, by decide, by decide, by unfold emvKey; decide, (List.replicate 12 5, [5, 5]), by decide +kernel⟩
  · decide +kernel
  · exact ⟨by decide, by decide, by decide, by decide, by decide, by decide, by decide, (List.replicate 12 5, [5, 5]), by decide +kernel⟩
  · decide +kernel
  · exact ⟨by decide, by decide, by decide, by decide, by decide, by decide, by decide, ⟨(List.replicate 12 5, [5, 5]), by decide +kernel⟩, fun e h => by cases h⟩
  · decide +kernel
  · exact ⟨by decide, by decide, by decide, by decide, by decide, by decide, by decide, ⟨(List.replicate 12 5, [5, 5]), by decide +kernel⟩, ent, List.mem_singleton_self _, by decide +kernel, by decide +kernel, ent_hash _ _ (by decide +kernel), by decide +kernel, by decide +kernel⟩
  · decide +kernel
  · decide +kernel
  · decide +kernel
  · exact ⟨by unfold cvcForm; decide, by decide, by decide, by decide, List.replicate 12 5, by decide +kernel⟩
  · decide +kernel
  · exact ⟨by unfold cvcForm; decide, by decide, by decide, by decide, by decide, List.replicate 12 5, by decide +kernel⟩
  · decide +kernel
  · exact ⟨by unfold ffForm; decide +kernel, by unfold encrypts; decide, _, ffRun_some _ _ _ _ (by decide +kernel)⟩
  · decide +kernel
  · exact ⟨by unfold ffForm; decide +kernel, rfl, by decide, by decide, _, ffRun_some _ _ _ _ (by decide +kernel)⟩
theorem witness_HamperSignaturesAndAudit :
    HMetAt signRows 0 (vaulted [curve 0] (hcmd 0x0501 0 64 0 (hk 0) 0 [1]) [] []) (hcmd 0x0501 0 64 0 (hk 0) 0 [1]) [curve 0] ∧
    HMetAt signRows 1 (vaulted [keyOf 0 0x28 0x80 0 [] (zeros 65)] (hcmd 0x0501 0 64 0 (hk 0) 0 [1]) [] []) (hcmd 0x0501 0 64 0 (hk 0) 0 [1]) [keyOf 0 0x28 0x80 0 [] (zeros 65)] ∧
    HMetAt signRows 2 (vaulted [curve 0] (hcmd 0x0502 0 0 64 (hk 0) 0 [1]) [] []) (hcmd 0x0502 0 0 64 (hk 0) 0 [1]) [curve 0] ∧
    HMetAt signRows 3 (vaulted [lattice] (hcmd 0x0503 0 2048 0 (hk 0) 0 [0x0304000000000000, 0, all1, 0]) [] []) (hcmd 0x0503 0 2048 0 (hk 0) 0 [0x0304000000000000, 0, all1, 0]) [lattice] ∧
    HMetAt signRows 4 (vaulted [lattice] (hcmd 0x0504 1088 0 0 (hk 0) 0 [0x0304000000000000, 0, all1, 0]) [] []) (hcmd 0x0504 1088 0 0 (hk 0) 0 [0x0304000000000000, 0, all1, 0]) [lattice] ∧
    HMetAt signRows 5 (vaulted [] (hcmd 0x0801 0 0 0 0 0 [0x400000, 10, 0x500000, 8]) [] []) (hcmd 0x0801 0 0 0 0 0 [0x400000, 10, 0x500000, 8]) [] ∧
    HMetAt signRows 6 ({ vaulted [] (hcmd 0x0802 0 0 0 0 0 [3, 0]) [] [] with bbkm := { dev.bbkm with chains := [(1, { chainReset with seq := 3, cps := 1 })] } }) (hcmd 0x0802 0 0 0 0 0 [3, 0]) [] ∧
    HMetAt signRows 7 ({ vaulted [] (hcmd 0x0802 0 0 0 0 0 [4, 0]) [] [] with bbkm := { dev.bbkm with chains := [(1, { chainReset with seq := 3, cps := 1 })] } }) (hcmd 0x0802 0 0 0 0 0 [4, 0]) [] ∧
    HMetAt signRows 8 (vaulted [] (hcmd 0x0803 0 0 0 0 0 []) [] []) (hcmd 0x0803 0 0 0 0 0 []) [] ∧
    HMetAt signRows 9 (vaulted [] (hcmd 0x0804 0 56 0 0 0 []) [] []) (hcmd 0x0804 0 56 0 0 0 []) [] ∧
    HMetAt signRows 10 (vaulted [] (hcmd 0x0901 0 36624 0 0 0 []) [] []) (hcmd 0x0901 0 36624 0 0 0 []) [] ∧
    HMetAt signRows 11 (vaulted [] (hcmd 0x0902 0 0 0 0 0 []) [] []) (hcmd 0x0902 0 0 0 0 0 []) [] := by
  refine ⟨⟨_, List.mem_of_getElem? (i := 0) rfl, ready_of _ _ _ _ _ ?_, ?_⟩, ⟨_, List.mem_of_getElem? (i := 1) rfl, ready_of _ _ _ _ _ ?_, ?_⟩, ⟨_, List.mem_of_getElem? (i := 2) rfl, ready_of _ _ _ _ _ ?_, ?_⟩, ⟨_, List.mem_of_getElem? (i := 3) rfl, ready_of _ _ _ _ _ ?_, ?_⟩, ⟨_, List.mem_of_getElem? (i := 4) rfl, ready_of _ _ _ _ _ ?_, ?_⟩, ⟨_, List.mem_of_getElem? (i := 5) rfl, ready_of _ _ _ _ _ ?_, ?_⟩, ⟨_, List.mem_of_getElem? (i := 6) rfl, ready_of _ _ _ _ _ ?_, ?_⟩, ⟨_, List.mem_of_getElem? (i := 7) rfl, ready_of _ _ _ _ _ ?_, ?_⟩, ⟨_, List.mem_of_getElem? (i := 8) rfl, ready_of _ _ _ _ _ ?_, ?_⟩, ⟨_, List.mem_of_getElem? (i := 9) rfl, ready_of _ _ _ _ _ ?_, ?_⟩, ⟨_, List.mem_of_getElem? (i := 10) rfl, ready_of _ _ _ _ _ ?_, ?_⟩, ⟨_, List.mem_of_getElem? (i := 11) rfl, ready_of _ _ _ _ _ ?_, ?_⟩⟩
  · decide +kernel
  · unfold sigForm; decide +kernel
  · decide +kernel
  · unfold sigForm; decide +kernel
  · decide +kernel
  · unfold sigForm; decide +kernel
  · decide +kernel
  · exact ⟨by unfold tmplOk; decide +kernel, by decide, by decide, by decide, by decide, room _ _ (by decide +kernel)⟩
  · decide +kernel
  · exact ⟨by unfold tmplOk; decide +kernel, by decide, by decide, by decide, by decide, by decide, room _ _ (by decide +kernel)⟩
  · decide +kernel
  · decide +kernel
  · decide +kernel
  · decide +kernel
  · decide +kernel
  · decide +kernel
  · decide +kernel
  · exact True.intro
  · decide +kernel
  · decide +kernel
  · decide +kernel
  · decide +kernel
  · decide +kernel
  · exact True.intro

/-! ## Rows whose operands the kernel would take minutes to compute: what is computed is a hypothesis, at operands of which it is true

The ciphertexts here were made outside the model. The storage key is open (log entry 17), so of KEY_LOAD no block can be written out. -/

/-- An AES-128 key of creel 1 as a key block under the all-zero protection key, and what a block opens to. -/
def aBlock : Bytes := toBe 208 0x44303230384430414230304e30323030313034453031303331303031303030303030303030303030303030303030303030303030464646464646464646464646464646463030303030303030303030303030303030313030303030303030504231323030303030303030303030303030323232353943324441423141383435443544304646333641323430383142394532383038383342443430303344434343373231423735433432374135343938313833354541413942394438324534314435303446394335454642313832303832
def Opened (key b : Bytes) (x : BlockOut) (l : List W64) (cr g : Nat) : Prop :=
  openBlock key b = some x ∧ x.attrs = some (l, cr, g) ∧ attrOk (l.getD 0 0) = true ∧ keyLenOk (attrAlg (l.getD 0 0)) x.secret.length = true ∧ l.getD 3 0 = 0
theorem opens_of {key b : Bytes} {x l cr g} (h : Opened key b x l cr g) : Opens key b x l cr g := ⟨h.1, h.2.1, h.2.2.1, h.2.2.2.1, .inl h.2.2.2.2⟩
def importCmd : HCmd := hcmd 0x0102 208 0 0 (hk 0) 0 []
theorem witness_KeyImport (x : BlockOut) (l : List W64) (cr g : Nat) (h : Opened (zeros 32) aBlock x l cr g) :
    HMetAt keyRows 2 (vaulted [kek 0] importCmd aBlock []) importCmd [kek 0] := by
  refine ⟨_, List.mem_of_getElem? (i := 2) rfl, ready_of _ _ _ _ _ (by decide +kernel), ?_⟩
  refine ⟨by decide, by decide, by decide, by decide, by unfold asKek; decide, room _ _ (by decide +kernel), x, l, cr, g, ?_⟩
  exact (congrArg (fun b => Opens (zeros 32) b x l cr g) (show inOf _ _ = aBlock from by decide +kernel)).mpr (opens_of h)
def transportKey : KeyObj := keyOf 0 0x21 4 0 (toBe 64 0xda574258f5107257098656ae150fed03e809f7e7fd5abb9e5a267c769670de8a66a0523a60ed9121bf2c05c023fb24a36d7993483280973d2bf6cdb93dccabd3 ++ toBe 64 0xee2645f3b215b99e20f3d5dc2cf5de9b6449393eb56eeea173badd1246c079be68e8384ec39fcf235267fdc267d4b6a25f48c1843143c572b98c8e22bfe6f679) (zeros 132)
def transported : Bytes := toBe 128 0x66a2451315ad6725268bfdabac12e98dd7e1d089c792c7e101aabef3d1971288dc4ba2c83bab76885ed31dc176d214e29735e76ca69e2359d986be41adafed4d6332f51517dbcdaa5a7ad8fafc0fde63908b259f3c7c178f83f6c3baf8cbabc4fb64ea5db3f0a9c6904ec7a8c5619e110b66020278b75a8df568e8173dbff81b
def transportCmd : HCmd := hcmd 0x0102 128 0 0 (hk 0) 0 [0x0103000000000000, 0, all1, 0, 1]
theorem witness_KeyImportTransport (h : oaepDecode (rsaPriv transportKey.secret transported) = some (zeros 16)) :
    HMetAt keyRows 4 (vaulted [transportKey] transportCmd transported []) transportCmd [transportKey] := by
  refine ⟨_, List.mem_of_getElem? (i := 4) rfl, ready_of _ _ _ _ _ (by decide +kernel), ?_⟩
  refine ⟨by decide, by unfold tmplOk; decide +kernel, by decide, by decide, by decide, .inl (by decide), by decide, by decide +kernel, by decide +kernel, room _ _ (by decide +kernel), zeros 16, ?_, by decide⟩
  exact (congrArg (fun b => oaepDecode (rsaPriv transportKey.secret b)) (show inOf _ _ = transported from by decide +kernel)).trans h
def loadCmd : HCmd := hcmd 0x0105 208 0 0 0 0 []
theorem witness_KeyLoad (x : BlockOut) (l : List W64) (h : Opened ((vaulted [] loadCmd aBlock []).storageKey 1) aBlock x l 1 0) :
    HMetAt keyRows 8 (vaulted [] loadCmd aBlock []) loadCmd [] := by
  refine ⟨_, List.mem_of_getElem? (i := 8) rfl, ready_of _ _ _ _ _ (by decide +kernel), ?_⟩
  refine ⟨by decide, by decide, room _ _ (by decide +kernel), x, l, ?_⟩
  exact (congrArg (fun b => Opens ((vaulted [] loadCmd aBlock []).storageKey 1) b x l 1 0) (show inOf _ _ = aBlock from by decide +kernel)).mpr (opens_of h)
/-- Two components of two cards, approved by both officers. -/
def combineCmd : HCmd := hcmd 0x010B 0 0 0 0 0 [0x0103000000000000, 0, all1, 0, 7]
def part (ix card : Nat) (b : Byte) : Component :=
  { creel := 1, set := 7, ix := ix, card := card, key := List.replicate 16 b, kcv := kcvOf 1 (List.replicate 16 b) }
def combining : State := (vaulted [] combineCmd [] []).modStake fun m =>
  { m with comps := [part 0 11 1, part 1 12 2], session := some { c0 := 11, c1 := 12, last := 0 },
           approvals := [{ creel := 1, name := 7, op := 0x010B, by0 := true, by1 := true, since := 0 }] }
theorem witness_KeyCombine : HMetAt keyRows 16 combining combineCmd [] := by
  refine ⟨_, List.mem_of_getElem? (i := 16) rfl, ready_of _ _ _ _ _ (by decide +kernel), ?_⟩
  have e : (combining.stake.comps.filter fun x => x.creel = combineCmd.creel ∧ x.set = fld (combineCmd.w 13) 15 0) = [part 0 11 1, part 1 12 2] := rfl
  refine ⟨by decide, by unfold tmplOk; decide +kernel, .inl (by decide), room _ _ (by decide +kernel), ⟨_, rfl⟩,
    ⟨_, List.mem_singleton_self _, rfl, rfl, rfl, rfl, rfl, by decide +kernel⟩, ?_⟩
  have a1 : attrAlg (combineCmd.w 9) = 1 := by decide
  simp only [e, a1]
  refine ⟨by decide, by decide, fun x h => ?_⟩
  simp only [List.mem_cons, List.not_mem_nil, or_false] at h
  rcases h with rfl | rfl <;> exact ⟨by decide +kernel, by simp only [part]⟩
/-- A format 4 block of PIN 1234 for a PAN of twelve fives, under the all-zero key. -/
def pinBytes : Bytes := toBe 16 0xfbff7b43262f316a669c288ab399151c
def fives : List Nat := List.replicate 12 5
def pinCmd (op o : Nat) (ps : List W64) : HCmd := hcmd op 16 o 12 (hk 0) (hk 1) ps
theorem pinIn_of (s : State) (c : HCmd) (h : pinOf16 (aesCipher (zeros 16)) pinBytes fives = some [1, 2, 3, 4]) (i : inOf s c = pinBytes) (a : auxOf s c = digits 12)
    (w : fld (c.w 9) 63 60 = 4 ∧ c.w 13 = 0 ∧ c.w 14 = 0 ∧ c.w 15 = 0) : PinIn s c [aes 0 0x10, aes 1 0x10] fives [1, 2, 3, 4] :=
  ⟨by rw [a]; decide, by decide, by decide, 1, zeros 16, .inl ⟨w.2.1, w.2.2.1, w.2.2.2, rfl, rfl, by decide⟩, by rw [if_pos w.1, i]; exact ⟨rfl, h⟩⟩
theorem witness_PinTranslate (h : pinOf16 (aesCipher (zeros 16)) pinBytes fives = some [1, 2, 3, 4]) :
    HMetAt payRows 0 (vaulted [aes 0 0x10, aes 1 0x10] (pinCmd 0x0401 16 [0x4400000000000000]) pinBytes (digits 12)) (pinCmd 0x0401 16 [0x4400000000000000]) [aes 0 0x10, aes 1 0x10] := by
  refine ⟨_, List.mem_of_getElem? (i := 0) rfl, ready_of _ _ _ _ _ (by decide +kernel), ?_⟩
  exact ⟨by unfold pinForm; decide, by decide, by decide, _, _, pinIn_of _ _ h (by decide +kernel) (by decide +kernel) (by decide)⟩
theorem witness_PinVerify (h : pinOf16 (aesCipher (zeros 16)) pinBytes fives = some [1, 2, 3, 4]) :
    HMetAt payRows 1 (vaulted [aes 0 0x10, aes 1 0x10] (pinCmd 0x0402 0 [0x4000000000000000, 0x6a312f26437bfffb, 0x1c1599b38a289c66]) pinBytes (digits 12)) (pinCmd 0x0402 0 [0x4000000000000000, 0x6a312f26437bfffb, 0x1c1599b38a289c66]) [aes 0 0x10, aes 1 0x10] := by
  refine ⟨_, List.mem_of_getElem? (i := 1) rfl, ready_of _ _ _ _ _ (by decide +kernel), ?_⟩
  exact ⟨by unfold pinForm; decide, by decide, _, _, _, pinIn_of _ _ h (by decide +kernel) (by decide +kernel) (by decide),
    (congrArg (fun b => pinOf16 (aesCipher (zeros 16)) b fives) (show HCmd.bytes _ 10 16 = pinBytes from by decide +kernel)).trans h⟩

/-! ## Rings, Plaiter jobs and lane groups -/

/-- Ring 0, enabled with 16 places in the low 16 MiB. -/
def goodRing : Ring := { ringReset with ring := 0x100004, cq := 0x200000, ctl := 1 }
def ringOn (x : Ring) : State := { dev with vault := { vaultReset with rings := [(0, x)] } }
def queueOn (x : Ring) : State := { dev with pqs := [(0, { pqReset with ring := x })] }
def lineOn (x : Ring) : State := { dev with lqs := [(16, { rx := x, tx := x, ctl := x.ctl })] }
/-- Every clause of a doorbell's rule is met by some state. -/
def DoorbellsMet (on : Ring → State) (of : State → Ring) : Prop :=
  ((on goodRing).creel 1).st ≠ .resetting ∧ (of (on goodRing)).enabled = true ∧ doorbellOk (of (on goodRing)) 16 ∧ (of (on goodRing)).fault = 0 ∧
    ¬ doorbellOk (of (on goodRing)) 17 ∧ (of (on { goodRing with fault := 3 })).fault ≠ 0 ∧ (of (on { goodRing with fault := 3 })).enabled = true ∧
    (of (on { goodRing with ctl := 0 })).enabled = false
def codeOf (s : State) (k : RingKind) (x : Ring) : Nat := s.ringCheck 1 k { x with ctl := 1 }
/-- Every clause of a control register's rule is met by some state. -/
def ControlsMet (on : Ring → State) (of : State → Ring) (k : RingKind) (flying : State → Nat) : Prop :=
  flying (on goodRing) = 0 ∧ codeOf (on goodRing) k (of (on goodRing)) = 0 ∧ (of (on goodRing)).enabled = true ∧
    (of (on { goodRing with ctl := 0 })).enabled = false ∧ codeOf (on { goodRing with ctl := 0 }) k (of (on { goodRing with ctl := 0 })) = 0 ∧
    codeOf (on { goodRing with ring := 0x10000D }) k (of (on { goodRing with ring := 0x10000D })) ≠ 0
theorem witness_RingRegisters :
    Holds dev 0 1 ∧ DoorbellsMet ringOn (fun t => t.hring 0) ∧ ControlsMet ringOn (fun t => t.hring 0) hrKind (fun t => t.hInFlight 0) ∧
    dev.pqHolder.has (0 : Fin 256) = true ∧ DoorbellsMet queueOn (fun t => (t.pq 0).ring) ∧
    ControlsMet queueOn (fun t => (t.pq 0).ring) pqKind (fun t => t.pqInFlight 0) ∧
    (dev.unitCreel.has (fld (1 : W64) 35 32) = true ∧ dev.unitCreel.get 64 (fld (1 : W64) 35 32) = 1) ∧
    (lineOn goodRing).lqs.has (16 * (1 : CreelId).val + (0 : Fin 16).val) = true ∧ DoorbellsMet lineOn (fun t => (t.lq 16).rx) ∧
    ControlsMet lineOn (fun t => (t.lq 16).rx) lrxKind (fun t => t.linePending 16 false) ∧
    (lineOn goodRing).lqs.has (16 * (1 : CreelId).val + (1 : Fin 16).val) = false := by
  unfold Holds DoorbellsMet ControlsMet doorbellOk
  refine ⟨?_, ?_, ?_, ?_, ?_, ?_, ?_, ?_, ?_, ?_, ?_⟩ <;> decide +kernel

def aChain : Audit := { auditReset with set := true, ring := 0x300000, log2n := 4, area := 0x400000, slots := 1 }
/-- Ring 0 with one descriptor posted, its opcode's bytes, the creel's audit, and rings 0 and 1 where ring 1 may be next. -/
def posted (x : Ring) (op : Byte) (a : Audit) (second : Bool) : State :=
  { dev with
    ringHolder := if second then [(0, 1), (1, 1)] else [(0, 1)],
    mem := { dev.mem with cells := if op = 0 then [] else [(0x100006, op), (0x100007, 1)] },
    vault := { vaultReset with rings := [(0, { x with prod := 1 }), (1, { x with prod := 1 })], audit := [(1, a)], ringTurn := if second then [(1, 0)] else [] } }
def firstOf (s : State) : Sum Nat (List W64) := s.ringRead 1 hrKind (s.hring 0)
def opened1 (s : State) : Bool := match firstOf s with | .inr ws => s.vaultOpen 1 (ws.getD 0 0) | .inl _ => false
def known1 (s : State) : Bool := match firstOf s with | .inr ws => decide (fld (ws.getD 0 0) 63 48 ∈ hamperOps) | .inl _ => false
def readOk (s : State) : Bool := match firstOf s with | .inr _ => true | .inl _ => false
def Takes (s : State) : Prop :=
  Holds s 0 1 ∧ (s.creel 1).st = .running ∧ s.runsRole 1 = true ∧ s.paused = false ∧ s.hInFlight 0 < 256 ∧ (s.hring 0).ready (s.hInFlight 0) = true
/-- Ring 0's command has ended so, lost or not, in a creel whose audit holds nothing. -/
def aDone (waits recorded : Bool) : HDone :=
  { status := 0, result := 0, waits := waits, unmirrored := false, recorded := recorded, sec := 0, frac := 0, st := 0, k1 := 0, k2 := 0, count1 := 0, sess := none }
def doneCmd (o : HDone) (lost : Bool) : HCmd := { flight with out := some o, lost := lost, words := [0x200000000] }
def ended1 (o : HDone) (lost : Bool) : State :=
  { dev with sources := [(0, { holder := some 1, dest := 0, core := 0, vector := 0, mask := false, pending := false })],
             vault := { vaultReset with rings := [(0, { goodRing with ctl := 5 })], active := [doneCmd o lost] } }
def EndsSo (o : HDone) (lost : Bool) : Prop := let s := ended1 o lost
  Holds s 0 1 ∧ s.vault.active.find? (fun c => c.id = 0) = some (doneCmd o lost) ∧ (doneCmd o lost).out = some o ∧ (doneCmd o lost).origin = .ring 0 ∧
    (doneCmd o lost).creel = 1 ∧ (s.audit 1).held = []
theorem witness_HamperRings :
    (Holds (ringOn goodRing) 0 1 ∧ ((ringOn goodRing).hring 0).ready ((ringOn goodRing).hInFlight 0) = false) ∧
    (let s := posted { goodRing with ring := 0x10000000004 } 1 aChain false
     Takes s ∧ readOk s = false) ∧
    (let s := posted goodRing 1 aChain true
     Takes s ∧ opened1 s = true ∧ s.hTurn ≠ some 0) ∧
    (let s := posted goodRing 1 aChain false
     Takes s ∧ opened1 s = true ∧ s.hTurn = some 0 ∧ known1 s = true) ∧
    (let s := posted goodRing 0 aChain false
     Takes s ∧ opened1 s = true ∧ s.hTurn = some 0 ∧ readOk s = true ∧ known1 s = false) ∧
    (let s := posted goodRing 1 auditReset false
     Takes s ∧ readOk s = true ∧ opened1 s = false) ∧
    EndsSo (aDone true false) false ∧ EndsSo (aDone false true) true ∧ EndsSo (aDone false false) false ∧
    (let o := aDone false true
     let s := ended1 o false
     let x := s.hring 0
     EndsSo o false ∧ s.dmaOk 1 (x.cqBase + 32 * (x.cqProd % x.size)) 32 true = true ∧ tbit ((doneCmd o false).w 0) 33 = true ∧ tbit x.ctl 2 = true ∧
       (s.src x.event).holder = some 1) := by
  unfold Takes EndsSo Holds
  refine ⟨?_, ?_, ?_, ?_, ?_, ?_, ?_, ?_, ?_, ?_⟩ <;> decide +kernel

def vaultIs (f : Vault → Vault) : State := { dev with vault := f vaultReset }
def aSess : Sess := { sessReset with gen := 1, creel := 1, closed := 0, expiry := 5 }
theorem witness_HamperHousekeeping :
    (let s := vaultIs fun v => { v with sess := [(0, aSess)] }
     s.vault.sess.has (0 : Fin 4096) = true ∧ (s.session 0).closed = 0 ∧ (s.session 0).expiry ≠ BitVec.allOnes 64 ∧ s.hoop.sec ≤ (s.session 0).expiry.toNat) ∧
    (let s : State := { vaultIs (fun v => { v with sess := [(0, aSess)] }) with hoop := { hoopReset with sec := 6 } }
     (s.session 0).closed = 0 ∧ (s.session 0).expiry.toNat < s.hoop.sec) ∧
    (let s := vaultIs fun v => { v with audit := [(1, { aChain with waiting := [(0, [1])] })] }
     (s.audit 1).waiting = (0, [1]) :: [] ∧ (s.audit 1).set = true ∧ 0 < (s.audit 1).cpUsed + (s.audit 1).slots ∧
       s.dmaOk 1 ((s.audit 1).area + 40960 * (0 % max 1 (s.audit 1).slots)) 40960 true = true) ∧
    (dev.audit 1).waiting = [] ∧
    (let s := vaultIs fun v => { v with objs := [(1, { keyReset with w0 := 0x100000000, handle := handleOf 1 1 1 })] }
     s.objOf 1 (handleOf 1 1 1) = some { keyReset with w0 := 0x100000000, handle := handleOf 1 1 1 }) ∧
    (let s := vaultIs fun v => { v with drbg := [(0, { requests := 65536, since := 0 })] }
     s.vault.entropy = 0 ∧ 65536 ≤ (s.vault.drbg.get drbgReset (0 : Fin 65)).requests) ∧
    (let s := vaultIs fun v => { v with entropy := 1, reruns := 1 }
     s.vault.entropy = 1 ∧ s.vault.reruns < 2) ∧
    (let s := vaultIs fun v => { v with entropy := 1, reruns := 2 }
     s.vault.entropy = 1 ∧ s.vault.reruns = 2) ∧
    (68 ≤ (68 : Fin 70).val ∧ (0 : Fin 70).val < 68 ∧ dev.vault.engines.get 0 (0 : Fin 70) = 0 ∧
      (vaultIs fun v => { v with engines := [(0, 1)] }).vault.engines.get 0 (0 : Fin 70) ≠ 0 ∧
      dev.reserve.hamper.get 0 (hamperClass 0) < hamperReserve (hamperClass 0)) := by
  refine ⟨?_, ?_, ?_, ?_, ?_, ?_, ?_, ?_, ?_⟩ <;> decide +kernel

/-! ## Jobs and doors of the Plaiter -/

/-- Cells that hold these bytes from an address on. -/
def cellsAt (a : Nat) (b : Bytes) : List (Nat × Byte) := (b.zipIdx.filter (·.1 ≠ 0)).map fun p => (a + p.2, p.1)
/-- An image of one code word: its header, padding, and the SHA-256 of what comes before (computed outside the model). -/
def imageHead : Bytes := toLe 8 0x3130474D49544C50 ++ toLe 4 196 ++ toLe 4 4 ++ zeros 148
def imageDigest256 : Bytes := toBe 32 0x148dcd98c39d04f02fd6ce8f2e36568b27de0ce8a76dd5445080c3500591dd16
def anImage : Bytes := imageHead ++ imageDigest256
theorem test_sha256_image : sha256 imageHead = imageDigest256 := by decide +kernel
/-- An entry that runs from word 0 with a message in a format, and an image that holds it. -/
def entryOf (fmt : Nat) : W64 := w64 (2 ^ 63 + fmt * 2 ^ 48)
def imgOf (fmt : Nat) : Img := { code := [], maps := [], data := [], entries := [entryOf fmt] }
/-- Unit 0 with this content and memory, and queue 0's ring. -/
def plaiterOn (x : Machine.PUnit) (r : Ring) (m : List (Nat × Byte)) : State :=
  { dev with units := [(0, x)], pqs := [(0, { pqReset with ring := r })], mem := { dev.mem with cells := m } }
/-- A descriptor posted on queue 0: the program, and one byte of message at 0x300000. -/
def jobAt (prog : Byte) : State :=
  plaiterOn { unitReset with img := some (imgOf 0) } { goodRing with prod := 1 } ([(0x100007, prog), (0x10000A, 0x30), (0x100014, 1)].filter (·.2 ≠ 0))
def jobWords (s : State) : List W64 := match s.ringRead (s.unitCr 0) pqKind (s.pq 0).ring with | .inr ws => ws | .inl _ => []
def MayTake (s : State) : Prop :=
  s.unitCreel.has (0 : Fin 16) = true ∧ (s.creel (s.unitCr 0)).st = .running ∧ s.runsRole (s.unitCr 0) = true ∧ (s.unit 0).leaving = false ∧
    (s.unit 0).load = none ∧ s.paused = false ∧ s.idleSeq 0 = some 0 ∧ ((upto ((s.unit 0).turn + 1) 256).map (· % 256)).find? (s.pqReady 0) = some 0 ∧
    jobWords s ≠ []
/-- Unit 0 loads the image at 0x300000. -/
def loading (b : Bytes) : State :=
  plaiterOn { unitReset with load := some { jobReset with words := [0, 0x300000, w64 (b.length * 2 ^ 32)], phase := .load } } goodRing (cellsAt 0x300000 b)
/-- Unit 0 with one job on sequencer 0: words, phase and image format; its message is the byte 0x41. -/
def jobOn (fmt : Nat) (f : Job → Job) : State :=
  { plaiterOn { unitReset with img := some (imgOf fmt), jobs := [(0, f { jobReset with words := [0, 0x300000, 0x100000000] })] }
      { goodRing with ctl := 0x1000000000001 } [(0x300000, 0x41)] with seqs := [(14, { seqReset with run := true })] }
def stopped (s : State) : State := { s with seqs := [(14, seqReset)] }
def poisonAt (s : State) (l : Nat) : State := { s with mem := { s.mem with poison := [l] } }
def extracted (fmt : Nat) : State := (jobOn fmt id).modJob 0 0 fun x => { x with msg := (jobOn fmt id).rdBytes 0x300000 1 }
theorem witness_PlaiterJobs :
    (MayTake (jobAt 0) ∧ fld ((jobWords (jobAt 0)).getD 0 0) 63 56 ≠ 0xFF ∧
      jobStatus (jobAt 0) 0 { jobReset with queue := 0, index := 0, words := jobWords (jobAt 0) } = 0) ∧
    (MayTake (jobAt 1) ∧ fld ((jobWords (jobAt 1)).getD 0 0) 63 56 ≠ 0xFF ∧
      jobStatus (jobAt 1) 0 { jobReset with queue := 0, index := 0, words := jobWords (jobAt 1) } ≠ 0) ∧
    (MayTake (jobAt 0xFF) ∧ fld ((jobWords (jobAt 0xFF)).getD 0 0) 63 56 = 0xFF) ∧
    (((loading anImage).unit 0).load.isSome = true ∧ ((loading anImage).unit 0).jobs = [] ∧ (loading anImage).rdBytes 0x300000 196 = anImage ∧
      (loading anImage).poisonedRange 0x300000 196 = false ∧ imageFault anImage = none ∧ anImage.take (anImage.length - 32) = imageHead ∧
      anImage.drop (anImage.length - 32) = imageDigest256) ∧ imageFault imageHead ≠ none ∧
    (let s := jobOn 0 fun j => { j with words := [0, 0x300000, 0x100000000, 0, 0, 7] }
     s.hasJob 0 0 = true ∧ (s.job 0 0).phase = .taken ∧ (s.job 0 0).words.getD 5 0 ≠ 0 ∧ (s.job 0 0).ending = none ∧ s.poisonedRange 0x300000 12 = false) ∧
    (let s := jobOn 0 id
     s.hasJob 0 0 = true ∧ (s.job 0 0).ending = none ∧ (s.job 0 0).phase = .taken ∧ (s.job 0 0).words.getD 5 0 = 0 ∧ s.jobEntry 0 0 = some (entryOf 0) ∧
       fld (entryOf 0) 55 48 = 0 ∧ s.poisonedRange 0x300000 1 = false ∧ (poisonAt s 0xC000).poisonedRange 0x300000 1 = true ∧
       (poisonAt s 0xC000).jobEntry 0 0 = some (entryOf 0)) ∧
    ((jobOn 1 id).jobEntry 0 0 = some (entryOf 1) ∧ (jobOn 1 id).poisonedRange 0x300000 1 = false ∧
      (match (extracted 1).extract 0 0 (entryOf 1) with | .inl _ => true | .inr _ => false) = true) ∧
    (let s := stopped (jobOn 0 fun j => { j with phase := .run, ending := some { status := 0, fault := 0, pc := 0, result := 0, outLen := 0, detail := 0 } })
     s.hasJob 0 0 = true ∧ (s.job 0 0).ops = [] ∧ (s.job 0 0).phase = .run ∧ (s.seq (plaiterSeq 0 0)).run = false ∧ (s.seq (plaiterSeq 0 0)).miss = none ∧
       (s.seq (plaiterSeq 0 0)).ops = [] ∧ (s.job 0 0).ending.isSome = true ∧ s.role (s.unitCr 0) ≠ 1 ∧ s.pqHolder.has (s.job 0 0).queue = true ∧
       (let r := (s.pq (s.job 0 0).queue).ring
        s.dmaOk (s.pqHolder.get 0 (s.job 0 0).queue) (r.cqBase + 64 * (r.cqProd % r.size)) 64 true = true)) ∧
    ((jobOn 0 fun j => { j with ops := [{ dest := 1, call := none, p := 0, result := some 5 }] }).job 0 0).ops ≠ [] ∧
    (let s : State := { jobOn 0 (fun j => { j with phase := .run }) with hoop := { hoopReset with sec := 1 } }
     s.hasJob 0 0 = true ∧ (s.job 0 0).phase = .run ∧ (s.seq (plaiterSeq 0 0)).run = true ∧
       (let lim := fld (s.pq (s.job 0 0).queue).ring.ctl 63 48
        lim ≠ 0 ∧ lim * 2 ^ 32 < (s.now - (s.job 0 0).since) * 1000000)) ∧
    (let s := plaiterOn { unitReset with leaving := true } goodRing []
     (s.unit 0).leaving = true ∧ (s.unit 0).jobs = []) := by
  unfold MayTake
  refine ⟨?_, ?_, ?_, ?_, ?_, ?_, ?_, ?_, ?_, ?_, ?_, ?_⟩ <;> decide +kernel

/-- Sequencer 0 of unit 0 runs a job of an image's format, with these words at the start of its local data. -/
def door (fmt : Nat) (ws : List Nat) (f : Job → Job) : State :=
  { plaiterOn { unitReset with img := some (imgOf fmt), jobs := [(0, f { jobReset with phase := .run })], data := [(0, cellsAt 0 (ws.flatMap (toLe 8)))] } goodRing []
    with seqs := [(14, { seqReset with run := true })] }
theorem door_runs (s : State) (h : ((s.seq (seqIx pseq)).run = true ∧ (s.seq (seqIx pseq)).skew = [] ∧ (s.seq (seqIx pseq)).fenced = false ∧
    ((settled s pseq).seq (seqIx pseq)).x.pc.toNat < seqImemSize (seqIx pseq) ∧ ((settled s pseq).seq (seqIx pseq)).x.rdp 0 = true ∧
    ((settled s pseq).seq (seqIx pseq)).busy = [] ∧ ((settled s pseq).seq (seqIx pseq)).poisoned = []) ∧
    tbit ((settled s pseq).seq (seqIx pseq)).mode 1 = false ∧ (settled s pseq).hasJob 0 0 = true ∧ ((settled s pseq).job 0 0).ending = none ∧
    ((settled s pseq).job 0 0).ops.length < 4) : DoorRuns s 0 0 0 5 (settled s pseq) :=
  ⟨seqRuns_of s pseq [] [5] h.1, h.2.1, h.2.2.1, h.2.2.2.1, h.2.2.2.2⟩
/-- What a door of sequencer 0 works on. -/
def inside (s : State) : State := seqBody (settled s pseq) pseq [5]
/-- A sealed field of the job at entry 5, whose handle is `theSeal`. -/
def sealedOn (s : State) (emit : Bool) : State :=
  { s with seals := [(5, { creel := 1, gen := 1, seq := 0, entries := 1, bytes := [0x31, 0x32], emittable := emit })] }
def theSeal : Nat := 0x4010005
def tokOf (ty : Nat) (own : Option (Nat × Nat)) : Tok := { ty := ty, depth := 1, data := [0x61], off := 0, own := own }
def toks1 (own : Option (Nat × Nat)) (n : Nat) (j : Job) : Job := { j with toks := [tokOf 4 own], flds := List.replicate n { w0 := 0, w1 := 0 } }
def op5 : DoorOp := { dest := 5, call := none, p := 0, result := some 7 }
theorem witness_DoorOperationCompletion : (((jobOn 0 fun j => { j with ops := [op5] }).job 0 0).ops.find? (fun o => o.result.isSome)) = some op5 ∧ op5.dest ≠ 0 := by
  decide +kernel
/-- CONVERT of the byte "a" of the data from offset 32 on: from and to charsets, and the space for the result. -/
def converting (cs room : Nat) : State := door 0 [cs * 2 ^ 56 + 1, 32, 64, room, 0x61] id
def convDone (s : State) : Option Nat :=
  let v := inside s
  match convertText 1 1 false (v.localRead 0 0 32 1) with | .inr b => some b.length | .inl _ => none
def w (s : State) (i : Nat) : W64 := (inside s).paramWord 0 0 0 i
theorem witness_PlaiterDoors_convert :
    DoorRuns (converting 0 8) 0 0 0 5 (settled (converting 0 8) pseq) ∧ DoorRuns (converting 0x11 8) 0 0 0 5 (settled (converting 0x11 8) pseq) ∧
    charsetOk (fld (w (converting 0 8) 0) 63 60) = false ∧
    (let s := converting 0x11 8
     charsetOk (fld (w s 0) 63 60) = true ∧ charsetOk (fld (w s 0) 59 56) = true ∧ localReadable (w s 1).toNat (fld (w s 0) 31 0) = true ∧
       localWritable (w s 2).toNat (w s 3).toNat = true ∧ convDone s = some 1 ∧ (w s 3).toNat = 8) ∧
    ((w (converting 0x11 0) 3).toNat < 1 ∧ convDone (converting 0x11 0) = some 1) ∧
    localWritable (w (converting 0x11 0x10000) 2).toNat (w (converting 0x11 0x10000) 3).toNat = false := by
  refine ⟨door_runs _ ?_, door_runs _ ?_, ?_, ?_, ?_, ?_⟩ <;> decide +kernel
/-- DECIMAL of one ASCII digit at 32, or of the value block there, with 48 bytes of room at 128. -/
def deciding (op : Nat) (b : Nat) : State := door 0 [op * 2 ^ 60 + 2 ^ 56 + 1 * 2 ^ 16, 32, 128, 0, b] id
theorem witness_PlaiterDoors_decimal :
    DoorRuns (deciding 0 0x37) 0 0 0 5 (settled (deciding 0 0x37) pseq) ∧ (charsetOk (fld (w (deciding 0 0x37) 0) 59 56) = true ∧ fld (w (deciding 0 0x37) 0) 47 40 ≤ 2) ∧
    (let s := deciding 0 0x37
     fld (w s 0) 63 60 = 0 ∧ localReadable (w s 1).toNat 1 = true ∧ localWritable (w s 2).toNat 48 = true ∧
       parseDecimal 0 0 (decimalChars 1 1 ((inside s).localRead 0 0 32 1)) = some (false, 7, 0)) ∧
    parseDecimal 0 0 (decimalChars 1 1 ((inside (deciding 0 0x61)).localRead 0 0 32 1)) = none ∧
    (let s := deciding 1 7
     fld (w s 0) 63 60 = 1 ∧ localReadable (w s 1).toNat 48 = true ∧ localWritable (w s 2).toNat 1 = true ∧
       formatDecimal 1 0 1 0 ((inside s).localRead 0 0 32 48) = some [0x37]) := by
  refine ⟨door_runs _ ?_, ?_, ?_, ?_, ?_⟩ <;> decide +kernel
/-- EMIT of the sealed field to an address with this much room. -/
def emitting (a room : Nat) (emit : Bool) : State := sealedOn (door 0 [theSeal, a, room] id) emit
def sealHere (s : State) : Option SealEnt := (inside s).sealOf (some 0) ((inside s).unitCr 0) (fld (w s 0) 31 0)
theorem witness_PlaiterDoors_emit :
    DoorRuns (emitting (localBase + 64) 8 true) 0 0 0 5 (settled (emitting (localBase + 64) 8 true) pseq) ∧
    (inside (door 0 [theSeal] id)).sealOf (some 0) 1 theSeal = none ∧ (sealHere (emitting 0 0 false)).map (·.emittable) = some false ∧
    (let s := emitting (localBase + 64) 8 true
     (sealHere s).map (·.emittable) = some true ∧ emitText (fld (w s 0) 35 32) [0x31, 0x32] = some [0x31, 0x32] ∧ localBase ≤ (w s 1).toNat ∧
       localWritable ((w s 1).toNat - localBase) ((w s 2).toNat % 2 ^ 32) = true ∧ 2 ≤ (w s 2).toNat % 2 ^ 32) ∧
    (w (emitting (localBase + 64) 1 true) 2).toNat % 2 ^ 32 < 2 ∧
    (let s := emitting 0x300000 8 true
     (sealHere s).map (·.emittable) = some true ∧ (w s 1).toNat < localBase ∧ 2 ≤ (w s 2).toNat % 2 ^ 32 ∧
       (inside s).dmaOk ((inside s).unitCr 0) (w s 1).toNat ((w s 2).toNat % 2 ^ 32) true = true) := by
  refine ⟨door_runs _ ?_, ?_, ?_, ?_, ?_, ?_⟩ <;> decide +kernel
/-- NEXT and CANON of one token. -/
def nextOk (s : State) : Bool :=
  let v := inside s
  match v.jobEntry 0 0 with
  | some e => match v.loadSegment 0 0 0 (v.jobMap 0 e).ents with
    | .inr x => (x.job 0 0).ending.isNone && decide ((x.job 0 0).flds.length < 2 ^ 32)
    | .inl _ => false
  | none => false
def canonOn (fmt : Nat) (own : Option (Nat × Nat)) : State := door fmt [0, 64, 16] (toks1 own 1)
def canonToks (s : State) : List Tok := (((inside s).job 0 0).toks.drop (fld (w s 0) 15 0)).take 1
theorem witness_PlaiterDoors_next_canon :
    DoorRuns (door 3 [] (toks1 none 0)) 0 0 0 5 (settled (door 3 [] (toks1 none 0)) pseq) ∧ DoorRuns (canonOn 3 none) 0 0 0 5 (settled (canonOn 3 none) pseq) ∧
    ((inside (door 3 [] id)).job 0 0).toks.length ≤ ((inside (door 3 [] id)).job 0 0).tokAt + ((inside (door 3 [] id)).job 0 0).flds.length ∧
    (0 + ((inside (door 3 [] (toks1 none 0))).job 0 0).flds.length < ((inside (door 3 [] (toks1 none 0))).job 0 0).toks.length ∧
      nextOk (door 3 [] (toks1 none 0)) = true) ∧
    ((inside (canonOn 1 none)).jobEntry 0 0 = some (entryOf 1) ∧ fld (entryOf 1) 55 48 ≠ 3) ∧
    (let s := canonOn 3 none
     (inside s).jobEntry 0 0 = some (entryOf 3) ∧ fld (entryOf 3) 55 48 = 3 ∧ fld (w s 0) 15 0 < fld (w s 0) 31 16 + 1 ∧
       fld (w s 0) 31 16 + 1 ≤ ((inside s).job 0 0).flds.length ∧ localWritable (w s 1).toNat (w s 2).toNat = true ∧ (∀ x ∈ canonToks s, x.own = none) ∧
       ((inside s).job 0 0).canon = none ∧ (canonText ((inside s).job 0 0).toks 0 1).length ≤ (w s 2).toNat) ∧
    (∃ x ∈ canonToks (canonOn 3 (some (0, 0))), x.own.isSome = true) := by
  refine ⟨door_runs _ ?_, door_runs _ ?_, ?_, ?_, ?_, ?_, ?_⟩ <;> decide +kernel

/-! ## Lane groups, line ports, the router -/

def onLg (n : Nat) (g : Lg) : State := { dev with lgs := [(n, g)] }
/-- Lane group 0 with one root port of creel 1, its link up with CXL; no owner where `who` is 127. -/
def rootOf (who : Nat) : Lg := { lgReset with cfg := w64 (9 + who * 2 ^ 10), linkUp := 1, cxlUp := 1 }
def aWindow (a b : Nat) : HostFn := { hfReset with tgt := [(0, w64 a)], host := [(0, w64 b)] }
def onFn (f : HostFn) : State := { dev with hostFns := [(hfKey 0 2, f)] }
/-- The staged windows of endpoint 0's function 2, and what a commit asks of them. -/
def stagedW (s : State) : List (W64 × W64) :=
  let f := s.hf 0 2
  ((List.range 8).map fun k => (f.tgt.get 0 k, f.host.get 0 k)).filter fun p => fld p.1 5 0 ≠ 0
def sized (s : State) : Bool := (stagedW s).all fun p => 12 ≤ fld p.1 5 0 && fld p.1 5 0 ≤ 36
def alignedW (s : State) : Bool := (stagedW s).all fun p =>
  fld p.2 35 12 * 4096 % 2 ^ fld p.1 5 0 == 0 && fld p.1 51 12 * 4096 % 2 ^ fld p.1 5 0 == 0
def twoWindows : HostFn := { hfReset with tgt := [(0, 0x10000C), (1, 0x20000C)], host := [(0, 0x5000), (1, 0x5000)] }
theorem witness_LaneGroupRegisters :
    (let s := onLg 0 { rootOf 1 with hdm := [(0, 1)] }
     let old := (s.lg 0).hdm.get 0 0
     tbit old 0 = true ∧ setFld (setFld (setFld (0x3 : W64) 33 8 0) 4 2 0) 1 0 0 = setFld old 1 0 0 ∧
       setFld (setFld (setFld (0x20 : W64) 33 8 0) 4 2 0) 1 0 0 ≠ setFld old 1 0 0) ∧
    (let s := onLg 0 (rootOf 1)
     tbit ((s.lg 0).hdm.get 0 0) 0 = false ∧ tbit (1 : W64) 0 = true ∧ ¬ (fld (1 : W64) 48 34 < fld (1 : W64) 63 49 ∨
       (s.lg (0 : Fin 10)).cxlUp.testBit (fld (1 : W64) 7 6) = false) ∧ (∀ m, m < 10 → (s.lg m).hdm = [])) ∧
    decoderRefused (onLg 0 (rootOf 1)) 0 0 0x41 ∧ stagedW (onFn hfReset) = [] ∧
    (let s := onFn (aWindow 0x10000C 0x5000)
     sized s = true ∧ alignedW s = true ∧ (stagedW s).length = 1) ∧
    sized (onFn (aWindow 0x10000B 0x5000)) = false ∧
    (sized (onFn (aWindow 0x10000D 0x5000)) = true ∧ alignedW (onFn (aWindow 0x10000D 0x5000)) = false) ∧
    (sized (onFn twoWindows) = true ∧ alignedW (onFn twoWindows) = true ∧ ¬ (stagedW (onFn twoWindows)).Pairwise (fun a b => ¬ windowsMeet a b)) := by
  unfold windowsMeet decoderRefused
  refine ⟨?_, ?_, .inr (.inl ?_), ?_, ?_, ?_, ?_, ?_, ?_, ?_⟩ <;> decide +kernel

/-- Request 7 of lane group 0: what it is for, who sent it, and the load of core 0 that it serves (alone, or with request 8). -/
def aReq (what who creel : Nat) : LgReq := { tag := 7, port := 0, what := what, core := who, creel := creel, pa := 0, due := 5, abandoned := false }
def loadsOf (two : Bool) : DevLoad :=
  { parts := { tag := 7, data := none } :: (if two then [{ tag := 8, data := none }] else []), lg := 0, pa := 0, dest := .reg 5 8 false, acquire := false }
def asked (r : LgReq) (d : Option DevLoad) : State :=
  { dev with lgs := [(0, { rootOf 1 with reqs := [r] })], cores := [(0, { runningCore with dev := d })],
             seqs := [(14, { seqReset with ops := [{ dev := some (7, .reg 5 8 false), regs := [5], vals := [], poison := false, done := false, miss := false }] })] }
def Calm (s : State) : Prop := s.resetting = [] ∧ s.stake.warm = false
theorem witness_LaneCompletions :
    ((onLg 0 (rootOf 1)).lg (0 : Fin 10)).reqs.find? (fun r => r.tag = 7) = none ∧
    (let r := { aReq 0 0 1 with abandoned := true }
     ((asked r none).lg (0 : Fin 10)).reqs.find? (fun r => r.tag = 7) = some r ∧ r.abandoned = true) ∧
    (let s := asked (aReq 0 0 1) (some (loadsOf false))
     Waiting s 0 7 (aReq 0 0 1) ∧ (s.core 0).dev = some (loadsOf false) ∧ (loadsOf false).parts = [{ tag := 7, data := none }] ∧
       s.creelOf 0 = some 1 ∧ tbit ((s.core 0).sysr 0x41) 7 = false) ∧
    (let s := asked (aReq 0 0 1) (some (loadsOf true))
     Waiting s 0 7 (aReq 0 0 1) ∧ (s.core 0).dev = some (loadsOf true) ∧ (∃ p ∈ (loadsOf true).parts, p.tag = 7) ∧
       ∃ p ∈ (loadsOf true).parts, p.tag ≠ 7 ∧ p.data = none) ∧
    (Waiting (asked (aReq 4 14 1) none) 0 7 (aReq 4 14 1) ∧ Calm (asked (aReq 4 14 1) none)) ∧
    (Waiting (asked (aReq 1 0 1) none) 0 7 (aReq 1 0 1) ∧ Calm (asked (aReq 1 0 1) none)) ∧
    (Waiting (asked (aReq 2 14 1) none) 0 7 (aReq 2 14 1) ∧ (((asked (aReq 2 14 1) none).seq 14).ops.map (·.dev)) = [some (1024 * 0 + 7, .reg 5 8 false)]) ∧
    Waiting (asked (aReq 3 0 1) none) 0 7 (aReq 3 0 1) ∧ (asked (aReq 3 0 1) none).clock < (aReq 3 0 1).due ∧
    (let s : State := { asked (aReq 1 0 1) none with clock := 5 }
     (s.lg (0 : Fin 10)).reqs.find? (fun r => r.tag = 7) = some (aReq 1 0 1) ∧ (aReq 1 0 1).due ≤ s.clock ∧ Calm s ∧ (aReq 1 0 1).creel < 64) := by
  unfold Waiting Calm
  refine ⟨?_, ?_, ?_, ?_, ?_, ?_, ?_, ?_, ?_, ?_⟩ <;> decide +kernel

/-- Root port 0 of creel 1, or of no creel. -/
def root (who : Nat) : State := onLg 0 (rootOf who)
def poisonLine (s : State) (l : Nat) : State := { s with mem := { s.mem with poison := [l] } }
/-- Endpoint 0 with creel 1's function 2: its registers, and whether the host has enabled the VFs. -/
def hostLg : Lg := { lgReset with cfg := 2, hamask := 2, linkUp := 1 }
def outPa : Nat := 0x100000000000 + 0x4000000000 * 8 + 0x200000000 + 0x80000000
def outSeg : Seg := { w0 := w64 (outPa + 0x1F), w1 := w64 (outPa + 0x7FFFF000) }
def hosted (g : Lg) (vf : Bool) (f : HostFn) : State :=
  { onCreel (fun x => { x with segs := [(0, { w0 := 0x1F, w1 := 0xFFF000 }), (1, outSeg), (63, hubEntry)] }) with
    lgs := [(8, g)], hostFns := [(hfKey 0 0, { hfReset with vfEnable := vf, numVfs := 64 }), (hfKey 0 2, f)] }
def right (w : Bool) : Right := { r := !w, w := w, x := false, dma := true }
def exporting : HostFn := { hfReset with exports := [(1, 0x4000)], bme := true, msix := [(0, { msixReset with mask := false, pend := true })] }
def OutOk (s : State) (w : Bool) : Prop :=
  s.hostMode (8 + (0 : Fin 2).val) = true ∧ tbit (s.lg (8 + (0 : Fin 2).val)).hamask (1 : CreelId) = true ∧ s.segOk 1 outPa (right w) = true
theorem witness_InboundAndHostAccesses :
    dev.laneUp 0 0 = false ∧ ((root 127).laneUp 0 0 = true ∧ (root 127).laneCreel 0 0 = none) ∧
    (let s := root 1
     s.laneUp 0 0 = true ∧ s.laneCreel 0 0 = some 1 ∧ 0x100000 < msgPage ∧ (0x100000 : W64).toNat % 4096 + 8 ≤ 4096 ∧ s.inboundPa 0 0 0x100000 8 = some 0x100000 ∧
       s.inboundMem 0x100000 8 = true ∧ s.dmaOk 1 0x100000 8 false = true ∧ s.dmaOk 1 0x100000 8 true = true ∧ s.poisonedRange 0x100000 8 = false ∧
       (poisonLine s 0x4000).poisonedRange 0x100000 8 = true ∧ s.region 0x100000 = .dram ∧ s.dmaOk 1 0x2000000 8 false = false ∧ s.inboundMem 0x2000000 8 = true ∧
       s.dmaOk 1 0x2000000 8 true = false ∧ s.inboundPa 0 0 0x2000000 8 = some 0x2000000) ∧
    (let s : State := { root 1 with sources := [(3, { srcReset with holder := some 1 })] }
     s.laneCreel 0 0 = some 1 ∧ (s.src 3).holder = some 1 ∧ s.role 1 ≠ 1 ∧ (s.src 4).holder ≠ some 1) ∧
    (let s := hosted hostLg false exporting
     s.hostMode 8 = true ∧ s.laneUp 8 2 = true ∧ s.vfLive 0 2 = false ∧ (s.hf 0 0).vfEnable = false) ∧
    (let s := hosted hostLg true exporting
     s.laneUp 8 2 = true ∧ s.vfLive 0 2 = true ∧ fld ((s.hf 0 2).exports.get 0 1) 15 14 ≠ 0 ∧ s.exportPage 1 ((s.hf 0 2).exports.get 0 1) = some 0xFF00100000000 ∧
       s.laneUp 8 0 = true ∧ (s.hf 0 2).bme = true ∧ (s.hf 0 2).fmask = false ∧ ((s.hf 0 2).msix.get msixReset 0).mask = false ∧
       ((s.hf 0 2).msix.get msixReset 0).pend = true ∧ ((s.hf 0 2).msix.get msixReset 1).pend = false) ∧
    (OutOk (hosted hostLg true exporting) true ∧ (hosted hostLg true exporting).strictWindow 8 (0x200000000 + 0x80000000) = none) ∧
    (let s := hosted { hostLg with strict := [(0, w64 (0x300000000 + 1 + 0x200000 * 2 ^ 38))] } true exporting
     OutOk s true ∧ s.strictWindow 8 (0x200000000 + 0x80000000) = some 0 ∧ s.freeTag 8 2 = some 0) ∧
    (OutOk (hosted hostLg true exporting) false ∧ (hosted hostLg true exporting).freeTag 8 2 = some 0) ∧
    (OutOk (hosted hostLg true hfReset) false ∧ ((hosted hostLg true hfReset).hf 0 2).bme = false) := by
  unfold OutOk
  refine ⟨?_, ?_, ?_, ?_, ?_, ?_, ?_, ?_, ?_, ?_⟩ <;> decide +kernel

def portIs (x : LinePort) : State := { dev with lports := [(0, x)] }
theorem witness_EndpointResetsAndLinks :
    ((hosted hostLg true hfReset).hostMode 8 = true ∧ Calm (hosted hostLg true hfReset) ∧ dev.hostMode 8 = false) ∧
    ((0 : Fin 4).val < ((root 1).lg 0).ports ∧ ((root 1).lg 0).linkUp.testBit (0 : Fin 4) = true) ∧
    (let s := onLg 0 { rootOf 1 with linkUp := 0 }
     (0 : Fin 4).val < (s.lg 0).ports ∧ (s.lg 0).linkUp.testBit (0 : Fin 4) = false) ∧
    (fld ((portIs lportReset).lport 0).set 2 0 ≠ 0 ∧ ((portIs lportReset).lport 0).up = false ∧ ((portIs { lportReset with up := true }).lport 0).up = true) := by
  unfold Calm
  refine ⟨?_, ?_, ?_, ?_⟩ <;> decide +kernel

/-- A frame of 60 bytes: to address 0x02…01, from 0x02…02, of a type; then these bytes. -/
def frame (ty : Nat) (b : Bytes) : Bytes := [2, 0, 0, 0, 0, 1, 2, 0, 0, 0, 0, 2] ++ toBe 2 ty ++ b ++ zeros (46 - b.length)
/-- Creel 1 with slot 0 of port 0: its address, its default rule, a buffer or a frame of these lengths posted, and the memory. -/
def lined (mac : Nat) (up : Bool) (cap n : Nat) (paused : Nat) : State :=
  { dev with
    lports := [(0, { lportReset with up := up, set := 0x63, paused := paused, addrs := [(0, (w64 (2 ^ 63 + mac), w64 (2 ^ 13 + 2 ^ 12)))] })], rules := [(17 * 1 + 16, 0x10)],
    lqs := [(16, { rx := { goodRing with prod := 1 }, tx := { goodRing with ring := 0x180004, cq := 0x280000, prod := 1 }, ctl := 1 })],
    mem := { dev.mem with cells := cellsAt 0x100000 (toLe 8 0x300000 ++ toLe 8 cap) ++ cellsAt 0x180000 (toLe 8 0x400000 ++ toLe 8 n) ++ cellsAt 0x400000 (frame 0x0800 []) } }
def lineUpS : State := lined 0x20000000001 true 0x1000 60 0
def ringWords (s : State) (k : RingKind) (r : Ring) : List W64 := match s.ringRead 1 k r with | .inr ws => ws | .inl _ => []
theorem witness_LinePortFrames :
    (lined 0 false 0 60 0).lport (0 : Fin 8) ≠ lportReset ∧ ((lined 0 false 0 60 0).lport (0 : Fin 8)).up = false ∧ (lineUpS.lport (0 : Fin 8)).up = true ∧
    (let b := frame 0x8808 (toBe 2 1 ++ toBe 2 5)
     b.length = 60 ∧ frameType b = 0x8808 ∧ be16 b 14 = 1 ∧ tbit (lineUpS.lport (0 : Fin 8)).set 6 = true) ∧
    (frameType (frame 0x88F7 []) ≠ 0x8808 ∧ lineUpS.stakePtp (0 : Fin 8) (frame 0x88F7 []) = true) ∧
    (let b := frame 0x0800 []
     frameType b ≠ 0x8808 ∧ b.length = 60 ∧ lineUpS.stakePtp (0 : Fin 8) b = false ∧ (lined 0x20000000003 true 0 60 0).frameCreels (0 : Fin 8) b = [] ∧
       lineUpS.frameCreels (0 : Fin 8) b = [1] ∧ lineUpS.lineRuns 1 = true ∧ lineUpS.frameSlot 1 b = some (0, 0xFF) ∧ lineUpS.lqs.has 16 = true ∧
       (lineUpS.lq 16).port = (0 : Fin 8).val ∧ (lineUpS.lq 16).rx.ready (lineUpS.linePending 16 false) = true ∧
       ringWords lineUpS lrxKind (lineUpS.lq 16).rx = [0x300000, 0x1000] ∧ b.length ≤ fld (0x1000 : W64) 31 0 ∧ lineUpS.dmaOk 1 0x300000 60 true = true ∧
       lineUpS.dmaOk 1 0x200000 32 true = true ∧ lineUpS.role 1 ≠ 1) ∧
    ringWords (lined 0x20000000001 true 32 60 0) lrxKind ((lined 0x20000000001 true 32 60 0).lq 16).rx = [0x300000, 32] ∧
    (let s := lined 0x20000000002 true 0 60 0
     s.txReady (0 : Fin 8) = [16] ∧ ringWords s ltxKind (s.lq 16).tx = [0x400000, 60, 0, 0] ∧ s.role 1 ≠ 1 ∧ s.dmaOk 1 0x280000 32 true = true ∧
       s.dmaOk 1 0x400000 60 false = true ∧ s.poisonedRange 0x400000 60 = false ∧
       ((s.lport (0 : Fin 8)).addrs.any fun e => tbit e.2.1 63 && fld e.2.2 19 13 == 1 && fld e.2.1 47 0 == macAt (s.rdBytes 0x400000 60) 6) = true) ∧
    (lineUpS.txReady (0 : Fin 8) = [16] ∧ ((lineUpS.lport (0 : Fin 8)).addrs.any fun e => tbit e.2.1 63 && fld e.2.2 19 13 == 1 &&
      fld e.2.1 47 0 == macAt (lineUpS.rdBytes 0x400000 60) 6) = false) ∧
    ((lined 0 true 0 60 9).clock < ((lined 0 true 0 60 9).lport (0 : Fin 8)).paused) := by
  refine ⟨?_, ?_, ?_, ?_, ?_, ?_, ?_, ?_, ?_, ?_⟩ <;> decide +kernel

/-- Source 0 of creel 1, pending for a destination. -/
def pendingTo (dest core : Nat) : EvSrc := { holder := some 1, dest := dest, core := core, vector := 0, mask := false, pending := true }
def raised (dest core : Nat) : State := { hosted hostLg true hfReset with sources := [(0, pendingTo dest core)] }
def hubRight : Right := { r := false, w := true, x := false, dma := false }
theorem witness_RouterAndRegisterPages :
    (let s := raised 0 0
     (s.src 0).holder = some 1 ∧ fld (0 : W64) 49 48 ≠ 2 ∧ s.creelOf (fld (0 : W64) 47 40) = some (1 : CreelId).val ∧ (s.endpointOf (1 : CreelId)).isSome = true ∧
       s.creelOf 5 ≠ some 1 ∧ (s.src 9).holder ≠ some 1 ∧ (s.src 9).pending = false ∧ (s.core (s.src 0).core).run ≠ .paused) ∧
    (raised 1 0).creelOf ((raised 1 0).src 0).core = some 1 ∧ (raised 2 0).endpointOf (1 : CreelId) = some 0 ∧ (raised 0 5).creelOf ((raised 0 5).src 0).core ≠ some 1 ∧
    (let s : State := { raised 0 0 with cores := [(0, { runningCore with run := .paused })] }
     (s.src 0).dest ≠ 2 ∧ (s.core (s.src 0).core).run = .paused) ∧
    dev.segOk (1 : CreelId) 0x2000000 hubRight = false ∧ dev.segOk (1 : CreelId) 0xFF00100000001 hubRight = true ∧ (0xFF00100000001 : W64).toNat % (4 : Fin 9).val ≠ 0 ∧
    dev.segOk (1 : CreelId) (0xFF00100000000 + 4096 * (0 : Fin 1024).val + 0x10) hubRight = true ∧
    dev.segOk (1 : CreelId) (0xFF00200000000 + 4096 * (0 : Fin 256).val + 0x18) hubRight = true ∧
    dev.segOk (1 : CreelId) (0xFF00001000000 + 4096 * (1 : CreelId).val) hubRight = true ∧
    dev.segOk (1 : CreelId) (0xFF00400000000 + 4096 * (1 : CreelId).val + 0x100) hubRight = true := by
  refine ⟨?_, ?_, ?_, ?_, ?_, ?_, ?_, ?_, ?_, ?_, ?_, ?_⟩ <;> decide +kernel

/-! ## Steps -/

theorem witness_StepRunsTheFrontCommand : ({ dev with pending := [.healthTestFailure] }).pending = .healthTestFailure :: [] := rfl
theorem witness_EmptyQueuePassesTime : dev.pending = [] ∧ dev.power ≠ 0 ∧ State.reset.pending = [] ∧ State.reset.power = 0 := by decide +kernel
theorem test_reset_memOk : State.reset.memOk := by unfold State.memOk; decide +kernel
theorem witness_StepKeepsMemoryCanonical : State.reset.memOk ∧ ∃ t, Machine.step State.reset = .next t := ⟨test_reset_memOk, _, rfl⟩

end Sys2Proof.Tests
end

/-!
PROOFS. The instructions of chapter 2: rules for fields and register files first, then one part for each statement.
-/

/-! ## Fields of a word that is written in parts (00: bit ranges) -/

namespace Sys2Proof

theorem testBit_fld (w : W64) (hi lo i : Nat) : (fld w hi lo).testBit i = (decide (i < hi + 1 - lo) && w.getLsbD (lo + i)) := by
  rw [fld, Nat.testBit_mod_two_pow, Nat.testBit_shiftRight]
  rfl
theorem getLsbD_setFld (w : W64) (hi lo v i : Nat) (hi64 : i < 64) :
    (setFld w hi lo v).getLsbD i = if lo ≤ i ∧ i < hi + 1 then v.testBit (i - lo) else w.getLsbD i := by
  simp only [setFld, BitVec.getLsbD_or, BitVec.getLsbD_and, BitVec.getLsbD_not, BitVec.getLsbD_ofNat, Nat.testBit_shiftLeft,
    Nat.testBit_two_pow_sub_one, hi64, decide_true, Bool.true_and]
  split
  next h => simp [h.1, show i - lo < hi + 1 - lo by omega]
  next h =>
    have hout : ¬ (lo ≤ i ∧ i - lo < hi + 1 - lo) := by omega
    by_cases hl : lo ≤ i
    · simp [hl, show ¬ i - lo < hi + 1 - lo from fun hh => hout ⟨hl, hh⟩]
    · simp [hl]
/-- A field reads as the value written to it. -/
theorem fld_setFld_same (w : W64) {hi lo v : Nat} (h : hi < 64) (hv : v < 2 ^ (hi + 1 - lo)) : fld (setFld w hi lo v) hi lo = v := by
  refine Nat.eq_of_testBit_eq fun i => ?_
  rw [testBit_fld]
  by_cases hin : i < hi + 1 - lo
  · rw [getLsbD_setFld _ _ _ _ _ (by omega), if_pos ⟨by omega, by omega⟩, Nat.add_sub_cancel_left, decide_eq_true hin, Bool.true_and]
  · rw [decide_eq_false hin, Bool.false_and, Nat.testBit_lt_two_pow (Nat.lt_of_lt_of_le hv (Nat.pow_le_pow_right (by omega) (by omega)))]
/-- A field that does not meet the one written reads as before. -/
theorem fld_setFld_disjoint (w : W64) {hi lo hi' lo' : Nat} (v : Nat) (h : hi' < 64) (hd : hi' < lo ∨ hi < lo') :
    fld (setFld w hi lo v) hi' lo' = fld w hi' lo' := by
  refine Nat.eq_of_testBit_eq fun i => ?_
  rw [testBit_fld, testBit_fld]
  by_cases hin : i < hi' + 1 - lo'
  · rw [getLsbD_setFld _ _ _ _ _ (by omega), if_neg (by omega)]
  · rw [decide_eq_false hin, Bool.false_and, Bool.false_and]
theorem fld_lt (w : W64) (hi lo : Nat) : fld w hi lo < 2 ^ (hi + 1 - lo) := Nat.mod_lt _ (Nat.two_pow_pos _)

end Sys2Proof

/-! ## The register files of a core and of a sequencer (02/R31, R32) -/

namespace Sys2Proof.Machine

/-- A register number is 0 as a number where it is 0 as a field. -/
theorem toNat_eq_zero_iff {w : Nat} (r : BitVec w) : r.toNat = 0 ↔ r = 0 := by
  rw [← BitVec.toNat_inj]
  rfl

@[simp] theorem Ctx.rd_zero (x : Ctx) : x.rd 0 = 0 := rfl
@[simp] theorem Ctx.rdp_zero (x : Ctx) : x.rdp 0 = true := rfl
theorem Ctx.wr_zero (x : Ctx) (v : W64) : x.wr 0 v = x := rfl
theorem Ctx.wrp_zero (x : Ctx) (b : Bool) : x.wrp 0 b = x := rfl
@[simp] theorem Ctx.wr_pc (x : Ctx) (r : Nat) (v : W64) : (x.wr r v).pc = x.pc := by
  unfold Ctx.wr
  split <;> rfl
@[simp] theorem Ctx.wr_p (x : Ctx) (r : Nat) (v : W64) : (x.wr r v).p = x.p := by
  unfold Ctx.wr
  split <;> rfl
@[simp] theorem Ctx.wrp_pc (x : Ctx) (r : Nat) (b : Bool) : (x.wrp r b).pc = x.pc := by
  unfold Ctx.wrp
  split <;> rfl
@[simp] theorem Ctx.wrp_g (x : Ctx) (r : Nat) (b : Bool) : (x.wrp r b).g = x.g := by
  unfold Ctx.wrp
  split <;> rfl
/-- A general register after a write of one (02/R31). -/
theorem Ctx.rd_wr (x : Ctx) (r k : Nat) (v : W64) : (x.wr r v).rd k = if k = r ∧ r ≠ 0 then v else x.rd k := by
  by_cases hr : r = 0
  · simp [hr, Ctx.wr_zero]
  · by_cases hk : k = 0
    · simp [hk, Ne.symm hr]
    · simp [Ctx.wr, Ctx.rd, hr, hk, FMap.get_set]
/-- A predicate register after a write of one (02/R32). -/
theorem Ctx.rdp_wrp (x : Ctx) (r k : Nat) (b : Bool) : (x.wrp r b).rdp k = if k = r ∧ r ≠ 0 then b else x.rdp k := by
  by_cases hr : r = 0
  · simp [hr, Ctx.wrp_zero]
  · by_cases hk : k = 0
    · simp [hk, Ne.symm hr]
    · simp [Ctx.wrp, Ctx.rdp, hr, hk, FMap.get_set]
@[simp] theorem State.ctx_core (s : State) (n : CoreId) : s.ctx (.core n) = (s.core n).x := rfl
@[simp] theorem State.ctx_seq (s : State) (q : SeqId) : s.ctx (.seq q) = (s.seq (seqIx q)).x := rfl
@[simp] theorem State.ctx_setCtx (s : State) (a : Agent) (x : Ctx) : (s.setCtx a x).ctx a = x := by
  cases a <;> simp [State.setCtx]
@[simp] theorem seqBody_ctx (u : State) (q : SeqId) (w : List Nat) : (seqBody u q w).ctx (.seq q) = (u.seq (seqIx q)).x := by
  simp [seqBody]

end Sys2Proof.Machine

namespace Sys2Proof.Proofs
open Sys2Proof.Machine

/-- Settles O5, by the rules for a read after a write of each file. -/
theorem registerFilesReadBack : Obligations.RegisterFilesReadBack := by
  intro x r v p b
  refine ⟨?rdSame, ?rdOther, x.rd_zero, x.wr_pc .., x.wr_p .., ?rdpSame, ?rdpOther, x.rdp_zero, x.wrp_g ..⟩
  case rdSame =>
    by_cases hr : r = 0
    · subst hr
      rfl
    · rw [Ctx.rd_wr, if_pos ⟨rfl, mt (toNat_eq_zero_iff r).1 hr⟩, if_neg hr]
  case rdOther => exact fun k hk => by rw [Ctx.rd_wr, if_neg fun h => hk h.1]
  case rdpSame =>
    by_cases hp : p = 0
    · subst hp
      rfl
    · rw [Ctx.rdp_wrp, if_pos ⟨rfl, mt (toNat_eq_zero_iff p).1 hp⟩, if_neg hp]
  case rdpOther => exact fun k hk => by rw [Ctx.rdp_wrp, if_neg fun h => hk h.1]

end Sys2Proof.Proofs

/-! ## Results of the integer instructions (02/R50 to R59) -/

namespace Sys2Proof.Machine

/-- The overflow of a signed division wraps to the dividend, as the quotient 2^63 does (02/R52). -/
theorem divS_eq (a b : W64) :
    divS a b = if b = 0 then BitVec.allOnes 64 else BitVec.ofInt 64 (a.toInt.tdiv b.toInt) := by
  unfold divS
  split
  · rfl
  · split
    next h =>
      obtain ⟨rfl, rfl⟩ := h
      decide
    next => rfl
theorem divU_eq (a b : W64) : divU a b = if b = 0 then BitVec.allOnes 64 else a / b := by
  have hq : w64 (a.toNat / b.toNat) = a / b := by rw [← BitVec.toNat_udiv, w64, BitVec.ofNat_toNat, BitVec.setWidth_eq]
  simp only [divU, hq]
theorem remS_eq (a b : W64) : remS a b = if b = 0 then a else BitVec.ofInt 64 (a.toInt.tmod b.toInt) := by
  unfold remS
  split
  · rfl
  · split
    next h =>
      obtain ⟨rfl, rfl⟩ := h
      decide
    next => rw [Int.tmod_def]
theorem remU_eq (a b : W64) : remU a b = if b = 0 then a else a % b := by
  have hm : w64 (a.toNat - b.toNat * (a.toNat / b.toNat)) = a % b := by
    rw [← Nat.mod_eq_sub, ← BitVec.toNat_umod, w64, BitVec.ofNat_toNat, BitVec.setWidth_eq]
  simp only [remU, hm]
theorem minS_eq (a b : W64) : minS a b = if b.slt a then b else a := by
  simp only [minS, BitVec.slt_iff_toInt_lt, ← Int.not_le, ite_not]
theorem maxS_eq (a b : W64) : maxS a b = if a.slt b then b else a := by
  simp only [maxS, BitVec.slt_iff_toInt_lt]
  by_cases hlt : a.toInt < b.toInt
  · rw [if_pos (Int.le_of_lt hlt), if_pos hlt]
  · by_cases hle : a.toInt ≤ b.toInt
    · rw [if_pos hle, if_neg hlt, BitVec.eq_of_toInt_eq (Int.le_antisymm hle (Int.not_lt.1 hlt))]
    · rw [if_neg hle, if_neg hlt]
theorem minU_eq (a b : W64) : minU a b = if b.ult a then b else a := by
  simp only [minU, BitVec.ult, decide_eq_true_eq, ← Nat.not_le, ite_not]
theorem maxU_eq (a b : W64) : maxU a b = if a.ult b then b else a := by
  simp only [maxU, BitVec.ult, decide_eq_true_eq]
  by_cases hlt : a.toNat < b.toNat
  · rw [if_pos (Nat.le_of_lt hlt), if_pos hlt]
  · by_cases hle : a.toNat ≤ b.toNat
    · rw [if_pos hle, if_neg hlt, BitVec.eq_of_toNat_eq (Nat.le_antisymm hle (Nat.not_lt.1 hlt))]
    · rw [if_neg hle, if_neg hlt]

/-- A search that tests the bits of `c` from the lowest finds the library's count of trailing zeros. -/
theorem find_lowest_eq_ctz {p : Nat → Bool} {c : W64} (hp : ∀ i, i < 64 → p i = c.getLsbD i) :
    w64 (((List.range 64).find? p).getD 64) = c.ctz := by
  by_cases hc : c = 0#64
  · have hnone : (List.range 64).find? p = none := List.find?_eq_none.2 fun i hi => by
      rw [hp i (List.mem_range.1 hi), hc, BitVec.getLsbD_zero]
      exact Bool.false_ne_true
    rw [hnone, Option.getD_none, BitVec.ctz, BitVec.reverse_eq_zero_iff.2 hc, BitVec.clz_eq_iff_eq_zero.2 rfl]
    rfl
  · have hlt : c.ctz.toNat < 64 := BitVec.lt_def.1 (BitVec.ctz_lt_iff_ne_zero.2 hc)
    have hsome : (List.range 64).find? p = some c.ctz.toNat := List.find?_range_eq_some.2
      ⟨by rw [hp _ hlt, BitVec.getLsbD_true_ctz_of_ne_zero hc], List.mem_range.2 hlt, fun j hj => by
        rw [hp j (Nat.lt_trans hj hlt), BitVec.getLsbD_false_of_lt_ctz hj]
        rfl⟩
    rw [hsome, Option.getD_some, w64, BitVec.ofNat_toNat, BitVec.setWidth_eq]
theorem countTrail_eq (v : W64) : w64 (countTrail v) = v.ctz := find_lowest_eq_ctz fun _ _ => rfl
/-- Leading zeros are the trailing zeros of the reversed word. -/
theorem countLead_eq (v : W64) : w64 (countLead v) = v.clz := by
  rw [BitVec.clz_eq_reverse_ctz]
  refine find_lowest_eq_ctz fun i hi => ?_
  rw [BitVec.getLsbD_reverse, BitVec.getMsbD, decide_eq_true hi, Bool.true_and]
theorem cpopNatRec_eq_length (v : W64) (n : Nat) :
    v.cpopNatRec n 0 = ((List.range n).filter fun i => v.getLsbD i).length := by
  induction n with
  | zero => rfl
  | succ n ih =>
    rw [BitVec.cpopNatRec_succ, BitVec.cpopNatRec_eq, ih, List.range_succ, List.filter_append, List.length_append]
    cases h : v.getLsbD n <;> simp [h]
theorem countOnes_eq (v : W64) : w64 (countOnes v) = v.cpop := by
  rw [countOnes, ← cpopNatRec_eq_length]
  rfl
theorem byteSwap_eq (v : W64) : byteSwap v =
    BitVec.ofNat 64 ((List.range 8).foldl (fun r k => r + (v.toNat / 256 ^ k % 256) * 256 ^ (7 - k)) 0) := by
  have hrange : List.range 8 = [0, 1, 2, 3, 4, 5, 6, 7] := rfl
  rw [byteSwap, hrange, toBe]
  congr 1
  simp only [toLe, leNat, List.foldl_cons, List.foldl_nil, List.reverse_cons, List.reverse_nil, List.nil_append,
    List.cons_append, BitVec.toNat_ofNat, Nat.div_div_eq_div_mul, Nat.reduceMul, Nat.reducePow, Nat.reduceSub, Nat.div_one]
  generalize v.toNat / 256 % 256 = b1
  generalize v.toNat / 65536 % 256 = b2
  generalize v.toNat / 16777216 % 256 = b3
  generalize v.toNat / 4294967296 % 256 = b4
  generalize v.toNat / 1099511627776 % 256 = b5
  generalize v.toNat / 281474976710656 % 256 = b6
  generalize v.toNat / 72057594037927936 % 256 = b7
  generalize v.toNat % 256 = b0
  omega
/-- A zero extension is a mask. -/
theorem zeroExtend_truncate_eq_and (v m : W64) {n : Nat} (hn : n ≤ 64) (hm : m.toNat = 2 ^ n - 1) :
    (v.truncate n).zeroExtend 64 = v &&& m := by
  refine BitVec.eq_of_toNat_eq ?_
  have hlt : v.toNat % 2 ^ n < 2 ^ 64 :=
    Nat.lt_of_lt_of_le (Nat.mod_lt _ (Nat.two_pow_pos n)) (Nat.pow_le_pow_right (by decide) hn)
  rw [BitVec.toNat_and, hm, Nat.and_two_pow_sub_one_eq_mod, BitVec.toNat_setWidth, BitVec.toNat_setWidth, Nat.mod_eq_of_lt hlt]
theorem shiftLeft_eq_mul (v : W64) (n : Nat) : v <<< n = BitVec.ofNat 64 (v.toNat * 2 ^ n) :=
  BitVec.eq_of_toNat_eq (by simp [Nat.shiftLeft_eq])
theorem ushiftRight_eq_div (v : W64) (n : Nat) : v >>> n = BitVec.ofNat 64 (v.toNat / 2 ^ n) := by
  refine BitVec.eq_of_toNat_eq ?_
  have := Nat.div_le_self v.toNat (2 ^ n)
  rw [BitVec.toNat_ushiftRight, Nat.shiftRight_eq_div_pow, BitVec.toNat_ofNat, Nat.mod_eq_of_lt (by omega)]
theorem sshiftRight_eq_div (v : W64) (n : Nat) : v.sshiftRight n = BitVec.ofInt 64 (v.toInt / 2 ^ n) := by
  rw [BitVec.sshiftRight, Int.shiftRight_eq_div_pow]
  simp
theorem rotateRight_eq_or (v : W64) (n : BitVec 6) : v.rotateRight n.toNat = (v >>> n.toNat) ||| (v <<< (64 - n.toNat)) := by
  rw [BitVec.rotateRight, Nat.mod_eq_of_lt n.isLt, BitVec.rotateRightAux]
/-- The predicate image as the sum of the powers whose predicates are true (02/R55). -/
theorem predImage_eq (x : Ctx) :
    predImage x = BitVec.ofNat 64 (((List.range 16).filter fun k => x.rdp k).map fun k => 2 ^ k).sum := by
  have hsum (l : List Nat) (a : Nat) :
      l.foldl (fun a n => a + b2n (x.rdp n) * 2 ^ n) a = a + ((l.filter fun k => x.rdp k).map fun k => 2 ^ k).sum := by
    induction l generalizing a with
    | nil => rfl
    | cons n r ih =>
      rw [List.foldl_cons, ih]
      cases h : x.rdp n <;> simp [h, b2n, Nat.add_assoc]
  rw [predImage, hsum, Nat.zero_add]

end Sys2Proof.Machine

/-! ## The shape of the integer instructions (02/R47, R48) -/

namespace Sys2Proof.Claims
open Sys2Proof Sys2Proof.Machine

/-- The instruction of a row is the three-register form with the row's result: on cores only where the row gives no beats. The word
0 is left out (02/R38). -/
def IntOp.IsForm3 (o : IntOp) : Prop :=
  ∀ a g d s1 s2, o.instr (.core 0) g d s1 s2 ≠ .add (.core 0) 0 0 0 0 →
    ∃ evs, ∀ s, exec (o.instr a g d s1 s2) s = form3 a g d s1 s2 o.beats.isNone evs (o.beats.getD 3) o.result s
theorem IntOp.isForm3_of {mk : Agent → PReg → Reg → Reg → Reg → Instr} {f f' : W64 → W64 → W64} {b : Option Nat}
    {evs : List (Nat × Nat)} (hf : ∀ x y, f' x y = f x y)
    (h : ∀ a g d s1 s2 s, exec (mk a g d s1 s2) s = form3 a g d s1 s2 b.isNone evs (b.getD 3) f' s) :
    IntOp.IsForm3 ⟨mk, f, b⟩ := by
  obtain rfl : f' = f := funext fun x => funext (hf x)
  exact fun a g d s1 s2 _ => ⟨evs, h a g d s1 s2⟩
theorem isForm3_add : IntOp.IsForm3 ⟨.add, fun a b => a + b, some 3⟩ := by
  intro a g d s1 s2 h
  have hl : (!(g == 0 && d == 0 && s1 == 0 && s2 == 0)) = true := by
    simp only [Bool.not_eq_true', Bool.eq_false_iff, ne_eq, Bool.and_eq_true, beq_iff_eq]
    rintro ⟨⟨⟨rfl, rfl⟩, rfl⟩, rfl⟩
    exact h rfl
  exact ⟨[], fun s => by rw [exec_add, execAdd, hl]; rfl⟩
theorem intOps1_isForm3 : ∀ o ∈ intOps1, o.IsForm3 := by
  simp only [intOps1, List.forall_mem_cons, List.not_mem_nil, false_imp_iff, implies_true, and_true]
  refine ⟨isForm3_add, ?sub, ?and, ?or, ?xor, ?andn, ?orn, ?xnor, ?sll, ?srl, ?sra, ?rol, ?ror⟩
  all_goals exact IntOp.isForm3_of (fun _ _ => rfl) fun _ _ _ _ _ _ => rfl
theorem intOps2_isForm3 : ∀ o ∈ intOps2, o.IsForm3 := by
  simp only [intOps2, List.forall_mem_cons, List.not_mem_nil, false_imp_iff, implies_true, and_true]
  refine ⟨?addw, ?subw, ?mul, ?mulhs, ?mulhu, ?div, ?divu, ?rem, ?remu, ?min, ?max, ?minu, ?maxu⟩
  case div => exact IntOp.isForm3_of divS_eq fun _ _ _ _ _ _ => rfl
  case divu => exact IntOp.isForm3_of divU_eq fun _ _ _ _ _ _ => rfl
  case rem => exact IntOp.isForm3_of remS_eq fun _ _ _ _ _ _ => rfl
  case remu => exact IntOp.isForm3_of remU_eq fun _ _ _ _ _ _ => rfl
  case min => exact IntOp.isForm3_of minS_eq fun _ _ _ _ _ _ => rfl
  case max => exact IntOp.isForm3_of maxS_eq fun _ _ _ _ _ _ => rfl
  case minu => exact IntOp.isForm3_of minU_eq fun _ _ _ _ _ _ => rfl
  case maxu => exact IntOp.isForm3_of maxU_eq fun _ _ _ _ _ _ => rfl
  all_goals exact IntOp.isForm3_of (fun _ _ => rfl) fun _ _ _ _ _ _ => rfl
theorem intOps_isForm3 {o : IntOp} (ho : o ∈ intOps1 ++ intOps2) : o.IsForm3 :=
  (List.mem_append.1 ho).elim (intOps1_isForm3 o) (intOps2_isForm3 o)

theorem integerOperationResults : IntegerOperationResults := by
  refine ⟨fun s u n ev h => ?zeroWord, fun o ho g d s1 s2 s u hz => ⟨?core, ?seq, ?coreOnly⟩⟩
  case zeroWord =>
    rw [exec_add]
    exact CoreFetches.illegal (o := { agent := .core n, guard := 0, legal := false, reads := [0, 0], writes := [0] }) h rfl rfl _
  case core =>
    intro n ev h
    obtain ⟨evs, he⟩ := intOps_isForm3 ho (.core n) g d s1 s2 hz
    rw [he]
    exact CoreRuns.done h rfl rfl rfl
  case seq =>
    intro q b hb h
    obtain ⟨evs, he⟩ := intOps_isForm3 ho (.seq q) g d s1 s2 hz
    rw [he, hb]
    exact SeqRuns.done h rfl rfl rfl rfl rfl
  case coreOnly =>
    intro q hb h
    obtain ⟨evs, he⟩ := intOps_isForm3 ho (.seq q) g d s1 s2 hz
    rw [he, hb]
    exact SeqRuns.illegal h rfl (.inl rfl) _

/-- The instruction of a row writes the row's result to its one destination, in three beats on a sequencer. -/
def OneOp.WritesResult (o : OneOp) : Prop :=
  ∀ a g d s1 s, exec (o.instr a g d s1) s =
    runInstr { agent := a, guard := g, reads := o.reads d s1, writes := [d.toNat] }
      (fun s x => .done (s.wrG a d.toNat (o.result x d s1)) []) s
/-- A unary row of the table is the unary form with the row's result. -/
theorem unary_writesResult {mk : Agent → PReg → Reg → Reg → Instr} {f f' : W64 → W64} (hf : ∀ x, f' x = f x)
    (h : ∀ a g d s1 s, exec (mk a g d s1) s = form2 a g d s1 f' s) : (unary mk f).WritesResult := by
  obtain rfl : f' = f := funext hf
  exact h
theorem unaryOps_writeResult : ∀ o ∈ unaryOps, o.WritesResult := by
  simp only [unaryOps, List.forall_mem_cons, List.not_mem_nil, false_imp_iff, implies_true, and_true]
  refine ⟨?clz, ?ctz, ?popc, ?bswap, ?sextb, ?sexth, ?sextw, ?zextb, ?zexth, ?zextw⟩
  case clz => exact unary_writesResult countLead_eq fun _ _ _ _ _ => rfl
  case ctz => exact unary_writesResult countTrail_eq fun _ _ _ _ _ => rfl
  case popc => exact unary_writesResult countOnes_eq fun _ _ _ _ _ => rfl
  case bswap => exact unary_writesResult byteSwap_eq fun _ _ _ _ _ => rfl
  case zextb =>
    exact unary_writesResult (f' := fun x => (x.truncate 8).zeroExtend 64)
      (fun x => zeroExtend_truncate_eq_and x 0xFF (by decide) rfl) fun _ _ _ _ _ => rfl
  case zexth =>
    exact unary_writesResult (f' := fun x => (x.truncate 16).zeroExtend 64)
      (fun x => zeroExtend_truncate_eq_and x 0xFFFF (by decide) rfl) fun _ _ _ _ _ => rfl
  case zextw =>
    exact unary_writesResult (f' := fun x => (x.truncate 32).zeroExtend 64)
      (fun x => zeroExtend_truncate_eq_and x 0xFFFFFFFF (by decide) rfl) fun _ _ _ _ _ => rfl
  all_goals exact unary_writesResult (fun _ => rfl) fun _ _ _ _ _ => rfl
theorem immediateOps_writeResult (i : BitVec 9) (k : BitVec 6) (l : BitVec 15) : ∀ o ∈ immediateOps i k l, o.WritesResult := by
  simp only [immediateOps, List.forall_mem_cons, List.not_mem_nil, false_imp_iff, implies_true, and_true]
  refine ⟨?addi, ?andi, ?ori, ?xori, ?slli, ?srli, ?srai, ?rori, ?ldi, ?shi, ?movpg⟩
  case slli => exact unary_writesResult (fun x => shiftLeft_eq_mul x k.toNat) fun _ _ _ _ _ => rfl
  case srli => exact unary_writesResult (fun x => ushiftRight_eq_div x k.toNat) fun _ _ _ _ _ => rfl
  case srai => exact unary_writesResult (fun x => sshiftRight_eq_div x k.toNat) fun _ _ _ _ _ => rfl
  case rori => exact unary_writesResult (fun x => rotateRight_eq_or x k) fun _ _ _ _ _ => rfl
  case ldi | shi => exact fun _ _ _ _ _ => rfl
  case movpg =>
    intro a g d s1 s
    simp only [exec_movpg, execMovpg, predImage_eq]
  all_goals exact unary_writesResult (fun _ => rfl) fun _ _ _ _ _ => rfl

theorem unaryAndImmediateResults : UnaryAndImmediateResults := by
  intro i k l o ho g d s1 s u
  have he : o.WritesResult :=
    (List.mem_append.1 ho).elim (unaryOps_writeResult o) (immediateOps_writeResult i k l o)
  refine ⟨fun n ev h => ?core, fun q h => ?seq⟩
  case core =>
    rw [he]
    exact CoreRuns.done h rfl rfl rfl
  case seq =>
    rw [he]
    exact SeqRuns.done h rfl rfl rfl rfl rfl

end Sys2Proof.Claims

namespace Sys2Proof.Proofs

/-- Settles O1: each row of the tables is one of the register forms with the row's result. -/
theorem integerResults : Obligations.IntegerResults :=
  ⟨Claims.integerOperationResults, Claims.unaryAndImmediateResults⟩

end Sys2Proof.Proofs

/-! ## Predicates: compares, predicate logic and MOVGP (02/R55, R61 to R64) -/

namespace Sys2Proof.Claims
open Sys2Proof Sys2Proof.Machine

theorem wrp_toNat (x : Ctx) (r : PReg) (b : Bool) :
    x.wrp r.toNat b = if r = 0 then x else { x with p := x.p.set r.toNat b } := by
  simp only [Ctx.wrp, toNat_eq_zero_iff]
theorem writePt_eq (u : State) (a : Agent) (pt pf : PReg) (b : Bool) : writePt u a pt pf b = predsWritten u a pt pf b := by
  simp only [writePt, predsWritten, wrp_toNat]
/-- Fields that do not name one predicate other than p0 twice are an encoding (02/R62). -/
theorem predicateFields_legal {pt pf : PReg} (h : ¬ (pt = pf ∧ pt ≠ 0)) : (!(pt == pf && pt != 0)) = true := by
  rw [Bool.not_eq_true', Bool.eq_false_iff]
  simpa only [ne_eq, Bool.and_eq_true, beq_iff_eq, bne_iff_ne] using h

section
variable {s u : State} {g pt pf : PReg} (hne : ¬ (pt = pf ∧ pt ≠ 0))
include hne

theorem formC_core {n : CoreId} {ev : List (Nat × Nat)} (h : CoreRuns s n g u ev) (s1 s2 : Reg) (cond : W64 → W64 → Bool) :
    ∃ t, formC (.core n) g pt pf s1 s2 cond s = .next t ∧
      CoreCompletes (predsWritten u (.core n) pt pf (cond ((u.core n).x.rd s1.toNat) ((u.core n).x.rd s2.toNat))) t n
        ((u.core n).x.pc + 4) := by
  rw [formC, predicateFields_legal hne, ← writePt_eq]
  exact CoreRuns.done h rfl rfl rfl
theorem formC_seq {q : SeqId} {s1 s2 : Reg} (h : SeqRuns s q g [s1.toNat, s2.toNat] [] u) (cond : W64 → W64 → Bool) :
    formC (.seq q) g pt pf s1 s2 cond s =
      .next (seqNext (predsWritten (seqBody u q []) (.seq q) pt pf
        (cond ((u.seq (seqIx q)).x.rd s1.toNat) ((u.seq (seqIx q)).x.rd s2.toNat))) q ((u.seq (seqIx q)).x.pc + 4) 3 none) := by
  rw [formC, predicateFields_legal hne, ← writePt_eq]
  exact SeqRuns.done h rfl rfl rfl rfl rfl
theorem formP_core {n : CoreId} {ev : List (Nat × Nat)} (h : CoreRuns s n g u ev) (pa pb : PReg) (f : Bool → Bool → Bool) :
    ∃ t, formP (.core n) g pt pf pa pb f s = .next t ∧
      CoreCompletes (predsWritten u (.core n) pt pf (f ((u.core n).x.rdp pa.toNat) ((u.core n).x.rdp pb.toNat))) t n
        ((u.core n).x.pc + 4) := by
  rw [formP, predicateFields_legal hne, ← writePt_eq]
  exact CoreRuns.done h rfl rfl rfl
theorem formP_seq {q : SeqId} (h : SeqRuns s q g [] [] u) (pa pb : PReg) (f : Bool → Bool → Bool) :
    formP (.seq q) g pt pf pa pb f s =
      .next (seqNext (predsWritten (seqBody u q []) (.seq q) pt pf
        (f ((u.seq (seqIx q)).x.rdp pa.toNat) ((u.seq (seqIx q)).x.rdp pb.toNat))) q ((u.seq (seqIx q)).x.pc + 4) 3 none) := by
  rw [formP, predicateFields_legal hne, ← writePt_eq]
  exact SeqRuns.done h rfl rfl rfl rfl rfl
end

/-- The instruction of a row is the compare form, or the form of predicate logic, with the row's condition. -/
def CmpOp.IsFormC (o : CmpOp) : Prop := ∀ a g pt pf s1 s2 s, exec (o.instr a g pt pf s1 s2) s = formC a g pt pf s1 s2 o.cond s
def PredOp.IsFormP (o : PredOp) : Prop := ∀ a g pt pf pa pb s, exec (o.instr a g pt pf pa pb) s = formP a g pt pf pa pb o.result s

theorem CmpOp.isFormC_of {mk : Agent → PReg → PReg → PReg → Reg → Reg → Instr} {f f' : W64 → W64 → Bool}
    (hf : ∀ x y, f' x y = f x y) (h : ∀ a g pt pf s1 s2 s, exec (mk a g pt pf s1 s2) s = formC a g pt pf s1 s2 f' s) :
    CmpOp.IsFormC ⟨mk, f⟩ := by
  obtain rfl : f' = f := funext fun x => funext (hf x)
  exact h
theorem not_slt_eq (x y : W64) : (!x.slt y) = decide (y.toInt ≤ x.toInt) := by
  simp only [BitVec.slt, ← decide_not, Int.not_lt]
theorem not_ult_eq (x y : W64) : (!x.ult y) = decide (y.toNat ≤ x.toNat) := by
  simp only [BitVec.ult, ← decide_not, Nat.not_lt]
theorem bne_eq_decide (x y : W64) : (x != y) = decide (x ≠ y) := Bool.eq_iff_iff.2 (by simp)
theorem cmpOps_isFormC : ∀ o ∈ cmpOps, o.IsFormC := by
  simp only [cmpOps, List.forall_mem_cons, List.not_mem_nil, false_imp_iff, implies_true, and_true]
  refine ⟨?eq, ?ne, ?lt, ?ltu, ?ge, ?geu, ?tst⟩
  case ne => exact CmpOp.isFormC_of bne_eq_decide fun _ _ _ _ _ _ _ => rfl
  case ge => exact CmpOp.isFormC_of not_slt_eq fun _ _ _ _ _ _ _ => rfl
  case geu => exact CmpOp.isFormC_of not_ult_eq fun _ _ _ _ _ _ _ => rfl
  case tst => exact CmpOp.isFormC_of (fun x y => bne_eq_decide (x &&& y) 0) fun _ _ _ _ _ _ _ => rfl
  all_goals exact CmpOp.isFormC_of (fun _ _ => rfl) fun _ _ _ _ _ _ _ => rfl
theorem predOps_isFormP : ∀ o ∈ predOps, o.IsFormP := by
  simp only [predOps, List.forall_mem_cons, List.not_mem_nil, false_imp_iff, implies_true, and_true]
  exact ⟨fun _ _ _ _ _ _ _ => rfl, fun _ _ _ _ _ _ _ => rfl, fun _ _ _ _ _ _ _ => rfl, fun _ _ _ _ _ _ _ => rfl⟩

end Sys2Proof.Claims

namespace Sys2Proof.Machine

/-- Loading predicates from the bits of a word changes the predicate file alone. -/
theorem foldl_wrp_eq (v : W64) (l : List Nat) (x : Ctx) :
    ∃ p, l.foldl (fun x n => x.wrp n (v.getLsbD n)) x = { x with p := p } := by
  induction l generalizing x with
  | nil => exact ⟨x.p, rfl⟩
  | cons n r ih =>
    obtain ⟨p, hp⟩ := ih (x.wrp n (v.getLsbD n))
    refine ⟨p, ?_⟩
    rw [List.foldl_cons, hp]
    unfold Ctx.wrp
    split <;> rfl
theorem rdp_foldl_wrp (v : W64) (k : Nat) (l : List Nat) (x : Ctx) :
    (l.foldl (fun x n => x.wrp n (v.getLsbD n)) x).rdp k = if k ∈ l ∧ k ≠ 0 then v.getLsbD k else x.rdp k := by
  induction l generalizing x with
  | nil => simp
  | cons n r ih =>
    rw [List.foldl_cons, ih, Ctx.rdp_wrp]
    by_cases hk : k = n
    · subst hk
      by_cases h0 : k = 0 <;> simp [h0]
    · simp [hk]
/-- What MOVGP leaves in the predicates: p0 reads true, the others the bits of the word (02/R55). -/
theorem rdp_predLoad (x : Ctx) (v : W64) {k : Nat} (hk : k < 16) : (predLoad x v).rdp k = if k = 0 then true else v.getLsbD k := by
  rw [predLoad, rdp_foldl_wrp]
  by_cases h0 : k = 0
  · simp [h0]
  · simp [h0, hk]

end Sys2Proof.Machine

namespace Sys2Proof.Proofs
open Sys2Proof.Machine Sys2Proof.Claims

/-- Settles O2: the compares and predicate logic by their forms, MOVGP by what the load of the predicates reads as. -/
theorem predicateWrites : Obligations.PredicateWrites := by
  refine ⟨fun o ho g pt pf s1 s2 s u hne => ?compares, fun o ho g pt pf pa pb s u hne => ?logic, fun g s1 s u => ?movgp⟩
  case compares =>
    simp only [cmpOps_isFormC o ho _ _ _ _ _ _ _]
    exact ⟨fun n ev h => formC_core hne h s1 s2 o.cond, fun q h => formC_seq hne h o.cond⟩
  case logic =>
    simp only [predOps_isFormP o ho _ _ _ _ _ _ _]
    exact ⟨fun n ev h => formP_core hne h pa pb o.result, fun q h => formP_seq hne h pa pb o.result⟩
  case movgp =>
    refine ⟨fun n ev h => ?core, fun q h => ?seq⟩
    case core =>
      obtain ⟨t, ht, hc⟩ := CoreRuns.done (o := { agent := .core n, guard := g, reads := [s1.toNat] }) h rfl rfl
        (body := fun s x => .done (s.modCtx (.core n) fun y => predLoad y (x.rd s1.toNat)) []) rfl
      refine ⟨t, _, ht, hc, ?_, fun k hk => ?_⟩
      · obtain ⟨p, hp⟩ := foldl_wrp_eq ((u.core n).x.rd s1.toNat) (List.range 16) (u.core n).x
        exact ⟨p, congrArg (u.setCtx (.core n)) hp⟩
      · rw [← State.ctx_core, State.modCtx, State.ctx_setCtx, rdp_predLoad _ _ hk]
    case seq =>
      refine ⟨_, SeqRuns.done (o := { agent := .seq q, guard := g, reads := [s1.toNat] }) h rfl rfl rfl rfl
        (body := fun s x => .done (s.modCtx (.seq q) fun y => predLoad y (x.rd s1.toNat)) []) rfl, ?_, fun k hk => ?_⟩
      · obtain ⟨p, hp⟩ := foldl_wrp_eq ((u.seq (seqIx q)).x.rd s1.toNat) (List.range 16) (u.seq (seqIx q)).x
        refine ⟨p, ?_⟩
        rw [State.modCtx, seqBody_ctx]
        exact congrArg _ hp
      · rw [← State.ctx_seq, State.modCtx, State.ctx_setCtx, rdp_predLoad _ _ hk]

end Sys2Proof.Proofs

/-! ## Branches, calls and LOOP (02/R65 to R69) -/

namespace Sys2Proof.Machine

theorem and_three_eq_zero_iff (t : W64) : t &&& 3 = 0 ↔ t % 4 = 0 := by
  have h : t &&& 3 = t % 4 := BitVec.eq_of_toNat_eq (by
    rw [BitVec.toNat_and, BitVec.toNat_umod]
    exact Nat.and_two_pow_sub_one_eq_mod t.toNat 2)
  rw [h]
/-- A target that can be fetched stops no branch (02/R68). -/
theorem targetExc_none {s : State} {a : Agent} {t : W64} (ht : t % 4 = 0) (hf : s.fetchable a t = true) : s.targetExc a t = none := by
  rw [State.targetExc, if_neg (not_not_intro ((and_three_eq_zero_iff t).2 ht)), hf]
  rfl
theorem targetExc_misaligned {s : State} {a : Agent} {t : W64} (ht : t % 4 ≠ 0) : s.targetExc a t = some 3 :=
  if_pos (mt (and_three_eq_zero_iff t).1 ht)
theorem targetExc_range {s : State} {a : Agent} {t : W64} (ht : t % 4 = 0) (hf : s.fetchable a t = false) :
    s.targetExc a t = some 4 := by
  rw [State.targetExc, if_neg (not_not_intro ((and_three_eq_zero_iff t).2 ht)), hf]
  rfl

theorem predicted_branchPredict (s : State) (n : Nat) (k : BrKind) (pc t : W64) (taken : Bool) (push : Option W64) :
    Claims.Predicted s (s.branchPredict n k pc t taken push).1 n := ⟨_, _, rfl⟩
/-- Prediction and a write of a general register touch different parts of a core. -/
theorem predicted_wrG {u v : State} {n : CoreId} (h : Claims.Predicted u v n) (r : Nat) (w : W64) :
    Claims.Predicted (u.wrG (.core n) r w) (v.wrG (.core n) r w) n := by
  obtain ⟨p, f, rfl⟩ := h
  refine ⟨p, f, ?_⟩
  simp [State.wrG, State.modCtx, State.setCtx, State.ctx, State.modCore, State.setCore, State.core]

/-- A taken branch whose target is bad is an exception and does nothing else (02/R68). -/
theorem branchTo_exc {s : State} {a : Agent} {t : W64} {code : Nat} (h : s.targetExc a t = some code) (k : BrKind) (link : Bool) :
    s.branchTo a k t link = .exc s code none 0 := by
  simp only [State.branchTo, h]
theorem branchTo_core {s : State} {n : CoreId} {t : W64} (h : s.targetExc (.core n) t = none) (k : BrKind) (link : Bool) :
    ∃ v evs, s.branchTo (.core n) k t link = .jump v t evs ∧
      Claims.Predicted (if link then s.wrG (.core n) 63 ((s.core n).x.pc + 4) else s) v n := by
  simp only [State.branchTo, h, State.predictOn, State.ctx_core]
  exact ⟨_, _, rfl, predicted_branchPredict ..⟩
theorem branchTo_seq {s : State} {q : SeqId} {t : W64} (h : s.targetExc (.seq q) t = none) (k : BrKind) (link : Bool) :
    s.branchTo (.seq q) k t link = .jump (if link then s.wrG (.seq q) 63 ((s.ctx (.seq q)).pc + 4) else s) t [] := by
  simp only [State.branchTo, h, State.predictOn]

/-- What LOOP does with its counter and its target once it runs (02/R69). -/
def loopBody (a : Agent) (d : Reg) (n : BitVec 9) (s : State) (x : Ctx) : Res :=
  let v := x.rd d.toNat - 1
  let t := x.pc - 4 * w64 n.toNat
  let p := fun taken => s.predictOn a (.direct true) x.pc t taken none
  if v ≠ 0 then
    match s.targetExc a t with
    | some code => .exc s code none 0
    | none => .jump ((p true).1.wrG a d.toNat v) t ((0x24, 1) :: (p true).2)
  else .done ((p false).1.wrG a d.toNat v) (p false).2
def loopOp (a : Agent) (q : PReg) (d : Reg) (n : BitVec 9) (s : State) : Op :=
  { agent := a, guard := q, legal := decide (1 ≤ n.toNat) && decide (n.toNat ≤ 32) && d != 0, reads := [d.toNat], writes := [d.toNat],
    beats := 5, loopLen := some n.toNat, branch := some (.direct true, some ((s.ctx a).pc - 4 * w64 n.toNat)) }
theorem execLoop_eq (a : Agent) (q : PReg) (d : Reg) (n : BitVec 9) (s : State) :
    execLoop a q d n s = runInstr (loopOp a q d n s) (loopBody a d n) s := rfl
theorem loopOp_legal {d : Reg} {n : BitVec 9} (h1 : 1 ≤ n.toNat) (h2 : n.toNat ≤ 32) (hd : d ≠ 0) (a : Agent) (q : PReg) (s : State) :
    (loopOp a q d n s).legal = true := by
  simp only [loopOp, h1, h2, decide_true, Bool.true_and, bne_iff_ne, ne_eq, hd, not_false_eq_true]
theorem loopBody_last {a : Agent} {d : Reg} {x : Ctx} (h : x.rd d.toNat = 1) (n : BitVec 9) (s : State) :
    ∃ evs, loopBody a d n s x =
      .done ((s.predictOn a (.direct true) x.pc (x.pc - 4 * w64 n.toNat) false none).1.wrG a d.toNat 0) evs := by
  rw [loopBody, h]
  exact ⟨_, rfl⟩
theorem sub_one_ne_zero {v : W64} (h : v ≠ 1) : v - 1 ≠ 0 := fun h0 => h (by
  rw [← BitVec.sub_add_cancel v 1, h0]
  rfl)
theorem loopBody_back {a : Agent} {d : Reg} {x : Ctx} {n : BitVec 9} {s : State} (h : x.rd d.toNat ≠ 1)
    (ht : s.targetExc a (x.pc - 4 * w64 n.toNat) = none) :
    ∃ evs, loopBody a d n s x = .jump
      ((s.predictOn a (.direct true) x.pc (x.pc - 4 * w64 n.toNat) true none).1.wrG a d.toNat (x.rd d.toNat - 1))
      (x.pc - 4 * w64 n.toNat) evs := by
  simp only [loopBody, if_pos (sub_one_ne_zero h), ht]
  exact ⟨_, rfl⟩

end Sys2Proof.Machine

namespace Sys2Proof.Claims
open Sys2Proof Sys2Proof.Machine

/-- What the frame knows of a branch. -/
def branchOp (a : Agent) (g : PReg) (link : Bool) (rds : List Nat) (b : Option (BrKind × Option W64)) : Op :=
  { agent := a, guard := g, reads := rds, writes := if link then [63] else [], beats := 5, branch := b }
/-- `i` is a taken branch to `dest`, with a return address where `link` says so: the body that its five forms share. -/
def IsBranchTo (i : Instr) (a : Agent) (g : PReg) (dest : Ctx → W64) (link : Bool) (rds : List Nat) : Prop :=
  ∃ k, ∀ s, ∃ b, exec i s =
    runInstr (branchOp a g link rds b) (fun s x => s.branchTo a k (dest x) link) s

section
variable {s u : State} {g : PReg} {i : Instr} {dest : Ctx → W64} {link : Bool} {rds : List Nat}

theorem IsBranchTo.core_taken {n : CoreId} {ev : List (Nat × Nat)} (hi : IsBranchTo i (.core n) g dest link rds)
    (h : CoreRuns s n g u ev) (ht : u.targetExc (.core n) (dest (u.core n).x) = none) :
    ∃ t v, exec i s = .next t ∧ Predicted (if link then u.wrG (.core n) 63 ((u.core n).x.pc + 4) else u) v n ∧
      CoreCompletes v t n (dest (u.core n).x) := by
  obtain ⟨k, hk⟩ := hi
  obtain ⟨b, hb⟩ := hk s
  obtain ⟨v, evs, hv, hp⟩ := branchTo_core ht k link
  rw [hb]
  obtain ⟨t, ht, hc⟩ := CoreRuns.jump (o := branchOp (.core n) g link rds b) h rfl rfl
    (body := fun s x => s.branchTo (.core n) k (dest x) link) hv
  exact ⟨t, v, ht, hp, hc⟩
theorem IsBranchTo.core_exc {n : CoreId} {ev : List (Nat × Nat)} {code : Nat} (hi : IsBranchTo i (.core n) g dest link rds)
    (h : CoreRuns s n g u ev) (ht : u.targetExc (.core n) (dest (u.core n).x) = some code) :
    exec i s = .next (u.takeExc n code none 0) := by
  obtain ⟨k, hk⟩ := hi
  obtain ⟨b, hb⟩ := hk s
  rw [hb]
  exact CoreRuns.exc (o := branchOp (.core n) g link rds b) h rfl rfl (branchTo_exc ht k link)
theorem IsBranchTo.seq_taken {q : SeqId} (hi : IsBranchTo i (.seq q) g dest link rds)
    (h : SeqRuns s q g rds (if link then [63] else []) u) (ht : dest (u.seq (seqIx q)).x % 4 = 0)
    (hr : (dest (u.seq (seqIx q)).x).toNat < seqImemSize (seqIx q)) :
    exec i s = .next ((if link then (seqBody u q (if link then [63] else [])).wrG (.seq q) 63 ((u.seq (seqIx q)).x.pc + 4)
        else seqBody u q (if link then [63] else [])).seqComplete (seqIx q) (dest (u.seq (seqIx q)).x) 5 none true
      (if link then some 63 else none)) := by
  obtain ⟨k, hk⟩ := hi
  obtain ⟨b, hb⟩ := hk s
  have hd : (if link then some 63 else none) = (if link then [63] else []).head? := by cases link <;> rfl
  rw [hb, hd]
  refine SeqRuns.jump (o := branchOp (.seq q) g link rds b) (evs := []) h rfl rfl rfl rfl ?_
  rw [branchTo_seq (targetExc_none ht (decide_eq_true hr)), seqBody_ctx]
  rfl
end

theorem branchesReachTheirTarget : BranchesReachTheirTarget := by
  intro g disp s1 a i dest link rds hi s u
  have hb : IsBranchTo i a g dest link rds := by
    obtain ⟨rfl, rfl, rfl, rfl⟩ | ⟨rfl, rfl, rfl, rfl⟩ | ⟨rfl, rfl, rfl, rfl⟩ | ⟨rfl, rfl, rfl, rfl⟩ | ⟨rfl, rfl, rfl, rfl⟩ := hi
    all_goals exact ⟨_, fun s => ⟨_, rfl⟩⟩
  refine ⟨?core, ?seq⟩
  case core =>
    rintro n ev rfl h
    exact ⟨fun ht hf => hb.core_taken h (targetExc_none ht hf), fun ht => hb.core_exc h (targetExc_misaligned ht),
      fun ht hf => hb.core_exc h (targetExc_range ht hf)⟩
  case seq =>
    rintro q rfl h
    exact fun ht hr => hb.seq_taken h ht hr

theorem loopRepeatsItsBody : LoopRepeatsItsBody := by
  intro g d k s u h1 h32 hd
  have hl (a : Agent) := loopOp_legal h1 h32 hd a g s
  refine ⟨fun n ev h => ⟨?coreBack, ?coreLast⟩, fun q h => ⟨?seqBack, ?seqLast⟩⟩
  case coreBack =>
    intro hne ht hf
    obtain ⟨evs, hb⟩ := loopBody_back (a := .core n) hne (targetExc_none ht hf)
    obtain ⟨t, hn, hc⟩ := CoreRuns.jump (o := loopOp (.core n) g d k s) h rfl (hl _) hb
    exact ⟨t, _, by rw [exec_loop, execLoop_eq, hn], predicted_wrG (predicted_branchPredict ..) _ _, hc⟩
  case coreLast =>
    intro he
    obtain ⟨evs, hb⟩ := loopBody_last (a := .core n) he k u
    obtain ⟨t, hn, hc⟩ := CoreRuns.done (o := loopOp (.core n) g d k s) h rfl (hl _) hb
    exact ⟨t, _, by rw [exec_loop, execLoop_eq, hn], predicted_wrG (predicted_branchPredict ..) _ _, hc⟩
  case seqBack =>
    intro hne ht hr
    obtain ⟨evs, hb⟩ := loopBody_back (a := .seq q) (s := seqBody u q [d.toNat]) hne (targetExc_none ht (decide_eq_true hr))
    rw [exec_loop, execLoop_eq]
    exact SeqRuns.jump (o := loopOp (.seq q) g d k s) h rfl rfl (hl _) rfl hb
  case seqLast =>
    intro he
    obtain ⟨evs, hb⟩ := loopBody_last (a := .seq q) he k (seqBody u q [d.toNat])
    rw [exec_loop, execLoop_eq]
    exact SeqRuns.done (o := loopOp (.seq q) g d k s) h rfl rfl (hl _) rfl hb

end Sys2Proof.Claims

namespace Sys2Proof.Proofs

/-- Settles O3: the five branches share one body, and LOOP has its own. -/
theorem branchesAndLoops : Obligations.BranchesAndLoops := ⟨Claims.branchesReachTheirTarget, Claims.loopRepeatsItsBody⟩

end Sys2Proof.Proofs

/-! ## SYSCALL, BREAK, reserved encodings and ERET (03/R106, R110, 02/R38) -/

namespace Sys2Proof.Machine

/-- After ERET the saved level and interrupt enable are in force, and the rest of SYS_STATUS is as it was (03/R106). -/
theorem eretStatus_fields (st : W64) : fld (eretStatus st) 0 0 = fld st 2 2 ∧ fld (eretStatus st) 1 1 = fld st 3 3 ∧
    fld (eretStatus st) 63 2 = fld st 63 2 := by
  refine ⟨?_, ?_, ?_⟩
  · rw [eretStatus, fld_setFld_disjoint _ _ (by omega) (by omega), fld_setFld_same (hi := 0) (lo := 0) _ (by omega) (fld_lt st 2 2)]
  · rw [eretStatus, fld_setFld_same (hi := 1) (lo := 1) _ (by omega) (fld_lt st 3 3)]
  · rw [eretStatus, fld_setFld_disjoint _ _ (by omega) (by omega), fld_setFld_disjoint _ _ (by omega) (by omega)]
/-- What ERET at S does to core n besides its jump (03/R106, 05/R174). -/
def State.returned (u : State) (n : Nat) : State :=
  u.modCore n fun c => { (c.overtake 0x1C).setSys 0 (eretStatus (c.sysr 0)) with ioFence := c.ioSaved, ioSaved := false }
/-- A word that is no instruction of the agent (02/R38). -/
theorem execIllegalInstruction_eq {a : Agent} {w : BitVec 32} (h : decodeWord a w = none) (s : State) :
    execIllegalInstruction a w s = runInstr { agent := a, guard := 0, legal := false } (fun s _ => .wait s) s := by
  rw [execIllegalInstruction, h]

end Sys2Proof.Machine

namespace Sys2Proof.Claims
open Sys2Proof Sys2Proof.Machine

theorem trapInstructions : TrapInstructions := by
  intro s u n q g w ev
  refine ⟨fun h => ⟨?syscall, ?trap⟩, fun h hd => ?reserved, fun h => ⟨?coreOnly, fun _ hd => ?seqReserved⟩⟩
  case syscall => exact CoreRuns.exc (o := { agent := .core n, guard := g, coreOnly := true }) h rfl rfl rfl
  case trap => exact CoreRuns.exc (o := { agent := .core n, guard := g, coreOnly := true }) h rfl rfl rfl
  case reserved =>
    rw [exec_illegalInstruction, execIllegalInstruction_eq hd]
    exact h.illegal rfl rfl _
  case coreOnly =>
    simp only [List.forall_mem_cons, List.not_mem_nil, false_imp_iff, implies_true, and_true, exec_syscall, exec_break,
      exec_eret, exec_wait, exec_tlbinvAll, execSyscall, execBreak, execEret, execWait, execTlbinvAll, tlbinv]
    exact ⟨h.illegal rfl (.inl rfl) _, h.illegal rfl (.inl rfl) _, h.illegal rfl (.inl rfl) _, h.illegal rfl (.inl rfl) _,
      h.illegal rfl (.inl rfl) _⟩
  case seqReserved =>
    rw [exec_illegalInstruction, execIllegalInstruction_eq hd]
    exact h.illegal rfl (.inr rfl) _

theorem wordMajor_eq (w : W32) : wordMajor w = w.toNat / 2 ^ 21 % 128 := by
  rw [wordMajor, BitVec.extractLsb'_toNat, Nat.shiftRight_eq_div_pow]
theorem decodeAny_reserved (a : Agent) {w : W32} (h : familyOf (wordMajor w) = none) : decodeAny a w = none := by
  rw [decodeAny, h]
theorem decodeWord_reserved (a : Agent) {w : W32} (h : familyOf (wordMajor w) = none) : decodeWord a w = none := by
  cases a with
  | core n => exact decodeAny_reserved _ h
  | seq q =>
    rw [decodeWord, decodeAny_reserved _ h, ite_self]
theorem wordsDecode : WordsDecode := by
  intro a n
  refine ⟨?_, ?_, ?_, rfl, rfl, ?_, fun w hw => decodeWord_reserved a (by rw [wordMajor_eq, hw]; rfl)⟩
  all_goals cases a <;> rfl

theorem eretRestores : EretRestores := by
  intro s u n g ev h
  refine ⟨fun hp => ?user, fun hp => ?supervisor⟩
  case user =>
    rw [exec_eret, execEret]
    exact CoreRuns.exc (o := { agent := .core n, guard := g, coreOnly := true, events := [(0x0F, 1)] }) h rfl rfl (by
      simp only [hp]
      rfl)
  case supervisor =>
    have hret : ∃ t, exec (.eret (.core n) g) s = .next t ∧ CoreCompletes (u.returned n) t n (vecTarget ((u.core n).sysr 2)) := by
      rw [exec_eret, execEret]
      exact CoreRuns.jump (o := { agent := .core n, guard := g, coreOnly := true, events := [(0x0F, 1)] }) h rfl rfl (by
        simp only [hp]
        rfl)
    obtain ⟨t, ht, hc⟩ := hret
    exact ⟨t, _, eretStatus ((u.core n).sysr 0), ht, hc, ⟨_, rfl⟩, eretStatus_fields _⟩

end Sys2Proof.Claims

namespace Sys2Proof.Proofs

/-- Settles O18: traps and reserved words by the frame of an instruction, words by evaluation, ERET by its status word. -/
theorem trapsAndReturns : Obligations.TrapsAndReturns := ⟨Claims.trapInstructions, Claims.wordsDecode, Claims.eretRestores⟩

end Sys2Proof.Proofs

/-! ## Loads through the caches (04/R126, 17/R516, 08/R251) -/

namespace Sys2Proof.Machine
open Sys2Proof.Claims

theorem CacheOnly.rd8 {s t : State} (h : CacheOnly s t) (a : Nat) : t.rd8 a = s.rd8 a := by
  simp only [State.rd8, h.free, h.mem]
theorem CacheOnly.poisoned {s t : State} (h : CacheOnly s t) (l : Nat) : t.poisoned l = s.poisoned l := by
  simp only [State.poisoned, h.mem]
theorem CacheOnly.fencedLine {s t : State} (h : CacheOnly s t) (l : Nat) : t.fencedLine l = s.fencedLine l := by
  rw [h.1]
  rfl
/-- One line read by a core, through its caches (WB) or at the home slice: one step of `State.readLines`. -/
def State.readLine (s : State) (n : Nat) (wb : Bool) (l : Nat) : State × Src :=
  if wb then s.cohRead (s.tileOf n) l false (s.creelOf n) else s.homeLook l
theorem State.readLine_cacheOnly (s : State) (n : Nat) (wb : Bool) (l : Nat) : CacheOnly s (s.readLine n wb l).1 := by
  cases wb with
  | true => exact CacheOnly.cohRead ..
  | false => exact CacheOnly.homeLook ..
theorem State.readLines_cons_fst (s : State) (n : Nat) (wb : Bool) (l : Nat) (r : List Nat) :
    (s.readLines n wb (l :: r)).1 = ((s.readLine n wb l).1.readLines n wb r).1 := rfl
/-- A readable line names no error, so that the first error is one of the lines after it. -/
theorem State.readLines_cons_error (s : State) (n : Nat) (wb : Bool) (l : Nat) (r : List Nat) (hp : s.poisoned l = false)
    (hf : s.fencedLine l = false) : (s.readLines n wb (l :: r)).2.2 = ((s.readLine n wb l).1.readLines n wb r).2.2 := by
  have h := s.readLine_cacheOnly n wb l
  rw [← h.poisoned] at hp
  rw [← h.fencedLine] at hf
  unfold State.readLine at hp hf ⊢
  simp [State.readLines, hp, hf]
theorem State.readLines_cacheOnly (s : State) (n : Nat) (wb : Bool) (ls : List Nat) : CacheOnly s (s.readLines n wb ls).1 := by
  induction ls generalizing s with
  | nil => exact CacheOnly.refl s
  | cons l r ih =>
    rw [State.readLines_cons_fst]
    exact (s.readLine_cacheOnly n wb l).trans (ih _)
theorem State.readLines_error_none {s : State} (n : Nat) (wb : Bool) {ls : List Nat}
    (h : ∀ l ∈ ls, s.poisoned l = false ∧ s.fencedLine l = false) : (s.readLines n wb ls).2.2 = none := by
  induction ls generalizing s with
  | nil => rfl
  | cons l r ih =>
    obtain ⟨⟨hp, hf⟩, hr⟩ := List.forall_mem_cons.1 h
    have hl := s.readLine_cacheOnly n wb l
    rw [State.readLines_cons_error s n wb l r hp hf]
    exact ih fun k hk => by rw [hl.poisoned, hl.fencedLine]; exact hr k hk
/-- A load whose lines are readable delivers the bytes of memory, whatever the caches did for it. -/
theorem State.loadMem_readable {s : State} {addrs : List Nat} (h : Readable s addrs) (n : CoreId) (wb : Bool) (d : LoadDest)
    (evs : List (Nat × Nat)) :
    ∃ x evs', CacheOnly s x ∧ s.loadMem n addrs wb d evs = .done (x.deliver (.core n) d (addrs.map s.rd8)) evs' := by
  have hls : ∀ l ∈ (addrs.map (· / 64)).eraseDups, s.poisoned l = false ∧ s.fencedLine l = false := by
    intro l hl
    obtain ⟨a, ha, rfl⟩ := List.mem_map.1 (List.mem_eraseDups.1 hl)
    exact h a ha
  have hc := s.readLines_cacheOnly n wb (addrs.map (· / 64)).eraseDups
  have hn := State.readLines_error_none n wb hls
  generalize hr : s.readLines n wb (addrs.map (· / 64)).eraseDups = r at hc hn
  obtain ⟨x, rank, bad⟩ := r
  obtain rfl : bad = none := hn
  have hb : addrs.map x.rd8 = addrs.map s.rd8 := List.map_congr_left fun a _ => hc.rd8 a
  simp only [State.loadMem, hr, hb]
  exact ⟨x, _, hc, rfl⟩

/-! ## Events of a core's memory system (04/R126, R128, 06/R183 to R187) -/

/-- Counting alone leaves the pc where it is. -/
theorem CoreCompletes.countOnly (v : State) (n f : Nat) (p : Bool) (e : List (Nat × Nat)) :
    CoreCompletes v { v.modCore n fun c => c.count p e with free := f } n (v.core n).x.pc :=
  ⟨f, _, rfl, Core.count_same _ p e⟩

/-- A parked load waits for every buffered store that overlaps it (04/R126). -/
theorem execParkedLoad_waits {s : State} {n : CoreId} {p : Parked} (hp : (s.core n).parked = some p)
    (ho : ∃ e ∈ (s.core n).sb, overlaps e.bytes p.addrs = true) : execParkedLoad n s = .next s := by
  rw [execParkedLoad]
  simp only [hp, List.any_eq_true.2 ho, if_true]
/-- With no overlapping store left, a parked load of memory is a load of the bytes of memory (04/R126). -/
theorem execParkedLoad_completes {s : State} {n : CoreId} {p : Parked} (hp : (s.core n).parked = some p)
    (ho : ∀ e ∈ (s.core n).sb, overlaps e.bytes p.addrs = false) (hr : s.parkedReserved p = none) (hm : Readable s p.addrs) :
    ∃ t x, execParkedLoad n s = .next t ∧ CacheOnly (s.modCore n fun c => { c with parked := none }) x ∧
      CoreCompletes (x.deliver (.core n) p.dest (p.addrs.map s.rd8)) t n ((s.core n).x.pc + 4) := by
  have hany : ((s.core n).sb.any fun e => overlaps e.bytes p.addrs) = false := by
    simpa only [List.any_eq_false, Bool.not_eq_true] using ho
  have hr' : (s.modCore n fun c => { c with parked := none }).parkedReserved p = none := hr
  obtain ⟨x, evs, hx, hl⟩ :=
    State.loadMem_readable (s := s.modCore n fun c => { c with parked := none }) hm n true p.dest [(0x17, 1)]
  rw [execParkedLoad]
  simp only [hp, hany, hr', hl, Bool.false_eq_true, if_false]
  exact ⟨_, x, rfl, hx, CoreCompletes.count ..⟩

/-- A load that the predictor holds did not issue early, and nothing is replayed (04/R128). -/
theorem execMemoryOrderReplay_known {s : State} {n : CoreId} {a : W64} (h : a ∈ (s.core n).pred.conflicts) :
    execMemoryOrderReplay n a s = .next s := by
  rw [execMemoryOrderReplay, if_pos (List.contains_iff_mem.2 h)]
/-- A replay records the load's address and repeats the load: the pc stays (04/R128). -/
theorem execMemoryOrderReplay_records {s : State} {n : CoreId} {a : W64} (h : a ∉ (s.core n).pred.conflicts) :
    ∃ t, execMemoryOrderReplay n a s = .next t ∧
      CoreCompletes (s.modCore n fun c => { c with pred := { c.pred with conflicts := (a :: c.pred.conflicts).take 1024 } }) t n
        (s.core n).x.pc := by
  have hc := CoreCompletes.countOnly
    (s.modCore n fun c => { c with pred := { c.pred with conflicts := (a :: c.pred.conflicts).take 1024 } }) n (s.free + 1)
    (s.core n).priv (s.specEvents [(0x33, 1), (0x34, 1), (0x32, 1)]).2
  rw [State.modCore_modCore, State.core_modCore_self] at hc
  refine ⟨_, ?_, hc⟩
  rw [execMemoryOrderReplay, if_neg (mt List.contains_iff_mem.1 h)]
  rfl

/-- What lets a table walk of core n begin: it runs with translation on, and waits for no load (06/R183). -/
def Core.walks (c : Core) (va : W64) : Prop :=
  c.run = .running ∧ c.parked = none ∧ c.dev = none ∧ c.xlateOn = true ∧ canonical (vaWidth (c.sysr 0x22)) va = true
theorem Core.walks_iff (c : Core) (va : W64) : c.walks va ↔
    (c.run != .running || c.parked.isSome || c.dev.isSome || !c.xlateOn || !canonical (vaWidth (c.sysr 0x22)) va) = false := by
  simp [Core.walks, and_assoc]
theorem execTableWalk_idle {s : State} {n : CoreId} {va : W64} (h : ¬ (s.core n).walks va) (k : AccKind) (wp : Bool) :
    execTableWalk n va k wp s = .next s := by
  rw [Core.walks_iff, Bool.not_eq_false] at h
  rw [execTableWalk, if_pos h]
/-- A walk that reads poison is recorded on a wrong path and a machine check on a correct one (06/R185). -/
theorem execTableWalk_poison {s u : State} {n : CoreId} {va : W64} {wp : Bool} {lf : Option TlbLeaf} {pa m : Nat}
    (h : (s.core n).walks va) (hw : s.walkAccess n va.toNat wp = (u, lf, .poison pa, m)) (k : AccKind) :
    execTableWalk n va k wp s = .next (if wp then u.deferred 1 2 pa n 0 else u.takeMc n 2 2 pa) := by
  rw [execTableWalk, if_neg (Bool.eq_false_iff.1 ((Core.walks_iff ..).1 h)), hw]
/-- Any other walk counts its event and leaves the state of the walk (06/R183). -/
theorem execTableWalk_counts {s u : State} {n : CoreId} {va : W64} {wp : Bool} {lf : Option TlbLeaf} {r : WalkRes} {m : Nat}
    (h : (s.core n).walks va) (hw : s.walkAccess n va.toNat wp = (u, lf, r, m)) (hr : ∀ pa, r ≠ .poison pa) (k : AccKind) :
    execTableWalk n va k wp s = .next (u.modCore n fun c => c.count c.priv [(0x39, 1)]) := by
  rw [execTableWalk, if_neg (Bool.eq_false_iff.1 ((Core.walks_iff ..).1 h)), hw]
  cases r with
  | poison pa => exact absurd rfl (hr pa)
  | fault c => rfl
  | leaf e ea l k => rfl
theorem State.walkStart_mem (s : State) (n va : Nat) : (s.walkStart n va).1.mem = s.mem := by
  rw [(s.walkStart_eq n va).1]
/-- A leaf whose a bit is set is cached with no write to its entry (06/R186). -/
theorem State.walkFill_mem_of_accessed {e : W64} (h : pteA e = true) (s : State) (n va ea l k : Nat) (ps : List (Nat × Nat × Nat)) :
    (s.walkFill n va e ea l k ps).1.mem = s.mem := by
  simp only [State.walkFill, h, if_true, State.modCore_mem]
/-- A walk on a wrong path writes no entry of a table (06/R187). -/
theorem State.walkAccess_wrongPath_mem (s : State) (n va : Nat) : (s.walkAccess n va true).1.mem = s.mem := by
  rw [State.walkAccess]
  split
  next e _ _ _ _ _ _ =>
    split
    · exact s.walkStart_mem n va
    next h =>
      have ha : pteA e = true := by simpa using h
      exact (State.walkFill_mem_of_accessed ha ..).trans (s.walkStart_mem n va)
  · exact s.walkStart_mem n va
  · exact s.walkStart_mem n va
theorem TranslateOnly.core_x {s u : State} {n : Nat} (h : TranslateOnly s u n) : (u.core n).x = (s.core n).x := by
  obtain ⟨-, ⟨tlb, ptr, hc⟩, -, -⟩ := h
  rw [hc]

end Sys2Proof.Machine

namespace Sys2Proof.Claims
open Sys2Proof Sys2Proof.Machine

theorem tableWalkTranslates {s u : State} {n : CoreId} {va : W64} {wp : Bool} {lf : Option TlbLeaf} {r : WalkRes} {m : Nat}
    (h : (s.core n).walks va) (hw : s.walkAccess n va.toNat wp = (u, lf, r, m)) (k : AccKind) :
    TranslateOnly s u n ∧ (wp = true → u.mem = s.mem) ∧
      ((∀ pa, r ≠ .poison pa) → ∃ t, exec (.tableWalk n va k wp) s = .next t ∧ CoreCompletes u t n (s.core n).x.pc) ∧
      ∀ pa, r = .poison pa →
        exec (.tableWalk n va k wp) s = .next (if wp then u.deferred 1 2 pa n 0 else u.takeMc n 2 2 pa) := by
  have hu : (s.walkAccess n va.toNat wp).1 = u := by rw [hw]
  have hT : TranslateOnly s u n := hu ▸ s.walkAccess_only n va.toNat wp
  refine ⟨hT, ?wrongPath, fun hr => ?completes, ?poison⟩
  case wrongPath =>
    rintro rfl
    exact hu ▸ s.walkAccess_wrongPath_mem n va.toNat
  case completes =>
    have hc := CoreCompletes.countOnly u n u.free (u.core n).priv [(0x39, 1)]
    rw [hT.core_x] at hc
    exact ⟨_, execTableWalk_counts h hw hr k, hc⟩
  case poison =>
    rintro pa rfl
    exact execTableWalk_poison h hw k

end Sys2Proof.Claims

namespace Sys2Proof.Proofs
open Sys2Proof.Machine

/-- Settles O25: a parked load by the rule for a load through the caches, a replay by what counting leaves, a walk by what a translation
can change. -/
theorem coreMemoryEvents : Obligations.CoreMemoryEvents := by
  refine ⟨fun s n p hp => ⟨?waits, ?loads⟩, fun s n a => ⟨?known, ?records⟩, fun s n va k wp => ⟨?idle, ?walk⟩⟩
  case waits => exact execParkedLoad_waits hp
  case loads => exact execParkedLoad_completes hp
  case known => exact execMemoryOrderReplay_known
  case records => exact execMemoryOrderReplay_records
  case idle =>
    intro h
    refine execTableWalk_idle (fun ⟨hrun, _, _, hon, hcan⟩ => ?_) k wp
    simp [hrun, hon, hcan] at h
  case walk =>
    exact fun u lf r m hrun hpark hdev hon hcan hw => Claims.tableWalkTranslates ⟨hrun, hpark, hdev, hon, hcan⟩ hw k

end Sys2Proof.Proofs

/-! ## An agent's own caches (07/R199, R215, R216, R221) -/

namespace Sys2Proof.Machine

theorem State.tile_setTile (s : State) (n m : Nat) (x : Tile) : (s.setTile n x).tile m = if m = n then x else s.tile m :=
  FMap.get_set tileReset s.tiles n m x
theorem State.slice_setSlice (s : State) (i j : Nat) (x : Slice) : (s.setSlice i x).slice j = if j = i then x else s.slice j :=
  FMap.get_set sliceReset s.slices i j x
@[simp] theorem State.slice_setSlice_self (s : State) (i : Nat) (x : Slice) : (s.setSlice i x).slice i = x :=
  FMap.get_set_self sliceReset s.slices i x

/-! A set of lines, by the line asked for. -/

theorem setFind_setFill (ways : Nat) (set : List CLine) (line : Nat) (st : Moesi) :
    setFind (setFill ways set line st).1 line = some st := by
  simp only [setFind, setFill]
  split
  next c hc => simp [show c.line = line by simpa using List.find?_some hc]
  next =>
    split
    · simp
    · split <;> simp
@[simp] theorem setFind_setDrop (set : List CLine) (line : Nat) : setFind (setDrop set line) line = none := by
  simp [setFind, setDrop]
@[simp] theorem setFind_setState (set : List CLine) (line : Nat) (st : Moesi) :
    setFind (setState set line st) line = (setFind set line).map fun _ => st := by
  induction set with
  | nil => rfl
  | cons c r ih =>
    by_cases h : c.line = line
    · simp [setFind, setState, h]
    · simpa [setFind, setState, h] using ih

/-! What the home does, and what waits in a tile, leaves the agents' own caches as they are. -/

section
variable (s : State) (ag line : Nat)

@[simp] theorem State.privSt_setSlice (i : Nat) (x : Slice) : (s.setSlice i x).privSt ag line = s.privSt ag line := rfl
@[simp] theorem State.privSt_setDir (d : DirEntry) : (s.setDir d).privSt ag line = s.privSt ag line := rfl
@[simp] theorem State.privSt_ucAdd (c off n : Nat) : (s.ucAdd c off n).privSt ag line = s.privSt ag line := rfl
@[simp] theorem State.privSt_sliceFill (l : Nat) (d : Bool) (cr : Option Nat) :
    (s.sliceFill l d cr).privSt ag line = s.privSt ag line := by
  simp only [State.sliceFill]
  repeat' split
  all_goals rfl
@[simp] theorem State.privSt_sliceAlloc (l : Nat) (d : Bool) (cr : Option Nat) :
    (s.sliceAlloc l d cr).privSt ag line = s.privSt ag line := by
  simp only [State.sliceAlloc]
  repeat' split
  all_goals simp
@[simp] theorem State.privSt_dirLeave (a l : Nat) : (s.dirLeave a l).privSt ag line = s.privSt ag line := by
  simp only [State.dirLeave]
  repeat' split
  all_goals rfl
@[simp] theorem State.privSt_bridgeCount (a l : Nat) (cr : Option Nat) :
    (s.bridgeCount a l cr).privSt ag line = s.privSt ag line := by
  simp only [State.bridgeCount]
  repeat' split
  all_goals rfl
@[simp] theorem State.privSt_releaseMiss (t : Nat) (ls : List Nat) : (s.releaseMiss t ls).privSt ag line = s.privSt ag line := by
  have hl2 : ((s.releaseMiss t ls).tile ag).l2 = (s.tile ag).l2 := by
    simp only [State.releaseMiss]
    split
    · rfl
    · rw [State.tile_setTile]
      split
      next h => rw [h]
      next => rfl
  have hseq : (s.releaseMiss t ls).seq (ag - 224) = s.seq (ag - 224) := by
    simp only [State.releaseMiss]
    split <;> rfl
  simp only [State.privSt, hl2, hseq]

/-! What a change of an agent's own caches leaves there. -/

theorem State.privSt_setPriv (st : Moesi) : (s.setPriv ag line st).privSt ag line = (s.privSt ag line).map fun _ => st := by
  simp only [State.setPriv, State.privSt]
  split <;> simp [State.tile_setTile]
theorem State.privSt_dropPriv (a : Nat) : (s.dropPriv a line).privSt ag line = if ag = a then none else s.privSt ag line := by
  split
  next h =>
    subst h
    simp only [State.dropPriv, State.privSt]
    split <;> simp [State.tile_setTile]
  next h =>
    simp only [State.dropPriv, State.privSt]
    by_cases ha : a < 224
    · simp only [ha, if_true, State.tile_setTile, h, if_false]
      rfl
    · by_cases hg : ag < 224
      · simp only [ha, hg, if_true, if_false]
        rfl
      · simp only [ha, hg, if_false, State.seq_modSeq, show ag - 224 ≠ a - 224 by omega]
/-- A line that enters an agent's own caches stands there in its state, whatever line it displaces (07/R199). -/
theorem State.privSt_fillPriv (st : Moesi) (f : Bool) (cr : Option Nat) :
    (s.fillPriv ag line st f cr).privSt ag line = some st := by
  simp only [State.fillPriv]
  split
  next h =>
    simp only [State.privSt, h, if_true, State.tile_setTile]
    split <;> simp [setFind_setFill]
  next h => simp [State.privSt, h, setFind_setFill]
/-- A held line that is used takes the state of its use (07/R215). -/
theorem State.privSt_touchPriv {st₀ : Moesi} (h : s.privSt ag line = some st₀) (st : Moesi) (f : Bool) (cr : Option Nat) :
    (s.touchPriv ag line st f cr).privSt ag line = some st := by
  simp only [State.touchPriv]
  by_cases hl1 : ag < 224 ∧ (setFind ((if f then (s.tile ag).l1i else (s.tile ag).l1d).get [] (setL1 line)) line).isSome = true
  · rw [if_pos hl1]
    obtain ⟨hag, -⟩ := hl1
    simp only [State.privSt, hag, if_true] at h
    simp only [State.privSt, hag, if_true, State.tile_setTile]
    split <;> simp [h]
  · rw [if_neg hl1]
    exact s.privSt_fillPriv ag line st f cr
theorem State.privSt_writebackLine (cr : Option Nat) : (s.writebackLine ag line cr).privSt ag line = none := by
  simp only [State.writebackLine]
  split
  next h => exact h
  next =>
    rw [State.privSt_dirLeave]
    repeat' split
    all_goals simp [State.privSt_dropPriv]
theorem State.privSt_invalidateAt (wb : Bool) (a : Nat) :
    (s.invalidateAt wb a line).privSt ag line = if ag = a then none else s.privSt ag line := by
  simp only [State.invalidateAt]
  split
  next h =>
    rw [State.privSt_dirLeave]
    split
    next e => rw [e, h]
    next => rfl
  next =>
    rw [State.privSt_dirLeave, State.privSt_dropPriv]
    repeat' split
    all_goals simp
theorem State.privSt_foldl_invalidateAt (wb : Bool) {l : List Nat} (h : ag ∉ l) :
    (l.foldl (fun s a => s.invalidateAt wb a line) s).privSt ag line = s.privSt ag line := by
  induction l generalizing s with
  | nil => rfl
  | cons a r ih =>
    obtain ⟨ha, hr⟩ := not_or.1 (mt List.mem_cons.2 h)
    rw [List.foldl_cons, ih _ hr, State.privSt_invalidateAt, if_neg ha]
/-- The agent that an invalidation of the other holders excepts keeps its copy (07/R216). -/
theorem State.privSt_invalidateAll_except (wb : Bool) : (s.invalidateAll wb line (some ag)).privSt ag line = s.privSt ag line := by
  simp only [State.invalidateAll]
  split
  next => rfl
  next => exact State.privSt_foldl_invalidateAt _ _ _ wb (by simp)

end

/-! ## Requests at the home (07/R216, R217) -/

section
variable {s : State} (ag : Nat) {line : Nat}

/-- Where no request waits for a line, none is served. -/
theorem State.serveWaiting_of_no_waiter (h : ∀ q ∈ (s.slice (homeOf line)).waitq, q.line ≠ line) : s.serveWaiting line = s := by
  have hnone : ((s.slice (homeOf line)).waitq.filter fun q => decide (q.line = line)) = [] :=
    List.filter_eq_nil_iff.2 fun q hq => by simpa using h q hq
  simp only [State.serveWaiting, hnone, if_true]

variable (s line)

/-- An agent that obtains a line for writing holds it in M (07/R216). -/
theorem State.privSt_cohOwn (cr : Option Nat) : (s.cohOwn ag line cr).1.privSt ag line = some .m := by
  simp only [State.cohOwn, State.ownNow]
  split
  next h => exact State.privSt_touchPriv _ _ _ h ..
  next h => exact State.privSt_touchPriv _ _ _ h ..
  next st _ _ h =>
    refine State.privSt_touchPriv _ _ _ (st₀ := st) ?_ ..
    rw [State.privSt_setDir, State.privSt_invalidateAll_except, State.privSt_bridgeCount, h]
  next => exact State.privSt_fillPriv ..
/-- An agent that reads a line holds it (07/R215). -/
theorem State.privSt_cohRead_isSome (f : Bool) (cr : Option Nat) : ((s.cohRead ag line f cr).1.privSt ag line).isSome = true := by
  simp only [State.cohRead, State.readNow]
  split
  next h => rw [State.privSt_touchPriv _ _ _ h]; rfl
  next => rw [State.privSt_fillPriv]; rfl

theorem State.dirOf_setDir_self (d : DirEntry) : (s.setDir d).dirOf d.line = some d := by
  simp [State.setDir, State.dirOf]
/-- The grant that a read is remembered by until its line arrives is no part of the directory. -/
theorem State.dirOf_setSlice_fills (f : List HomeFill) :
    (s.setSlice (homeOf line) { s.slice (homeOf line) with fills := f }).dirOf line = s.dirOf line := by
  simp [State.dirOf]
/-- A read of a line that no one holds makes its agent the owner (07/R216). -/
theorem State.dirOf_homeRead {s : State} {line : Nat} (h : s.dirOf line = none) (cr : Option Nat) :
    (s.homeRead ag line cr).1.dirOf line = some { line := line, owner := some ag, shared := false, sharers := [] } := by
  simp only [State.homeRead, h]
  exact State.dirOf_setDir_self _ { line := line, owner := some ag, shared := false, sharers := [] }

end

/-! ## The coherence requests as commands (07/R216 to R221) -/

theorem CacheOnly.releaseMiss (s : State) (t : Nat) (ls : List Nat) : CacheOnly s (s.releaseMiss t ls) := by
  simp only [State.releaseMiss]
  split
  · exact CacheOnly.refl s
  · exact CacheOnly.setTile ..
theorem CacheOnly.fillArrives (s : State) (ag line : Nat) (f : Bool) : CacheOnly s (s.fillArrives ag line f) := by
  simp only [State.fillArrives]
  split
  · split
    · exact CacheOnly.setSlice ..
    · exact ((CacheOnly.setSlice ..).trans (CacheOnly.arrive ..)).trans (CacheOnly.serveWaiting ..)
  · exact CacheOnly.cohRead ..
theorem CacheOnly.coreAt {s t : State} (h : CacheOnly s t) (a : Nat) : t.coreAt a = s.coreAt a := by
  rw [h.1]
  rfl
/-- A line that comes without a grant to its agent is read by the agent (07/R199). -/
theorem State.privSt_fillArrives_isSome {s : State} {ag line : Nat}
    (h : (s.slice (homeOf line)).fills.find? (fun f => decide (f.line = line ∧ f.agent = ag)) = none) (f : Bool) :
    ((s.fillArrives ag line f).privSt ag line).isSome = true := by
  simp only [State.fillArrives, h]
  exact s.privSt_cohRead_isSome ag line f _
theorem State.privError_none (s : State) (ag line : Nat) (f : Bool) : s.privError ag line .none f = s := by
  simp only [State.privError]
  split <;> rfl

section
variable {s : State} {ag : CohAgent} {l : LineNo}

/-- What a data fill that meets no error leaves of the caches: the line has arrived, and its miss buffer is free. -/
def State.filled (s : State) (ag line : Nat) : State := (s.fillArrives ag line false).releaseMiss ag [line]
theorem CacheOnly.filled (s : State) (ag line : Nat) : CacheOnly s (s.filled ag line) :=
  (CacheOnly.fillArrives ..).trans (CacheOnly.releaseMiss ..)
theorem State.privSt_filled_isSome {s : State} {ag line : Nat}
    (h : (s.slice (homeOf line)).fills.find? (fun f => decide (f.line = line ∧ f.agent = ag)) = none) :
    ((s.filled ag line).privSt ag line).isSome = true := by
  rw [State.filled, State.privSt_releaseMiss]
  exact State.privSt_fillArrives_isSome h false
/-- The core that works in the agent's tile counts the fill (20/R560). -/
theorem execCacheFill_core (hc : cacheable s l.toNat = true) {n : Nat} (hn : s.coreAt ag = some n) (w : Bool) :
    execCacheFill ag l false w .none s =
      .next ((s.filled ag l.toNat).modCore n fun c => c.count c.priv [(0x35, 1), (0x36, 1), (0x38, b2n w)]) := by
  have hat : (s.filled ag l.toNat).coreAt ag = some n := ((CacheOnly.filled s ag l.toNat).coreAt ag).trans hn
  unfold State.filled at hat ⊢
  simp [execCacheFill, hc, State.privError_none, hat]
theorem execCacheFill_no_core (hc : cacheable s l.toNat = true) (hn : s.coreAt ag = none) (w : Bool) :
    execCacheFill ag l false w .none s = .next (s.filled ag l.toNat) := by
  have hat : (s.filled ag l.toNat).coreAt ag = none := ((CacheOnly.filled s ag l.toNat).coreAt ag).trans hn
  unfold State.filled at hat ⊢
  simp [execCacheFill, hc, State.privError_none, hat]
theorem execCacheFill_leaves (hc : cacheable s l.toNat = true) (w : Bool) :
    ∃ t u, execCacheFill ag l false w .none s = .next t ∧ CacheOnly s u ∧
      ((s.slice (homeOf l.toNat)).fills.find? (fun f => f.line = l.toNat ∧ f.agent = ag.val) = none →
        (t.privSt ag l.toNat).isSome = true) ∧ (s.coreAt ag = none → t = u) ∧
      ∀ n, s.coreAt ag = some n → CoreCompletes u t n (s.core n).x.pc := by
  have hu := CacheOnly.filled s ag l.toNat
  cases hn : s.coreAt ag with
  | none =>
    exact ⟨_, _, execCacheFill_no_core hc hn w, hu, State.privSt_filled_isSome, fun _ => rfl, fun _ h => nomatch h⟩
  | some n =>
    refine ⟨_, _, execCacheFill_core hc hn w, hu, State.privSt_filled_isSome, fun h => (nomatch h), ?_⟩
    rintro _ ⟨⟩
    rw [← hu.core n]
    exact CoreCompletes.countOnly ..

/-- READ waits at the home behind a request that is in progress (07/R217). -/
theorem execRead_waits (hc : cacheable s l.toNat = true) (hp : s.privSt ag l.toNat = none) (hb : s.homeBusy l.toNat = true) :
    execRead ag l .none s = .next (s.waitHome { line := l.toNat, agent := ag, own := false }) := by
  simp [execRead, hc, State.sliceError, hp, hb]
/-- READ of a line that no one holds makes the requester its owner (07/R216). -/
theorem execRead_owner (hc : cacheable s l.toNat = true) (hp : s.privSt ag l.toNat = none) (hb : s.homeBusy l.toNat = false)
    (hd : s.dirOf l.toNat = none) :
    ∃ t, execRead ag l .none s = .next t ∧ CacheOnly s t ∧
      t.dirOf l.toNat = some { line := l.toNat, owner := some ag.val, shared := false, sharers := [] } := by
  simp only [execRead, hc, State.sliceError, hp, hb, Bool.not_true, Bool.false_eq_true, if_false, Option.isSome_none]
  refine ⟨_, rfl, (CacheOnly.homeRead ..).trans (CacheOnly.setSlice ..), ?_⟩
  rw [State.dirOf_setSlice_fills, State.dirOf_homeRead _ hd]
/-- READ_FOR_OWNERSHIP leaves the line in M; outside a fenced rank no poison comes with it (07/R216, 08/R251). -/
theorem execReadForOwnership_owns (hc : cacheable s l.toNat = true) (hb : s.homeBusy l.toNat = false)
    (hf : s.fencedLine l.toNat = false) :
    ∃ t, execReadForOwnership ag l s = .next t ∧ CacheOnly s t ∧ t.privSt ag l.toNat = some .m := by
  have ht := (CacheOnly.cohOwn s ag l.toNat (s.agentCreel ag)).trans (CacheOnly.releaseMiss _ ag [l.toNat])
  refine ⟨_, ?_, ht, (State.privSt_releaseMiss ..).trans (State.privSt_cohOwn ..)⟩
  simp [execReadForOwnership, hc, hb, ht.fencedLine, hf]
/-- UPGRADE of a copy in S or O leaves the line in M (07/R216). -/
theorem execUpgrade_owns (hp : s.privSt ag l.toNat = some .s ∨ s.privSt ag l.toNat = some .o) (hb : s.homeBusy l.toNat = false) :
    ∃ t, execUpgrade ag l s = .next t ∧ CacheOnly s t ∧ t.privSt ag l.toNat = some .m := by
  refine ⟨(s.cohOwn ag l.toNat (s.agentCreel ag)).1.releaseMiss ag [l.toNat], ?_,
    (CacheOnly.cohOwn ..).trans (CacheOnly.releaseMiss ..), (State.privSt_releaseMiss ..).trans (State.privSt_cohOwn ..)⟩
  rcases hp with hp | hp <;> simp [execUpgrade, hp, hb]
/-- FORWARDED_READ of an owner in M leaves it the owner, in O (07/R215). -/
theorem execForwardedRead_modified {d : DirEntry} (hd : s.dirOf l.toNat = some d) (hp : s.privSt ag l.toNat = some .m) :
    ∃ t, execForwardedRead ag l s = .next t ∧ CacheOnly s t ∧ t.privSt ag l.toNat = some .o := by
  simp only [execForwardedRead, hp, hd]
  refine ⟨_, rfl, (CacheOnly.setPriv ..).trans (CacheOnly.setDir ..), ?_⟩
  rw [State.privSt_setDir, State.privSt_setPriv, hp, Option.map_some]
/-- FORWARDED_READ of an owner in E leaves it one of the sharers (07/R216). -/
theorem execForwardedRead_exclusive {d : DirEntry} (hd : s.dirOf l.toNat = some d) (hp : s.privSt ag l.toNat = some .e) :
    ∃ t, execForwardedRead ag l s = .next t ∧ CacheOnly s t ∧ t.privSt ag l.toNat = some .s := by
  simp only [execForwardedRead, hp, hd]
  refine ⟨_, rfl, (CacheOnly.setPriv ..).trans (CacheOnly.setDir ..), ?_⟩
  rw [State.privSt_setDir, State.privSt_setPriv, hp, Option.map_some]

end

end Sys2Proof.Machine

namespace Sys2Proof.Proofs
open Sys2Proof.Machine

/-- Settles O27: each request changes what caches hold alone, and the state it leaves its agent is that of the last change of the
agent's own caches. -/
theorem coherenceRequests : Obligations.CoherenceRequests := fun s ag l =>
  ⟨fun w hc => execCacheFill_leaves hc w, execRead_waits, execRead_owner, execReadForOwnership_owns, execUpgrade_owns,
    ⟨_, rfl, CacheOnly.writebackLine .., s.privSt_writebackLine ag l.toNat _⟩,
    ⟨_, rfl, CacheOnly.invalidateAt .., (s.privSt_invalidateAt ag l.toNat true ag).trans (if_pos rfl)⟩,
    fun _ hd => ⟨execForwardedRead_modified hd, execForwardedRead_exclusive hd⟩⟩

end Sys2Proof.Proofs

/-! ## Notices, the device log and the mailboxes (10/R280, 17/R499, 19/R553) -/

namespace Sys2Proof.Machine

/-- `t` is `s` but for what a report of the device can change: the creels, the event sources, the device log, the reserve report
and the Stake. No memory, no cache and no bridge differs. -/
def ReportsOnly (s t : State) : Prop :=
  t = { s with creels := t.creels, sources := t.sources, log := t.log, reserve := t.reserve, stake := t.stake }

theorem ReportsOnly.refl (s : State) : ReportsOnly s s := rfl
theorem ReportsOnly.trans {s t u : State} (h : ReportsOnly s t) (k : ReportsOnly t u) : ReportsOnly s u := by
  unfold ReportsOnly at h k ⊢
  rw [h] at k
  exact k
theorem ReportsOnly.foldl {α : Type} {f : State → α → State} (hf : ∀ s a, ReportsOnly s (f s a)) (l : List α) (s : State) :
    ReportsOnly s (l.foldl f s) := by
  induction l generalizing s with
  | nil => exact ReportsOnly.refl s
  | cons a r ih => exact (hf s a).trans (ih _)
theorem ReportsOnly.mem {s t : State} (h : ReportsOnly s t) : t.mem = s.mem := by rw [h]
theorem ReportsOnly.bridges {s t : State} (h : ReportsOnly s t) : t.bridges = s.bridges := by rw [h]
theorem ReportsOnly.slice {s t : State} (h : ReportsOnly s t) (i : Nat) : t.slice i = s.slice i := by
  rw [h]
  rfl

theorem ReportsOnly.modCreel (s : State) (n : Nat) (f : Creel → Creel) : ReportsOnly s (s.modCreel n f) := rfl
theorem ReportsOnly.notice (s : State) (c bit k : Nat) : ReportsOnly s (s.notice c bit k) := by
  simp only [State.notice, State.raiseFixed, State.raiseHeld]
  repeat' split
  all_goals rfl
theorem ReportsOnly.exhausted (s : State) (p : Nat → Bool) : ReportsOnly s (s.exhausted p) :=
  ReportsOnly.foldl (fun s c => ReportsOnly.notice s c 6 5) _ s
theorem ReportsOnly.retiredRec (s : State) (kind old new : Nat) (uses : Nat → Bool) :
    ReportsOnly s (s.retiredRec kind old new uses) :=
  ReportsOnly.trans (t := { s with reserve := _, log := _ }) rfl (ReportsOnly.foldl (fun s c => ReportsOnly.notice s c 5 5) _ _)
theorem ReportsOnly.complete (s : State) (c : Cmd) (status : Nat) (result : W64) (reply : List W64) :
    ReportsOnly s (s.complete c status result reply) := by
  simp only [State.complete, State.countFail]
  repeat' split
  all_goals rfl
theorem ReportsOnly.finishRun (s : State) (sel : RunCmd → Bool) (status : Nat) (result : W64) :
    ReportsOnly s (s.finishRun sel status result) :=
  ReportsOnly.trans (t := s.modStake _) rfl (ReportsOnly.foldl (fun s (r : RunCmd) => ReportsOnly.complete s r.cmd status result []) _ _)
/-- The end of a cleaning completes commands and lets a WAY_SET that waited take effect (07/R211, 09/R264). -/
theorem ReportsOnly.cleaningDone (s : State) : ReportsOnly s s.cleaningDone := by
  simp only [State.cleaningDone]
  split
  · exact ReportsOnly.finishRun ..
  · refine ReportsOnly.trans ?_ (ReportsOnly.finishRun ..)
    refine ReportsOnly.trans ?_ (ReportsOnly.foldl (fun _ _ => ReportsOnly.modCreel ..) _ _)
    exact ReportsOnly.finishRun ..

end Sys2Proof.Machine

/-! ## The ways of a slice (07/R210, R211) -/

namespace Sys2Proof

/-- A map whose values are all changed in one way reads as the changed value. -/
theorem FMap.get_map_snd {α β : Type} (f : α → β) (d : α) (m : FMap α) (k : Nat) :
    FMap.get (f d) (m.map fun p => (p.1, f p.2)) k = f (FMap.get d m k) := by
  induction m with
  | nil => rfl
  | cons p r ih =>
    simp only [List.map_cons, FMap.get, ih]
    split <;> rfl

end Sys2Proof

namespace Sys2Proof.Machine

theorem wayBit_eq_testBit (m w : Nat) : wayBit m w = m.testBit w := by
  rw [wayBit, Nat.testBit_eq_decide_div_mod_eq]
  rfl
/-- The lines that stay when ways are emptied are those of the other ways. -/
theorem Slice.mem_emptyWays {x : Slice} {mask k : Nat} {c : SLine} :
    c ∈ (x.emptyWays mask).sets.get [] k ↔ c ∈ x.sets.get [] k ∧ mask.testBit c.way = false := by
  have h := FMap.get_map_snd (fun l : List SLine => l.filter fun c => !wayBit mask c.way) [] x.sets k
  rw [List.filter_nil] at h
  rw [Slice.emptyWays, h, List.mem_filter, wayBit_eq_testBit, Bool.not_eq_true']

section
variable {s : State} {i w : Nat}

theorem State.retireWay_mem (s : State) (i w : Nat) : (s.retireWay i w).mem = s.mem := by
  simp only [State.retireWay]
  split
  · exact (ReportsOnly.retiredRec ..).mem
  · exact (ReportsOnly.exhausted ..).mem
/-- With a reserve way left, the way is mapped onto it (07/R210). -/
theorem State.retireWay_reserve (h : (s.slice i).reserveUsed < 2) :
    (s.retireWay i w).slice i = { (s.slice i).emptyWays (2 ^ w) with
      reserveUsed := (s.slice i).reserveUsed + 1, wayMap := (s.slice i).wayMap.set w (16 + (s.slice i).reserveUsed) } := by
  have h' : ((s.slice i).emptyWays (2 ^ w)).reserveUsed < 2 := h
  simp only [State.retireWay, h', if_true]
  rw [(ReportsOnly.retiredRec ..).slice, State.slice_setSlice_self]
  rfl
/-- With none left, the way stays retired (07/R210). -/
theorem State.retireWay_exhausted (h : 2 ≤ (s.slice i).reserveUsed) :
    (s.retireWay i w).slice i = { (s.slice i).emptyWays (2 ^ w) with
      retired := if wayBit (s.slice i).retired w then (s.slice i).retired else (s.slice i).retired + 2 ^ w } := by
  have h' : ¬ ((s.slice i).emptyWays (2 ^ w)).reserveUsed < 2 := Nat.not_lt.2 h
  simp only [State.retireWay, h', if_false]
  rw [(ReportsOnly.exhausted ..).slice, State.slice_setSlice_self]
  rfl
/-- A retired way holds no line. -/
theorem State.retireWay_sets (s : State) (i w : Nat) :
    ((s.retireWay i w).slice i).sets = ((s.slice i).emptyWays (2 ^ w)).sets := by
  rcases Nat.lt_or_ge (s.slice i).reserveUsed 2 with h | h
  · rw [State.retireWay_reserve h]
  · rw [State.retireWay_exhausted h]
theorem State.retireWay_way_ne {k : Nat} {c : SLine} (hc : c ∈ ((s.retireWay i w).slice i).sets.get [] k) : c.way ≠ w := by
  rw [State.retireWay_sets, Slice.mem_emptyWays] at hc
  rintro rfl
  simp at hc
theorem testBit_add_two_pow_self (m w : Nat) : (if wayBit m w then m else m + 2 ^ w).testBit w = true := by
  rw [wayBit_eq_testBit]
  split
  next h => exact h
  next h => simpa [Nat.add_comm m, Nat.testBit_two_pow_add_eq] using h

end

/-! ## Wire groups (07/R227) -/

/-- A failed wire group is counted at its own bridge, whichever of the two reports follows. -/
theorem State.retireGroup_reports (s : State) (k : Nat) :
    ReportsOnly { s with bridges := s.bridges.set k (s.bridges.get 0 k + 1) } (s.retireGroup k) := by
  simp only [State.retireGroup]
  split
  · exact ReportsOnly.exhausted ..
  · exact ReportsOnly.retiredRec ..

end Sys2Proof.Machine

namespace Sys2Proof.Claims
open Sys2Proof Sys2Proof.Machine

/-- A writeback that was issued leaves the victim buffer on its acknowledgement; the others stay (07/R220). -/
theorem victimWritebackAckLeaves (s : State) (i : SliceId) (l : LineNo) :
    ∃ t, execVictimWritebackAck i l s = .next t ∧ CacheOnly s t ∧
      ((∀ q ∈ (s.slice (homeOf l.toNat)).waitq, q.line ≠ l.toNat) →
        ∀ v, v ∈ (t.slice i).victims ↔ v ∈ (s.slice i).victims ∧ ¬ (v.line = l.toNat ∧ v.issued = true)) := by
  refine ⟨_, rfl, ?caches, fun hw v => ?victims⟩
  case caches =>
    split
    · exact CacheOnly.setSlice ..
    · exact (CacheOnly.setSlice ..).trans (CacheOnly.serveWaiting ..)
  case victims =>
    rw [State.serveWaiting_of_no_waiter, ite_self, State.slice_setSlice_self]
    · simp only [List.mem_filter, Bool.not_eq_true', ← Bool.not_eq_true, Bool.and_eq_true, beq_iff_eq]
    · rw [State.slice_setSlice]
      split
      next h => rw [h] at hw; exact hw
      next => exact hw
theorem wayRetirementMapsOrRetires (s : State) (i : SliceId) (w : Fin 16) :
    ∃ t, execWayRetirement i w s = .next t ∧ t.mem = s.mem ∧ (∀ k c, c ∈ (t.slice i).sets.get [] k → c.way ≠ w.val) ∧
      ((s.slice i).reserveUsed < 2 → (t.slice i).reserveUsed = (s.slice i).reserveUsed + 1 ∧
        (t.slice i).retired = (s.slice i).retired ∧ (t.slice i).wayMap.get 0 w = 16 + (s.slice i).reserveUsed) ∧
      (2 ≤ (s.slice i).reserveUsed → (t.slice i).reserveUsed = (s.slice i).reserveUsed ∧ (t.slice i).retired.testBit w = true) := by
  refine ⟨_, rfl, s.retireWay_mem i w, fun _ _ => State.retireWay_way_ne, fun h => ?reserve, fun h => ?exhausted⟩
  case reserve =>
    rw [State.retireWay_reserve h]
    exact ⟨rfl, rfl, FMap.get_set_self ..⟩
  case exhausted =>
    rw [State.retireWay_exhausted h]
    exact ⟨rfl, testBit_add_two_pow_self ..⟩
theorem wayCleaningCompletionEmptiesWays (s : State) (i : SliceId) :
    ∃ t, execWayCleaningCompletion i s = .next t ∧ t.mem = s.mem ∧
      (t.slice i).cleaning = 0 ∧ (t.slice i).powerCleaning = 0 ∧ (t.slice i).off = (s.slice i).off ||| (s.slice i).powerCleaning ∧
      ∀ k c, c ∈ (t.slice i).sets.get [] k → ((s.slice i).cleaning ||| (s.slice i).powerCleaning).testBit c.way = false := by
  refine ⟨_, rfl, (ReportsOnly.cleaningDone _).mem, ?_⟩
  rw [(ReportsOnly.cleaningDone _).slice, State.slice_setSlice_self]
  exact ⟨rfl, rfl, rfl, fun _ _ hc => (Slice.mem_emptyWays.1 hc).2⟩
theorem wireGroupFailureCounts (s : State) (b : Fin 4) (k : Fin 8) :
    ∃ t, execWireGroupFailure b k s = .next t ∧ t.mem = s.mem ∧
      t.bridges.get 0 (8 * b.val + k.val) = s.bridges.get 0 (8 * b.val + k.val) + 1 ∧
      ∀ j, j ≠ 8 * b.val + k.val → t.bridges.get 0 j = s.bridges.get 0 j := by
  have h := s.retireGroup_reports (8 * b.val + k.val)
  refine ⟨_, rfl, h.mem, ?_⟩
  rw [h.bridges]
  exact ⟨FMap.get_set_self .., fun j hj => FMap.get_set_ne _ _ _ hj⟩

end Sys2Proof.Claims

namespace Sys2Proof.Proofs

/-- Settles O28: what follows a change of a slice or of a bridge only serves waiting requests or reports the change. -/
theorem sliceAndWireEvents : Obligations.SliceAndWireEvents :=
  ⟨Claims.victimWritebackAckLeaves, Claims.wayRetirementMapsOrRetires, Claims.wayCleaningCompletionEmptiesWays,
    Claims.wireGroupFailureCounts⟩

end Sys2Proof.Proofs

/-! ## What a channel's accesses and reports can change (08/R246 to R248, 17/R507) -/

namespace Sys2Proof

/-- A map whose values are changed by their keys reads as the value changed, where the default stays. -/
theorem FMap.get_map_at {α : Type} (f : Nat → α → α) {d : α} (hd : ∀ k, f k d = d) (m : FMap α) (k : Nat) :
    FMap.get d (m.map fun p => (p.1, f p.1 p.2)) k = f k (FMap.get d m k) := by
  induction m with
  | nil => exact (hd k).symm
  | cons p r ih =>
    simp only [List.map_cons, FMap.get, ih]
    split
    next h => rw [h]
    next => rfl
theorem FMap.has_erase_self {α : Type} (m : FMap α) (k : Nat) : FMap.has (m.erase k) k = false := by
  induction m with
  | nil => rfl
  | cons p r ih =>
    simp only [FMap.erase]
    split
    next => exact ih
    next h => rw [FMap.has, if_neg h, ih]

end Sys2Proof

namespace Sys2Proof.Machine

@[simp] theorem State.chan_setChan_self (s : State) (i : Nat) (c : Chan) : (s.setChan i c).chan i = c :=
  FMap.get_set_self chanReset s.chans i c
@[simp] theorem State.chan_modChan_self (s : State) (i : Nat) (f : Chan → Chan) : (s.modChan i f).chan i = f (s.chan i) :=
  FMap.get_set_self chanReset s.chans i _
theorem State.chan_setChan (s : State) (i j : Nat) (c : Chan) : (s.setChan i c).chan j = if j = i then c else s.chan j :=
  FMap.get_set chanReset s.chans i j c
@[simp] theorem Chan.bank_setBank_self (c : Chan) (b : Nat) (x : Bank) : (c.setBank b x).bank b = x :=
  FMap.get_set_self bankReset c.banks b x
theorem Chan.bank_setBank_ne (c : Chan) {b k : Nat} (x : Bank) (h : k ≠ b) : (c.setBank b x).bank k = c.bank k :=
  FMap.get_set_ne bankReset c.banks x h
theorem ReportsOnly.chans {s t : State} (h : ReportsOnly s t) : t.chans = s.chans := by rw [h]
theorem ReportsOnly.chan {s t : State} (h : ReportsOnly s t) (i : Nat) : t.chan i = s.chan i := by
  rw [State.chan, h.chans, State.chan]
@[simp] theorem contains_setInsert_self (l : List Nat) (x : Nat) : (setInsert l x).contains x = true := by
  unfold setInsert
  split
  next h => exact h
  next => simp

/-- Raising a creel's event changes the event sources alone (17/R499). -/
theorem State.raiseFixed_eq (s : State) (k cr : Nat) : s.raiseFixed k cr = { s with sources := (s.raiseFixed k cr).sources } := by
  simp only [State.raiseFixed, State.raiseHeld]
  split <;> rfl
@[simp] theorem State.raiseFixed_log (s : State) (k cr : Nat) : (s.raiseFixed k cr).log = s.log := by rw [State.raiseFixed_eq]
@[simp] theorem State.chan_raiseFixed (s : State) (k cr i : Nat) : (s.raiseFixed k cr).chan i = s.chan i := by
  rw [State.raiseFixed_eq]
  rfl
@[simp] theorem State.creel_raiseFixed (s : State) (k cr c : Nat) : (s.raiseFixed k cr).creel c = s.creel c := by
  rw [State.raiseFixed_eq]
  rfl

/-- `t` is `s` but for what errors, notes and notices of a channel change: the creels, the event sources, the device log, the
error banks, the audit chain's head, the pairing bits and the free values drawn. -/
def NotesOnly (s t : State) : Prop :=
  t = { s with creels := t.creels, sources := t.sources, log := t.log, banks := t.banks, bbkm := t.bbkm, pair := t.pair, free := t.free }

theorem NotesOnly.refl (s : State) : NotesOnly s s := rfl
theorem NotesOnly.trans {s t u : State} (h : NotesOnly s t) (k : NotesOnly t u) : NotesOnly s u := by
  unfold NotesOnly at h k ⊢
  rw [h] at k
  exact k
theorem NotesOnly.foldl {α : Type} {f : State → α → State} (hf : ∀ s a, NotesOnly s (f s a)) (l : List α) (s : State) :
    NotesOnly s (l.foldl f s) := by
  induction l generalizing s with
  | nil => exact NotesOnly.refl s
  | cons a r ih => exact (hf s a).trans (ih _)
theorem NotesOnly.mem {s t : State} (h : NotesOnly s t) : t.mem = s.mem := by rw [h]
theorem NotesOnly.stake {s t : State} (h : NotesOnly s t) : t.stake = s.stake := by rw [h]
theorem NotesOnly.chan {s t : State} (h : NotesOnly s t) (i : Nat) : t.chan i = s.chan i := by
  rw [h]
  rfl
theorem NotesOnly.raiseFixed (s : State) (k cr : Nat) : NotesOnly s (s.raiseFixed k cr) := by
  rw [s.raiseFixed_eq k cr]
  rfl
theorem NotesOnly.note (s : State) (unit inst detail : Nat) : NotesOnly s (s.note unit inst detail) := rfl
theorem NotesOnly.notice (s : State) (c bit k : Nat) : NotesOnly s (s.notice c bit k) := by
  simp only [State.notice]
  split
  · exact NotesOnly.refl s
  · exact NotesOnly.trans (t := s.modCreel c _) rfl (NotesOnly.raiseFixed ..)
/-- An error of a creel is a record in the log and a change of the creel's error page, and may raise the creel's event (17/R507). -/
theorem State.creelError_cases (s : State) (cr cls unit code addr inst detail : Nat) : ∃ p r t,
    t = { s.modCreel cr fun c => { c with eb := p } with log := s.log ++ [r] } ∧
      (s.creelError cr cls unit code addr inst detail = t.raiseFixed 0 cr ∨ s.creelError cr cls unit code addr inst detail = t) := by
  unfold State.creelError
  extract_lets
  split
  · exact ⟨_, _, _, rfl, .inl rfl⟩
  · exact ⟨_, _, _, rfl, .inr rfl⟩
theorem State.creelError_log_length (s : State) (cr cls unit code addr inst detail : Nat) :
    (s.creelError cr cls unit code addr inst detail).log.length = s.log.length + 1 := by
  obtain ⟨p, r, t, rfl, h | h⟩ := s.creelError_cases cr cls unit code addr inst detail
  · rw [h, State.raiseFixed_log, List.length_append, List.length_singleton]
  · rw [h, List.length_append, List.length_singleton]
theorem NotesOnly.creelError (s : State) (cr cls unit code addr inst detail : Nat) :
    NotesOnly s (s.creelError cr cls unit code addr inst detail) := by
  obtain ⟨p, r, t, ht, h | h⟩ := s.creelError_cases cr cls unit code addr inst detail
  · rw [h]
    exact NotesOnly.trans (ht ▸ rfl) (NotesOnly.raiseFixed ..)
  · rw [h, ht]
    rfl
theorem NotesOnly.creelCorrected (s : State) (cr : Nat) : NotesOnly s (s.creelCorrected cr) := by
  simp only [State.creelCorrected]
  split
  · exact NotesOnly.trans (t := s.modCreel cr _) rfl (NotesOnly.raiseFixed ..)
  · rfl
theorem NotesOnly.deferredTo (s : State) (cr : Option Nat) (unit code pa inst detail : Nat) :
    NotesOnly s (s.deferredTo cr unit code pa inst detail) := by
  cases cr with
  | none => rfl
  | some c => exact NotesOnly.trans (t := s.modBank unit inst _) rfl (NotesOnly.creelError ..)
theorem NotesOnly.pairBit (s : State) (cr bit : Nat) : NotesOnly s (s.pairBit cr bit) := by
  simp only [State.pairBit]
  split
  · exact NotesOnly.refl s
  · exact NotesOnly.trans (t := s.modPair _) rfl (NotesOnly.raiseFixed ..)
theorem NotesOnly.auditEvent (s : State) : NotesOnly s s.auditEvent := by
  simp only [State.auditEvent, State.audit64, State.auditAppend, State.checkpoint, Nat.lt_irrefl, if_false]
  split <;> rfl
/-- A recommendation of failover is a note, and of a paired device an audit record and the bits of its creels (15/R463). -/
theorem NotesOnly.recommend (s : State) : NotesOnly s s.recommend := by
  simp only [State.recommend]
  split
  · rfl
  · refine (NotesOnly.trans (t := (s.note 0xA 0 0x463).modPair _) rfl (NotesOnly.auditEvent _)).trans (NotesOnly.foldl (fun s cr => ?_) _ _)
    split
    · exact NotesOnly.pairBit ..
    · exact NotesOnly.refl s

/-- `t` is `s` but for what an access at a channel changes besides data: banks and port statistics of channels, the counts of traffic and
breaches of creels, and event sources. -/
def AccessOnly (s t : State) : Prop :=
  t = { s with chans := t.chans, creels := t.creels, sources := t.sources, hubTraffic := t.hubTraffic } ∧
  ∀ i, t.chan i = { s.chan i with banks := (t.chan i).banks, stat := (t.chan i).stat }

section
variable {s t u : State}

theorem AccessOnly.refl (s : State) : AccessOnly s s := ⟨rfl, fun _ => rfl⟩
theorem AccessOnly.trans (h : AccessOnly s t) (k : AccessOnly t u) : AccessOnly s u := by
  obtain ⟨h, hc⟩ := h
  obtain ⟨k, kc⟩ := k
  refine ⟨?_, fun i => ?_⟩
  · rw [h] at k
    exact k
  · rw [kc i, hc i]
theorem AccessOnly.mem (h : AccessOnly s t) : t.mem = s.mem := by rw [h.1]
theorem AccessOnly.installed (h : AccessOnly s t) : t.installed = s.installed := by rw [h.1]
theorem AccessOnly.log (h : AccessOnly s t) : t.log = s.log := by rw [h.1]
theorem AccessOnly.poisoned (h : AccessOnly s t) (l : Nat) : t.poisoned l = s.poisoned l := by rw [State.poisoned, h.mem, State.poisoned]
theorem AccessOnly.fencedLine (h : AccessOnly s t) (l : Nat) : t.fencedLine l = s.fencedLine l := by
  simp only [State.fencedLine, Chan.rankOf]
  rw [h.2 (channelOf l)]
/-- The part of a channel that an access leaves as it is reads as before. -/
theorem AccessOnly.part {α : Type} (h : AccessOnly s t) (i : Nat) (f : Chan → α)
    (hf : ∀ c b q, f { c with banks := b, stat := q } = f c) : f (t.chan i) = f (s.chan i) := by
  rw [h.2 i, hf]

theorem AccessOnly.setChan (s : State) (i : Nat) (b : FMap Bank) (q : FMap QosStat) :
    AccessOnly s (s.setChan i { s.chan i with banks := b, stat := q }) := by
  refine ⟨rfl, fun j => ?_⟩
  rw [State.chan_setChan]
  split
  next h => rw [h]
  next => rfl
theorem AccessOnly.bankTouch (s : State) (ch port line bank : Nat) (same : Bool) : AccessOnly s (s.bankTouch ch port line bank same) :=
  AccessOnly.setChan ..
theorem AccessOnly.bankAccess (s : State) (ch port line : Nat) (same : Bool) : AccessOnly s (s.bankAccess ch port line same) :=
  AccessOnly.bankTouch ..
theorem AccessOnly.served (s : State) (port : Nat) (read : Bool) (lat : Nat) : AccessOnly s (s.served port read lat) := by
  simp only [State.served]
  repeat' split
  all_goals exact ⟨rfl, fun _ => rfl⟩
/-- A breach is marked in the creel's register, and its event may be raised (09/R272). -/
theorem State.breach_cases (s : State) (cr kind : Nat) : ∃ w t,
    t = s.modCreel cr (fun c => { c with breach := setFld w kind kind 1 }) ∧
      (s.breach cr kind = t ∨ s.breach cr kind = t.raiseFixed 1 cr) := by
  unfold State.breach
  extract_lets
  split
  · exact ⟨_, _, rfl, .inl rfl⟩
  · exact ⟨_, _, rfl, .inr rfl⟩
theorem AccessOnly.breach (s : State) (cr kind : Nat) : AccessOnly s (s.breach cr kind) := by
  obtain ⟨w, t, ht, h | h⟩ := s.breach_cases cr kind
  · rw [h, ht]
    exact ⟨rfl, fun _ => rfl⟩
  · rw [h, State.raiseFixed_eq, ht]
    exact ⟨rfl, fun _ => rfl⟩
theorem AccessOnly.maintenanceRead (s : State) (ch line : Nat) (same : Bool) : AccessOnly s (s.maintenanceRead ch line same) :=
  (AccessOnly.bankAccess ..).trans (AccessOnly.served ..)

end

end Sys2Proof.Machine

/-! ## Reads and writes at a channel (08/R232 to R234, R246 to R248, R251) -/

namespace Sys2Proof.Machine

theorem portOwner_creel {p : Nat} (h : p < 64) : portOwner p = .creel p := if_pos h
theorem State.region_dram {s : State} {pa : Nat} (h : s.region pa = .dram) : pa < s.installed := by
  refine Decidable.byContradiction fun hlt => ?_
  simp only [State.region, if_neg hlt] at h
  repeat' split at h
  all_goals exact nomatch h

section
variable (s : State)

/-! The counters of a creel's port. -/

theorem State.uc_breach (cr kind c : Nat) : ((s.breach cr kind).creel c).uc = (s.creel c).uc := by
  have huc (f : Creel → W64) : ((s.modCreel cr fun x => { x with breach := f x }).creel c).uc = (s.creel c).uc := by
    rw [State.creel_modCreel]
    split <;> rfl
  obtain ⟨w, t, ht, h | h⟩ := s.breach_cases cr kind
  · rw [h, ht, huc]
  · rw [h, State.creel_raiseFixed, ht, huc]
/-- A read of a creel's port counts it, and its latency, in the creel's uncore page (20/R566). -/
theorem State.uc_served_read {c : Nat} (h : c < 64) (lat : Nat) :
    ((s.served c true lat).creel c).uc.get 0 8 = (s.creel c).uc.get 0 8 + 1 := by
  simp only [State.served, portOwner_creel h, if_true, State.ucAdd, State.creel_modCreel_self]
  rw [FMap.get_set_ne _ _ _ (by decide), FMap.get_set_self]
  rfl
theorem State.uc_served_write {c : Nat} (h : c < 64) (lat : Nat) :
    ((s.served c false lat).creel c).uc.get 0 0x10 = (s.creel c).uc.get 0 0x10 + 1 := by
  simp only [State.served, portOwner_creel h, Bool.false_eq_true, if_false, State.ucAdd, State.creel_modCreel_self]
  rw [FMap.get_set_self]
  rfl

/-! What a completed read leaves (08/R247, R248). -/

/-- A port's statistics in a channel after a read of a latency. -/
def State.readStat (s : State) (ch port lat : Nat) : QosStat :=
  let q := (s.chan ch).qstat port
  { q with est := estNext q.est lat,
           misses := if targetOf (s.qos port) ≠ 0xFFFF ∧ targetOf (s.qos port) < lat then sat16 (q.misses + 1) else q.misses }
/-- The access to the bank leaves the port's statistics as they are. -/
theorem State.readStat_bankAccess (ch port line lat : Nat) (same : Bool) :
    (s.bankAccess ch port line same).readStat ch port lat = s.readStat ch port lat := by
  simp only [State.readStat, State.bankAccess, State.bankTouch, State.chan_modChan_self]
  rfl
/-- A completed read writes its port's statistics and is served; a late one may be a breach besides. -/
theorem State.readDone_cases (ch port lat : Nat) (y : Bool) : ∃ t,
    t = (s.setChan ch { s.chan ch with stat := (s.chan ch).stat.set port (s.readStat ch port lat) }).served port true lat ∧
      (s.readDone ch port lat y = t ∨ ∃ n, s.readDone ch port lat y = t.breach n 1) := by
  refine ⟨_, rfl, ?_⟩
  simp only [State.readDone]
  split
  · split
    · exact .inr ⟨_, rfl⟩
    · exact .inl rfl
  · exact .inl rfl
theorem AccessOnly.readDone (ch port lat : Nat) (y : Bool) : AccessOnly s (s.readDone ch port lat y) := by
  obtain ⟨t, ht, h⟩ := s.readDone_cases ch port lat y
  have hst : AccessOnly s t := ht ▸ (AccessOnly.setChan s ch ..).trans (AccessOnly.served ..)
  obtain h | ⟨n, h⟩ := h
  · exact h ▸ hst
  · exact h ▸ hst.trans (AccessOnly.breach ..)
theorem State.chan_served (port : Nat) (read : Bool) (lat i : Nat) : (s.served port read lat).chan i = s.chan i := by
  simp only [State.served]
  repeat' split
  all_goals rfl
theorem State.chan_breach (cr kind i : Nat) : (s.breach cr kind).chan i = s.chan i := by
  obtain ⟨w, t, ht, h | h⟩ := s.breach_cases cr kind
  · rw [h, ht]
    rfl
  · rw [h, State.chan_raiseFixed, ht]
    rfl
theorem State.qstat_readDone (ch port lat : Nat) (y : Bool) :
    ((s.readDone ch port lat y).chan ch).qstat port = s.readStat ch port lat := by
  obtain ⟨t, ht, h⟩ := s.readDone_cases ch port lat y
  have hq : (t.chan ch).qstat port = s.readStat ch port lat := by
    rw [ht, State.chan_served, State.chan_setChan_self, Chan.qstat, FMap.get_set_self]
  obtain h | ⟨n, h⟩ := h
  · rw [h, hq]
  · rw [h, State.chan_breach, hq]
theorem State.uc_readDone {c : Nat} (hc : c < 64) (ch lat : Nat) (y : Bool) :
    ((s.readDone ch c lat y).creel c).uc.get 0 8 = (s.creel c).uc.get 0 8 + 1 := by
  obtain ⟨t, ht, h⟩ := s.readDone_cases ch c lat y
  have huc : (t.creel c).uc.get 0 8 = (s.creel c).uc.get 0 8 + 1 := by
    rw [ht, State.uc_served_read _ hc]
    rfl
  obtain h | ⟨n, h⟩ := h
  · rw [h, huc]
  · rw [h, State.uc_breach, huc]

end

/-! How a read comes out (08/R232, R233). -/

section
variable {s : State} {l : Nat}

@[simp] theorem State.chanOutcome_clean (s : State) (ch l : Nat) : s.chanOutcome ch l .clean = s := by
  simp [State.chanOutcome]
theorem State.chanOutcome_one_device (h : s.poisoned l = false) (ch : Nat) (d : Fin 10) :
    s.chanOutcome ch l (.errors d []) = s.chanFixed ch l d := by
  simp [State.chanOutcome, h]
theorem State.chanOutcome_wrongAddress (h : s.poisoned l = false) (ch : Nat) :
    s.chanOutcome ch l .wrongAddress = s.chanUncorrectable ch l := by
  simp [State.chanOutcome, h]
theorem State.chanOutcome_two_devices (h : s.poisoned l = false) (ch : Nat) {d e : Fin 10} (hde : d ≠ e) :
    s.chanOutcome ch l (.errors d [e]) = s.chanUncorrectable ch l := by
  have he : (([e].filter (· ≠ d)).eraseDups) = [e] := by simp [Ne.symm hde, List.eraseDups_cons]
  simp only [State.chanOutcome, h, Bool.false_eq_true, if_false, he]

/-- A report to the creel that holds the line changes no channel and no memory (17/R507). -/
theorem State.chanFixed_notes (s : State) (ch l dev : Nat) : NotesOnly (s.chanCorrected ch l dev) (s.chanFixed ch l dev) := by
  simp only [State.chanFixed]
  split
  · exact NotesOnly.creelCorrected ..
  · exact NotesOnly.refl _
theorem Chan.startCopy_corrected (c : Chan) (rank : Nat) : (c.startCopy rank).corrected = c.corrected := by
  unfold Chan.startCopy
  split <;> rfl
/-- A corrected error is counted by its channel and changes no memory (08/R233). -/
theorem State.chanFixed_counts (s : State) (ch l dev : Nat) :
    (s.chanFixed ch l dev).mem = s.mem ∧ ((s.chanFixed ch l dev).chan ch).corrected = (s.chan ch).corrected + 1 := by
  have h := s.chanFixed_notes ch l dev
  refine ⟨h.mem, ?_⟩
  rw [h.chan, State.chanCorrected]
  simp only [State.chan_modChan_self]
  split
  · rw [Chan.startCopy_corrected]
  · rfl
/-- A line is marked poisoned, and no byte of memory changes. -/
theorem State.markPoison_marks (s : State) (l : Nat) :
    (s.markPoison l).poisoned l = true ∧ ∀ a, (s.markPoison l).mem.read a = s.mem.read a :=
  ⟨contains_setInsert_self .., fun _ => rfl⟩
/-- An uncorrectable line that has an address is marked poisoned; no byte of memory changes (08/R233, R234). -/
theorem State.chanUncorrectable_poisons (h : 64 * l < s.installed) (ch : Nat) :
    (s.chanUncorrectable ch l).poisoned l = true ∧ ∀ a, (s.chanUncorrectable ch l).mem.read a = s.mem.read a := by
  have hm : (s.chanUncorrectable ch l).mem = (s.markPoison l).mem := by
    have hi : 64 * l < (s.modChan ch fun c => { c with repair := setInsert c.repair (s.rowAt ch l) }).installed := h
    rw [State.chanUncorrectable, if_pos hi]
    exact (NotesOnly.deferredTo ..).mem
  rw [State.poisoned, hm]
  exact s.markPoison_marks l

end

section
variable {s : State} {ch : ChanId} {l : LineNo}

/-- A read or a write that the channel serves: its line lies in memory of the channel, which is in service (08/R249). -/
def State.serves (s : State) (ch : ChanId) (l : LineNo) : Prop :=
  s.servesLine ch l.toNat = true ∧ channelOf l.toNat = ch.val ∧ s.region (64 * l.toNat) = .dram
theorem State.serves_iff (s : State) (ch : ChanId) (l : LineNo) :
    s.serves ch l ↔ ¬ (!s.servesLine ch l.toNat ∨ channelOf l.toNat ≠ ch.val ∨ s.region (64 * l.toNat) ≠ .dram) := by
  simp [State.serves]

/-- A line outside fenced ranks is read with its outcome, after the access (08/R233). -/
theorem execChannelRead_serves (h : s.serves ch l) (hf : s.fencedLine l.toNat = false) (port : QosPort) (out : ReadOutcome)
    (lat : Nat) (y z : Bool) :
    execChannelRead ch l port out lat y z s =
      .next (((s.bankAccess ch port l.toNat z).readDone ch port lat y).chanOutcome ch l.toNat out) := by
  have ha := (AccessOnly.bankAccess s ch port l.toNat z).trans (AccessOnly.readDone _ ch port lat y)
  simp only [execChannelRead, if_neg ((s.serves_iff ch l).1 h), ha.fencedLine, hf, Bool.false_eq_true, if_false]

end

/-! A write, and what a fence makes of it (08/R234, R238, R251). -/

/-- The accesses of a write: its bank, that of the reserve rank too where a copy has passed the line, and its port's count. -/
def State.writeAccess (s : State) (ch port l : Nat) (same : Bool) : State :=
  let u := s.bankAccess ch port l same
  (if u.copied ch l then u.bankTouch ch port l (64 * (u.chan ch).reserveRank + Config.bankOf l % 64) same else u).served port false 0
/-- The creel of a port, which is told of a write that was discarded (08/R251). -/
def portCreel (port : Nat) : Option Nat := match portOwner port with | .creel n => some n | _ => none
/-- The writebacks of a line are issued (07/R220). -/
def Slice.issue (x : Slice) (l : Nat) : Slice := { x with victims := x.victims.map fun v => if v.line = l then { v with issued := true } else v }
def State.issueVictims (s : State) (l : Nat) : State := s.setSlice (homeOf l) ((s.slice (homeOf l)).issue l)

section
variable (s : State) (ch port l : Nat) (same : Bool)

theorem AccessOnly.writeAccess : AccessOnly s (s.writeAccess ch port l same) := by
  refine AccessOnly.trans ?_ (AccessOnly.served ..)
  split
  · exact (AccessOnly.bankAccess ..).trans (AccessOnly.bankTouch ..)
  · exact AccessOnly.bankAccess ..
theorem State.uc_writeAccess {c : Nat} (hc : c < 64) :
    ((s.writeAccess ch c l same).creel c).uc.get 0 0x10 = (s.creel c).uc.get 0 0x10 + 1 := by
  simp only [State.writeAccess]
  rw [State.uc_served_write _ hc]
  split <;> rfl
theorem Slice.issued_of_mem_issue {x : Slice} {v : Victim} (hv : v ∈ (x.issue l).victims) (hl : v.line = l) : v.issued = true := by
  obtain ⟨w, -, rfl⟩ := List.mem_map.1 hv
  split at hl
  next h => rw [if_pos h]
  next h => exact absurd hl h
/-- A discarded write is counted by its channel and recorded once, and memory stays (08/R251). -/
theorem State.fencedWrite_counts (cr : Option Nat) : (s.fencedWrite cr l).mem = s.mem ∧
    ((s.fencedWrite cr l).chan (channelOf l)).discarded = (s.chan (channelOf l)).discarded + 1 ∧
    (s.fencedWrite cr l).log.length = s.log.length + 1 := by
  cases cr with
  | none => exact ⟨rfl, congrArg Chan.discarded (State.chan_setChan_self ..), by simp [State.fencedWrite, State.logRec]⟩
  | some c =>
    simp only [State.fencedWrite]
    refine ⟨(NotesOnly.creelError ..).mem, ?_, ?_⟩
    · rw [(NotesOnly.creelError ..).chan, State.chan_setChan_self]
    · rw [State.creelError_log_length]
      rfl

end

section
variable {s : State} {ch : ChanId} {l : LineNo}

/-- A write is accessed, served and its writeback issued; in a fenced rank it is discarded and its line marked (08/R234, R251). -/
theorem execChannelWrite_serves (h : s.serves ch l) (port : QosPort) (z : Bool) :
    execChannelWrite ch l port z s = .next (if s.fencedLine l.toNat then
        (((s.writeAccess ch port l.toNat z).issueVictims l.toNat).markPoison l.toNat).fencedWrite (portCreel port) l.toNat
      else (s.writeAccess ch port l.toNat z).issueVictims l.toNat) := by
  have hf : ((s.writeAccess ch port l.toNat z).issueVictims l.toNat).fencedLine l.toNat = s.fencedLine l.toNat :=
    (AccessOnly.writeAccess s ch port l.toNat z).fencedLine l.toNat
  have hw : execChannelWrite ch l port z s =
      if ((s.writeAccess ch port l.toNat z).issueVictims l.toNat).fencedLine l.toNat then _ else _ :=
    if_neg ((s.serves_iff ch l).1 h)
  rw [hw, hf]
  split
  · rfl
  · rfl

end
end Sys2Proof.Machine

namespace Sys2Proof.Claims
open Sys2Proof Sys2Proof.Machine

theorem channelReadsAndWrites : ChannelReadsAndWrites := by
  intro s ch l port lat y z hs hc hr hf
  have h : s.serves ch l := ⟨hs, hc, hr⟩
  have ha := (AccessOnly.bankAccess s ch port l.toNat z).trans (AccessOnly.readDone _ ch port lat y)
  refine ⟨fun hp => ?clean, fun d hp => ?corrected, fun out ho hp => ?uncorrectable, ?write⟩
  case clean =>
    refine ⟨_, execChannelRead_serves h hf port .clean lat y z, ?_⟩
    rw [State.chanOutcome_clean, State.qstat_readDone, State.readStat_bankAccess]
    refine ⟨ha.mem, rfl, ?_, ?_⟩
    · simp only [State.readStat, sat16, Nat.min_comm 0xFFFF]
    · rintro c rfl hc
      exact State.uc_readDone _ hc ch lat y
  case corrected =>
    refine ⟨_, execChannelRead_serves h hf port (.errors d []) lat y z, ?_⟩
    rw [← ha.poisoned] at hp
    rw [State.chanOutcome_one_device hp]
    obtain ⟨hm, hcor⟩ := State.chanFixed_counts ((s.bankAccess ch port l.toNat z).readDone ch port lat y) ch l.toNat d
    exact ⟨hm.trans ha.mem, by rw [hcor, ha.part ch Chan.corrected fun _ _ _ => rfl]⟩
  case uncorrectable =>
    refine ⟨_, execChannelRead_serves h hf port out lat y z, ?_⟩
    rw [← ha.poisoned] at hp
    have hi : 64 * l.toNat < ((s.bankAccess ch port l.toNat z).readDone ch port lat y).installed := by
      rw [ha.installed]
      exact State.region_dram hr
    have hout : ((s.bankAccess ch port l.toNat z).readDone ch port lat y).chanOutcome ch l.toNat out =
        ((s.bankAccess ch port l.toNat z).readDone ch port lat y).chanUncorrectable ch l.toNat := by
      obtain rfl | ⟨d, e, hde, rfl⟩ := ho
      · exact State.chanOutcome_wrongAddress hp ch
      · exact State.chanOutcome_two_devices hp ch hde
    rw [hout, ← ha.mem]
    exact State.chanUncorrectable_poisons hi ch
  case write =>
    refine ⟨_, execChannelWrite_serves h port z, ?_⟩
    rw [if_neg (by simp [hf])]
    refine ⟨(AccessOnly.writeAccess ..).mem, ?_, ?_⟩
    · rw [State.issueVictims, State.slice_setSlice_self]
      exact fun v hv => Slice.issued_of_mem_issue _ hv
    · rintro c rfl hc
      exact State.uc_writeAccess s ch l.toNat z hc

theorem fencedWritesAreDiscarded : FencedWritesAreDiscarded := by
  intro s ch l port z hs hc hr hf
  have ha := AccessOnly.writeAccess s ch port l.toNat z
  obtain ⟨hpoison, hbytes⟩ := ((s.writeAccess ch port l.toNat z).issueVictims l.toNat).markPoison_marks l.toNat
  obtain ⟨hmem, hdisc, hlog⟩ := State.fencedWrite_counts
    (((s.writeAccess ch port l.toNat z).issueVictims l.toNat).markPoison l.toNat) l.toNat (portCreel port)
  rw [hc] at hdisc
  refine ⟨_, execChannelWrite_serves ⟨hs, hc, hr⟩ port z, ?_⟩
  rw [if_pos hf]
  refine ⟨?counted, ?poisoned, fun a => ?bytes, ?recorded⟩
  case counted => exact hdisc.trans (congrArg (· + 1) (ha.part ch Chan.discarded fun _ _ _ => rfl))
  case poisoned =>
    rw [State.poisoned, hmem]
    exact hpoison
  case bytes =>
    rw [hmem, hbytes a]
    exact congrArg (·.read a) ha.mem
  case recorded => exact hlog.trans (congrArg (·.length + 1) ha.log)

end Sys2Proof.Claims

namespace Sys2Proof.Proofs

/-- Settles O29: an access changes banks and counters alone, and the outcome of a read or the fence of a write acts on what is left. -/
theorem channelAccesses : Obligations.ChannelAccesses := ⟨Claims.channelReadsAndWrites, Claims.fencedWritesAreDiscarded⟩

end Sys2Proof.Proofs

/-! ## Rows and banks (08/R240 to R245) -/

namespace Sys2Proof.Machine

/-- An activation of a tracked row counts it: once more in the window and since its mitigation (08/R241). -/
theorem trackTouch_tracked {t : List Track} {row : Nat} {e : Track} (h : t.find? (fun e => e.row = row) = some e) (port : Nat) :
    ∃ f, f.row = row ∧ f.count = e.count + 1 ∧ f.since = e.since + 1 ∧ (trackTouch t row port).2.1 = f ∧
      f ∈ (trackTouch t row port).1 := by
  have hr : e.row = row := by simpa using List.find?_some h
  simp only [trackTouch, h]
  exact ⟨{ e with count := e.count + 1, since := e.since + 1, ports := portTouch e.ports port }, hr, rfl, rfl, rfl,
    List.mem_map.2 ⟨e, List.mem_of_find?_eq_some h, if_pos hr⟩⟩

/-- A bank after an activation of a row: its tracker has counted; at the mitigation threshold refresh management closes the row and the
count since mitigation starts again (08/R241). -/
def Bank.activated (b : Bank) (row port mitigation now : Nat) : Bank :=
  let t := trackTouch b.track row port
  let mit := mitigation ≤ t.2.1.since
  { b with track := if mit then t.1.map fun d => if d.row = row then { d with since := 0 } else d else t.1,
           openRow := if mit then none else b.openRow, acts := b.acts.set port now }

section
variable {b : Bank} {row : Nat} {e : Track}

theorem Bank.activated_below (h : b.track.find? (fun e => e.row = row) = some e) {mitigation : Nat} (hm : e.since + 1 < mitigation)
    (port now : Nat) :
    ∃ f ∈ (b.activated row port mitigation now).track, f.row = row ∧ f.count = e.count + 1 ∧ f.since = e.since + 1 := by
  obtain ⟨f, hr, hc, hs, he, hf⟩ := trackTouch_tracked h port
  refine ⟨f, ?_, hr, hc, hs⟩
  rw [Bank.activated, he, hs, if_neg (Nat.not_le.2 hm)]
  exact hf
theorem Bank.activated_mitigated (h : b.track.find? (fun e => e.row = row) = some e) {mitigation : Nat}
    (hm : mitigation ≤ e.since + 1) (port now : Nat) :
    (b.activated row port mitigation now).openRow = none ∧
      ∃ f ∈ (b.activated row port mitigation now).track, f.row = row ∧ f.count = e.count + 1 ∧ f.since = 0 := by
  obtain ⟨f, hr, hc, hs, he, hf⟩ := trackTouch_tracked h port
  rw [Bank.activated, he, hs, if_pos hm, if_pos hm]
  exact ⟨rfl, { f with since := 0 }, List.mem_map.2 ⟨f, hf, if_pos hr⟩, hr, hc, rfl⟩

end

/-- A throttled port is noted to its creel, or in the device log (08/R242). -/
def State.noteThrottled (s : State) (ch port : Nat) : State :=
  match portOwner port with | .creel n => s.notice n 2 6 | _ => s.note 3 ch port
theorem NotesOnly.noteThrottled (s : State) (ch port : Nat) : NotesOnly s (s.noteThrottled ch port) := by
  unfold State.noteThrottled
  split
  · exact NotesOnly.notice ..
  · exact NotesOnly.note ..

@[simp] theorem State.chan_emit (s : State) (k : Nat) (ws : List Nat) (i : Nat) : (s.emit k ws).chan i = s.chan i := rfl

section
variable {s : State} {ch : ChanId} {bank row : Nat} {port : QosPort}

theorem execRowActivation_held (h : ((s.chan ch).bank bank).holds port s.clock = true) :
    execRowActivation ch bank row port s = .next s := if_pos h
/-- An activation changes its bank, whose throttled ports may grow, and memory stays (08/R241, R242). -/
theorem execRowActivation_counts (h : ((s.chan ch).bank bank).holds port s.clock = false) :
    ∃ t ps, execRowActivation ch bank row port s = .next t ∧ t.mem = s.mem ∧
      (t.chan ch).bank bank = { ((s.chan ch).bank bank).activated row port s.stake.mitigation s.clock with throttled := ps } := by
  unfold execRowActivation
  rw [if_neg (Bool.eq_false_iff.1 h)]
  simp only [Bank.activated]
  rcases trackTouch ((s.chan ch).bank bank).track row port with ⟨tr, e, before⟩
  dsimp only
  generalize hu : (if s.stake.mitigation ≤ e.since then s.emit 3 [ch, bank] else s) = u
  have hmem : u.mem = s.mem ∧ u.clock = s.clock := by
    rw [← hu]
    split <;> exact ⟨rfl, rfl⟩
  obtain ⟨hm, hc⟩ := hmem
  rw [hc]
  split
  · refine ⟨(u.setChan ch _).noteThrottled ch (topPort e.ports), topPort e.ports :: ((s.chan ch).bank bank).throttled, rfl,
      (NotesOnly.noteThrottled ..).mem.trans hm, ?_⟩
    rw [(NotesOnly.noteThrottled ..).chan, State.chan_setChan_self]
    exact Chan.bank_setBank_self ..
  · refine ⟨_, ((s.chan ch).bank bank).throttled, rfl, hm, ?_⟩
    rw [State.chan_setChan_self, Chan.bank_setBank_self]

end

/-! The refresh of all banks, or of those of a rank (08/R240). -/

theorem Chan.bank_refresh (c : Chan) (sel : Nat → Bool) (b : Nat) :
    (c.refresh sel).bank b = if sel b then { c.bank b with openRow := none } else c.bank b := by
  have h := FMap.get_map_at (fun k (x : Bank) => if sel k then { x with openRow := none } else x) (d := bankReset)
    (fun k => ite_self _) c.banks b
  refine Eq.trans ?_ h
  simp only [Chan.bank, Chan.refresh]
  congr 2
  funext p
  split <;> rfl

theorem execOpenRowTimeout_closes {s : State} {ch : ChanId} {b ns : Nat} (hb : ((s.chan ch).bank b).patience = some ns) :
    execOpenRowTimeout ch b s = if passed s.clock ((s.chan ch).bank b).used ns then
      .next (s.setChan ch ((s.chan ch).setBank b { (s.chan ch).bank b with openRow := none })) else .next s := by
  simp only [execOpenRowTimeout, hb]
  rfl

/-! ## Scrub, repair and the reserve rank (08/R235 to R239) -/

/-- A clean scrub step reads the next line, or skips it in a fenced rank. -/
theorem execScrub_clean {s : State} {ch : ChanId} (h : s.servesLine ch (s.nextLine ch (s.chan ch).scrubPos) = true)
    (hi : s.installed ≠ 0) : ∃ t, execScrub ch .clean s = .next t ∧
      AccessOnly (s.modChan ch fun c => { c with scrubPos := s.nextLine ch (s.chan ch).scrubPos }) t := by
  unfold execScrub
  simp only [h, hi, Bool.not_true, Bool.false_eq_true, or_self, if_false, State.chanOutcome_clean]
  refine ⟨_, rfl, ?_⟩
  split
  · exact AccessOnly.refl _
  · exact AccessOnly.maintenanceRead ..
/-- The reads of a repair that all come out clean are accesses alone. -/
theorem AccessOnly.repairReads (s : State) (ch : Nat) (ls : List Nat) : AccessOnly s (s.repairReads ch ls []) := by
  induction ls generalizing s with
  | nil => exact AccessOnly.refl s
  | cons l r ih =>
    rw [State.repairReads, List.headD_nil, State.chanOutcome_clean]
    exact (AccessOnly.maintenanceRead ..).trans (ih _)
theorem execRowRepair_repairs {s : State} {ch : ChanId} {b row : Nat} (hl : (s.chan ch).repair.contains (rowKey b row) = true)
    (hs : (s.chan ch).serves = true) (ht : (s.chan ch).trainRank ≠ some (b / 64)) (hf : wayBit (s.chan ch).fenced (b / 64) = false)
    (outs : List ReadOutcome) : execRowRepair ch b row true outs s =
      .next ((s.repairReads ch (s.rowLines ch (rowKey b row)) outs).modChan ch
        fun c => { c with rowErr := c.rowErr.erase (rowKey b row) }) :=
  if_pos ⟨hl, rfl, hs, ht, by rw [hf]; rfl⟩

section
variable {s : State} {ch : ChanId} {k : RankCopy}

/-- A copy that may not go on stays where it is (08/R239). -/
theorem rankCopy_stopped (hk : (s.chan ch).copy = some k) (hg : (s.chan ch).copyGoes k = false) (out : ReadOutcome) :
    execRankCopyLine ch out s = .next s ∧ execRankCopyCompletion ch s = .next s := by
  simp [execRankCopyLine, execRankCopyCompletion, hk, hg]
theorem execRankCopyCompletion_unfinished {l : Nat} (hk : (s.chan ch).copy = some k)
    (hl : s.nextOfRank ch k.source k.boundary = some l) : execRankCopyCompletion ch s = .next s := by
  simp [execRankCopyCompletion, hk, hl]
/-- A clean line is read, written to the reserve rank and behind the boundary then (08/R238). -/
theorem execRankCopyLine_clean {l : Nat} (hk : (s.chan ch).copy = some k) (hg : (s.chan ch).copyGoes k = true)
    (hl : s.nextOfRank ch k.source k.boundary = some l) : ∃ t, AccessOnly s t ∧
      execRankCopyLine ch .clean s = .next (t.modChan ch fun c => { c with copy := some { k with boundary := l + 1 } }) := by
  simp only [execRankCopyLine, hk, hg, hl, State.chanOutcome_clean, Bool.not_true, Bool.false_eq_true, if_false]
  exact ⟨_, ((AccessOnly.maintenanceRead ..).trans (AccessOnly.bankTouch ..)).trans (AccessOnly.served ..), rfl⟩
/-- After the last line the reserve rank takes the source's place, and reports follow (08/R237, R238). -/
theorem execRankCopyCompletion_finished (hk : (s.chan ch).copy = some k) (hg : (s.chan ch).copyGoes k = true)
    (hl : s.nextOfRank ch k.source k.boundary = none) : ∃ t, execRankCopyCompletion ch s = .next t ∧
      ReportsOnly (s.modChan ch fun c => { c with copy := none, outOfService := some k.source }) t := by
  simp only [execRankCopyCompletion, hk, hg, hl, Option.isSome_none, Bool.not_true, Bool.false_eq_true, or_self, if_false,
    State.copyDone]
  exact ⟨_, rfl, (ReportsOnly.retiredRec ..).trans (ReportsOnly.finishRun ..)⟩

end

end Sys2Proof.Machine

namespace Sys2Proof.Claims
open Sys2Proof Sys2Proof.Machine

theorem channelMaintenance : ChannelMaintenance := by
  refine ⟨fun s ch b row port => ⟨execRowActivation_held, fun h => ?activation⟩, fun s ch => ?window, fun s ch rank => ?alert,
    fun s ch b ns hb => ⟨fun hp => ?closes, fun hp => ?stays⟩, fun s ch h hi => ?scrub, fun s ch b row hl hs ht hf => ?repair,
    fun s ch k hk => ⟨fun l hg hl => ⟨?copyLine, execRankCopyCompletion_unfinished hk hl⟩, fun hg hl => ?copyEnds,
      fun hg o => rankCopy_stopped hk hg o⟩⟩
  case activation =>
    obtain ⟨t, ps, ht, hm, hb⟩ := execRowActivation_counts (row := row) h
    refine ⟨t, ht, hm, ?_⟩
    rw [hb]
    exact ⟨FMap.get_set_self .., fun e he hlt => Bank.activated_below he hlt port s.clock,
      fun e he hle => Bank.activated_mitigated he hle port s.clock⟩
  case window =>
    refine ⟨_, rfl, rfl, fun b => ?_⟩
    have h := FMap.get_map_snd (fun x : Bank => { x with track := [], throttled := [], acts := [], openRow := none }) bankReset
      (s.chan ch).banks b
    rw [State.chan_modChan_self]
    exact ⟨congrArg Bank.track h, congrArg Bank.throttled h, congrArg Bank.openRow h⟩
  case alert =>
    refine ⟨_, rfl, rfl, rfl, fun b => ?_⟩
    rw [State.chan_emit, State.chan_modChan_self, Chan.bank_refresh, apply_ite Bank.openRow]
    simp only [beq_iff_eq]
  case closes =>
    rw [exec_openRowTimeout, execOpenRowTimeout_closes hb, if_pos hp]
    refine ⟨_, rfl, ?_⟩
    rw [State.chan_setChan_self, Chan.bank_setBank_self]
    exact ⟨rfl, fun k hk => Chan.bank_setBank_ne _ _ hk⟩
  case stays => rw [exec_openRowTimeout, execOpenRowTimeout_closes hb, hp, if_neg Bool.false_ne_true]
  case scrub =>
    obtain ⟨t, ht, ha⟩ := execScrub_clean h hi
    refine ⟨t, ht, ha.mem, ?_⟩
    rw [ha.part ch Chan.scrubPos fun _ _ _ => rfl, State.chan_modChan_self]
  case repair =>
    have ha := AccessOnly.repairReads s ch (s.rowLines ch (rowKey b row))
    refine ⟨_, execRowRepair_repairs hl hs ht hf [], ?_⟩
    rw [State.chan_modChan_self]
    exact ⟨FMap.has_erase_self .., ha.part ch Chan.repair fun _ _ _ => rfl, ha.mem⟩
  case copyLine =>
    obtain ⟨t, ha, ht⟩ := execRankCopyLine_clean hk hg hl
    exact ⟨_, ht, congrArg Chan.copy (State.chan_modChan_self ..), ha.mem⟩
  case copyEnds =>
    obtain ⟨t, ht, h⟩ := execRankCopyCompletion_finished hk hg hl
    refine ⟨t, ht, ?_⟩
    rw [h.chan, State.chan_modChan_self]
    exact ⟨rfl, rfl, h.mem⟩

end Sys2Proof.Claims

/-! ## Retraining and deferred speed changes (08/R249 to R251) -/

namespace Sys2Proof.Machine

/-- With no command of the Stake under way, no deferred speed change begins (08/R250). -/
theorem State.deferredSpeed_of_idle {s : State} (h : s.stake.started = []) : s.deferredSpeed = s := by
  simp [State.deferredSpeed, h]
/-- Fencing ranks of a channel without a copy sets its mask and state; what follows are reports (08/R251). -/
theorem NotesOnly.fence {s : State} {ch : Nat} (h : (s.chan ch).copy = none) (mask : Nat) :
    NotesOnly (s.modChan ch fun c => { c with fenced := c.fenced ||| mask, st := .degraded }) (s.fence ch mask) := by
  simp only [State.fence, h]
  exact ((NotesOnly.foldl (fun _ _ => NotesOnly.creelError ..) _ _).trans (NotesOnly.note ..)).trans (NotesOnly.recommend _)
/-- The highest of the lower bins, if there is one. -/
theorem foldl_max_lower {l : List Nat} {n : Nat} (h : ∃ b ∈ l, 0 < b ∧ b < n) :
    (l.filter (· < n)).foldl max 0 ∈ l ∧ (l.filter (· < n)).foldl max 0 < n ∧ (l.filter (· < n)).foldl max 0 ≠ 0 := by
  obtain ⟨b, hb, hb0, hbn⟩ := h
  obtain ⟨hmem, hle⟩ := List.max?_eq_some_iff.1 (List.max?_cons' (x := 0) (xs := l.filter (· < n)))
  have hpos : b ≤ (l.filter (· < n)).foldl max 0 := hle b (List.mem_cons_of_mem _ (List.mem_filter.2 ⟨hb, decide_eq_true hbn⟩))
  have hne : (l.filter (· < n)).foldl max 0 ≠ 0 := by omega
  obtain ⟨hl, hlt⟩ := List.mem_filter.1 ((List.mem_cons.1 hmem).resolve_left hne)
  exact ⟨hl, of_decide_eq_true hlt, hne⟩

/-- The waiting speed changes whose 2 ms are over (08/R250). -/
def RunCmd.expired (clock : Nat) (r : RunCmd) : Bool :=
  match r.why with | .speed _ t => t + 2 ^ 32 / 500 ≤ clock | _ => false
theorem RunCmd.expired_speed {clock b d : Nat} {r : RunCmd} (h : r.why = .speed b d) :
    r.expired clock = decide (d + 2 ^ 32 / 500 ≤ clock) := by
  simp [RunCmd.expired, h]
theorem State.complete_started (s : State) (c : Cmd) (status : Nat) (result : W64) (reply : List W64) :
    (s.complete c status result reply).stake.started = s.stake.started := by
  simp only [State.complete, State.countFail]
  repeat' split
  all_goals rfl
/-- The commands that end leave the list of the started ones; the others stay. -/
theorem State.finishRun_started (s : State) (sel : RunCmd → Bool) (status : Nat) (result : W64) :
    (s.finishRun sel status result).stake.started = s.stake.started.filter fun r => !sel r := by
  have h (l : List RunCmd) (t : State) : (l.foldl (fun s r => s.complete r.cmd status result []) t).stake.started = t.stake.started := by
    induction l generalizing t with
    | nil => rfl
    | cons r l ih => rw [List.foldl_cons, ih, State.complete_started]
  exact h ..
theorem execSpeedChangeDeferralExpiry_ends {s : State} (h : s.training = true) :
    execSpeedChangeDeferralExpiry s = .next (s.finishRun (RunCmd.expired s.clock) 0x0402 0) := by
  rw [execSpeedChangeDeferralExpiry, h]
  rfl

section
variable {s : State} {ch : ChanId} {rank : Fin 8}

theorem execRetraining_begins {temp : Int} (hs : (s.chan ch).st = .service ∨ (s.chan ch).st = .degraded) (hc : s.changing = false)
    (hf : wayBit (s.chan ch).fenced rank = false) (hd : (s.chan ch).trainDue rank s.clock temp = true) (f : BitVec 8) :
    execRetraining ch rank true false temp f s =
      .next (s.setChan ch { s.chan ch with st := .retrain, trainRank := some rank.val }) := by
  simp [execRetraining, hs, hc, hf, hd]
/-- The row that follows a fall-back gives the ranks that fail there (08/R249). -/
theorem execRetraining_fallback (hs : (s.chan ch).st = .fallback) (p : Bool) (temp : Int) (f : BitVec 8) :
    execRetraining ch rank false p temp f s = .next (if f = 0 then (s.modChan ch Chan.resume).note 3 ch (s.chan ch).bin
      else (s.modChan ch Chan.resume).fence ch f.toNat).deferredSpeed := by
  simp [execRetraining, hs]

/-- The rank of a step that ends without a setting is in service (08/R249). -/
theorem not_reserve_iff {c : Chan} {r : Nat} : c.reserveRank ≠ r ∨ c.outOfService.isSome = true ↔
    ¬ (c.reserveRank = r ∧ c.outOfService.isNone) := by
  rw [Decidable.not_and_iff_not_or_not, Option.isNone_iff_eq_none, Option.isSome_iff_ne_none]

section
variable (hs : (s.chan ch).st = .retrain) (hr : (s.chan ch).trainRank = some rank.val)
include hs hr

theorem execRetraining_passes (temp : Int) (f : BitVec 8) : execRetraining ch rank false true temp f s =
    .next ((s.modChan ch fun c => { c.resume with trainRank := none }).modChan ch
      fun c => { c with trained := c.trained.set rank (s.clock, temp) }).deferredSpeed := by
  simp [execRetraining, hs, hr]

section
variable (hn : ¬ ((s.chan ch).reserveRank = rank.val ∧ (s.chan ch).outOfService.isNone)) (temp : Int) (f : BitVec 8)
include hn

/-- A step of a rank in service that ends without a setting fences the rank or takes the channel to the highest of the lower bins
(08/R249, R251). -/
theorem execRetraining_failed {lower : Nat} (hl : ((s.chan ch).known.filter (· < (s.chan ch).bin)).foldl max 0 = lower) :
    execRetraining ch rank false false temp f s =
      if lower = 0 ∨ (s.chan ch).fellBack then
        .next ((s.modChan ch fun c => { c.resume with trainRank := none }).fence ch (2 ^ rank.val)).deferredSpeed
      else .next ((s.modChan ch fun c => { c.resume with trainRank := none }).modChan ch
        fun c => { c with st := .fallback, bin := lower, fellBack := true }) := by
  rw [execRetraining]
  dsimp only
  rw [if_neg Bool.false_ne_true, if_neg (by simp [hs]), if_neg (not_not_intro hr), if_neg Bool.false_ne_true, if_neg hn, hl]
theorem execRetraining_fences (hb : (s.chan ch).fellBack = true) : execRetraining ch rank false false temp f s =
    .next ((s.modChan ch fun c => { c.resume with trainRank := none }).fence ch (2 ^ rank.val)).deferredSpeed :=
  (execRetraining_failed hs hr hn temp f rfl).trans (if_pos (.inr hb))
theorem execRetraining_fallsBack (hb : (s.chan ch).fellBack = false) {lower : Nat}
    (hl : ((s.chan ch).known.filter (· < (s.chan ch).bin)).foldl max 0 = lower) (h0 : lower ≠ 0) :
    execRetraining ch rank false false temp f s =
      .next ((s.modChan ch fun c => { c.resume with trainRank := none }).modChan ch
        fun c => { c with st := .fallback, bin := lower, fellBack := true }) :=
  (execRetraining_failed hs hr hn temp f hl).trans (if_neg (by simp [hb, h0]))

end

end

/-- A port that waited and got less than its share is a breach of its creel's guarantee (09/R271). -/
theorem execThroughputInterval_breach {port : QosPort} (h : port.val < 64) :
    execThroughputInterval ch port true true s = .next (s.breach port 0) := by
  simp [execThroughputInterval, portOwner_creel h]
theorem State.breach_marks (s : State) (cr : Nat) : tbit ((s.breach cr 0).creel cr).breach 0 = true := by
  have hbit (w : W64) : tbit (setFld w 0 0 1) 0 = true := getLsbD_setFld w 0 0 1 0 (by decide)
  obtain ⟨w, t, rfl, h | h⟩ := s.breach_cases cr 0
  · rw [h, State.creel_modCreel_self]
    exact hbit w
  · rw [h, State.creel_raiseFixed, State.creel_modCreel_self]
    exact hbit w

end
end Sys2Proof.Machine

namespace Sys2Proof.Claims
open Sys2Proof Sys2Proof.Machine

theorem channelTrainingAndShares : ChannelTrainingAndShares := by
  refine ⟨fun s ch rank temp f hs hc hf hd => execRetraining_begins hs hc hf hd f,
    fun s ch rank temp f hs hr hi => ⟨?passes, fun hn hc hb => ?fails, fun hn hb hl => ?fallsBack⟩,
    fun s ch rank temp f p hs hc hi => ?fallback, fun s => ⟨fun h => ?noTraining, fun h => ?expiry⟩, ?share⟩
  case passes =>
    refine ⟨_, execRetraining_passes hs hr temp f, ?_⟩
    rw [State.deferredSpeed_of_idle (by exact hi), State.chan_modChan_self, State.chan_modChan_self]
    exact ⟨rfl, rfl, rfl⟩
  case fails =>
    have h := NotesOnly.fence (s := s.modChan ch fun c => { c.resume with trainRank := none }) (ch := ch)
      (by rw [State.chan_modChan_self]; exact hc) (2 ^ rank.val)
    refine ⟨_, execRetraining_fences hs hr (not_reserve_iff.1 hn) temp f hb, ?_⟩
    rw [State.deferredSpeed_of_idle (by rw [h.stake]; exact hi), h.chan, State.chan_modChan_self, State.chan_modChan_self]
    exact ⟨rfl, rfl, h.mem⟩
  case fallsBack =>
    obtain ⟨hk, hlt, h0⟩ := foldl_max_lower hl
    refine ⟨_, execRetraining_fallsBack hs hr (not_reserve_iff.1 hn) temp f hb rfl h0, ?_⟩
    rw [State.chan_modChan_self]
    exact ⟨rfl, rfl, hk, hlt, rfl⟩
  case fallback =>
    refine ⟨_, execRetraining_fallback hs p temp f, ?_⟩
    by_cases hf : f = 0
    · rw [if_pos hf, State.deferredSpeed_of_idle (by exact hi), (NotesOnly.note ..).chan, State.chan_modChan_self]
      simp only [hf, true_and, if_true]
      exact ⟨rfl, rfl, rfl⟩
    · have h := NotesOnly.fence (s := s.modChan ch Chan.resume) (ch := ch) (by rw [State.chan_modChan_self]; exact hc) f.toNat
      rw [if_neg hf, State.deferredSpeed_of_idle (by rw [h.stake]; exact hi), h.chan, State.chan_modChan_self, State.chan_modChan_self,
        if_neg hf, if_neg (fun h0 => hf h0.1)]
      exact ⟨rfl, rfl, h.mem⟩
  case noTraining =>
    rw [exec_speedChangeDeferralExpiry, execSpeedChangeDeferralExpiry, h]
    rfl
  case expiry =>
    refine ⟨_, execSpeedChangeDeferralExpiry_ends h, (ReportsOnly.finishRun ..).chans, fun r hr b d hw => ?_⟩
    rw [State.finishRun_started, List.mem_filter, RunCmd.expired_speed hw] at hr
    simpa using hr.2
  case share =>
    rintro s ch port c rfl hc
    exact ⟨_, execThroughputInterval_breach (ch := ch) hc, s.breach_marks port, (AccessOnly.breach ..).mem⟩

end Sys2Proof.Claims

namespace Sys2Proof.Proofs

/-- Settles O30: maintenance by what an access or a report can change, retraining by its branches and by what follows a fence. -/
theorem channelEvents : Obligations.ChannelEvents := ⟨Claims.channelMaintenance, Claims.channelTrainingAndShares⟩

end Sys2Proof.Proofs

/-! ## Ports of the mailboxes, completions and commands that are carried out (10/R277, R280, R283, R284, 11/R332) -/

namespace Sys2Proof.Machine

theorem State.port_setPort (s : State) (p q : Nat) (x : MbxPort) : (s.setPort p x).port q = if q = p then x else s.port q :=
  FMap.get_set portReset s.stake.ports p q x
@[simp] theorem State.port_setPort_self (s : State) (p : Nat) (x : MbxPort) : (s.setPort p x).port p = x :=
  FMap.get_set_self portReset s.stake.ports p x
@[simp] theorem State.port_modPort_self (s : State) (p : Nat) (f : MbxPort → MbxPort) : (s.modPort p f).port p = f (s.port p) :=
  FMap.get_set_self portReset s.stake.ports p _

/-- `t` is `s` but for what the end of a command changes of itself: the ports, and the chains of the audit. -/
def AnswersOnly (s t : State) : Prop :=
  t = { s with stake := { s.stake with ports := t.stake.ports }, bbkm := { s.bbkm with chains := t.bbkm.chains } }

theorem AnswersOnly.trans {s t u : State} (h : AnswersOnly s t) (k : AnswersOnly t u) : AnswersOnly s u := by
  unfold AnswersOnly at h k ⊢
  rw [h] at k
  exact k
theorem AnswersOnly.countFail (s : State) (p : Nat) : AnswersOnly s (s.countFail p) := by
  simp only [State.countFail]
  split <;> rfl
theorem AnswersOnly.complete (s : State) (c : Cmd) (status : Nat) (result : W64) (reply : List W64) :
    AnswersOnly s (s.complete c status result reply) := by
  simp only [State.complete]
  split
  · exact (AnswersOnly.countFail s c.port).trans rfl
  · rfl
/-- A record of the device's own chain, and the checkpoint it may bring, change the chains alone (11/R332, R335). -/
theorem State.auditAppend_device (s : State) (sec st frac w3 w4 : Nat) (k1 k2 c1 : W64) :
    s.auditAppend 64 sec st frac w3 w4 k1 k2 c1 =
      { s with bbkm := { s.bbkm with chains := (s.auditAppend 64 sec st frac w3 w4 k1 k2 c1).bbkm.chains } } := by
  simp only [State.auditAppend, State.checkpoint, Nat.lt_irrefl, if_false]
  split <;> rfl
theorem State.recordCmd_eq (s : State) (c : Cmd) (status : Nat) :
    s.recordCmd c status = { s with bbkm := { s.bbkm with chains := (s.recordCmd c status).bbkm.chains } } := by
  simp only [State.recordCmd]
  split
  · exact s.auditAppend_device ..
  · rfl
theorem AnswersOnly.recordCmd (s : State) (c : Cmd) (status : Nat) : AnswersOnly s (s.recordCmd c status) := by
  rw [State.recordCmd_eq]
  rfl
theorem AnswersOnly.done (s : State) (c : Cmd) (status result : Nat) (reply : List W64) :
    AnswersOnly s (s.done c status result reply) :=
  (AnswersOnly.complete s c status (w64 result) reply).trans (AnswersOnly.recordCmd ..)

/-- A command that ends is the newest completion of its port (10/R280). -/
theorem State.complete_last (s : State) (c : Cmd) (status : Nat) (result : W64) (reply : List W64) :
    ((s.complete c status result reply).port c.port).comps.getLast? =
      some { slot := c.slot, tag := c.tag, status := status, irq := c.irq,
             result := if reply = [] then result else w64 (8 * reply.length), reply := reply } := by
  simp only [State.complete, State.port_modPort_self, List.getLast?_concat]
theorem State.done_last (s : State) (c : Cmd) (status result : Nat) (reply : List W64) :
    ((s.done c status result reply).port c.port).comps.getLast? =
      some { slot := c.slot, tag := c.tag, status := status, irq := c.irq,
             result := if reply = [] then w64 result else w64 (8 * reply.length), reply := reply } := by
  rw [State.done, State.recordCmd_eq]
  exact s.complete_last c status (w64 result) reply

/-- An accepted command that no state refuses has its effect on the state without it (10/R283). -/
theorem stakeRow_carriesOut {s : State} {p : Slot} {k : Fin 16} {op : Nat} {c : Cmd} (work : State → Cmd → State)
    (hc : s.takeCmd p.val k.val op = some c)
    (hr : (s.modStake fun m => { m with accepted := m.accepted.filter (· ≠ c) }).stateRefuses c = none) :
    stakeRow p k op work s = .next (work (s.modStake fun m => { m with accepted := m.accepted.filter (· ≠ c) }) c) := by
  simp only [stakeRow, stakeRowW, hc, hr, Bool.not_true, Bool.false_eq_true, if_false]

end Sys2Proof.Machine

namespace Sys2Proof.Claims
open Sys2Proof Sys2Proof.Machine

theorem answered_done (s : State) (c : Cmd) (status result : Nat) : Answered (s.done c status result) c status (w64 result) [] :=
  s.done_last c status result []
theorem replied_done (s : State) (c : Cmd) (reply : List W64) : replied (s.done c 0 0 reply) c reply := by
  refine (s.done_last c 0 0 reply).trans ?_
  cases reply <;> rfl
/-- A row of the Stake's commands is as the table says when its work is, wherever it may have its effect. -/
theorem MbxOp.completes_of_row {o : MbxOp} {work : State → Cmd → State}
    (hrow : ∀ p k s, exec (o.instr p k) s = stakeRow p k o.op work s) (h : ∀ u c, o.ok u c → o.effect u c (work u c)) : o.Completes :=
  fun s p k c hc hr hk => ⟨_, (hrow p k s).trans (stakeRow_carriesOut work hc hr), h _ c hk⟩

end Sys2Proof.Claims

/-! ## What the end of a creel's work changes in the pairing unit (09/R266, 15/R439, R447 to R449) -/

namespace Sys2Proof.Machine

/-- The pairing unit of `t` is that of `s` but for frames sent, bits and counts of creels, captured lines and commits: state, roles,
policies and the fence stay. -/
def SendsOnly (s t : State) : Prop :=
  t.pair = { s.pair with tx := t.pair.tx, unacked := t.pair.unacked, sent := t.pair.sent, stat := t.pair.stat, logs := t.pair.logs,
                         commits := t.pair.commits, nextId := t.pair.nextId }

section
variable {s t u : State}

theorem SendsOnly.of_pair (h : t.pair = s.pair) : SendsOnly s t := by
  unfold SendsOnly
  rw [h]
theorem SendsOnly.refl (s : State) : SendsOnly s s := rfl
theorem SendsOnly.trans (h : SendsOnly s t) (k : SendsOnly t u) : SendsOnly s u := by
  unfold SendsOnly at h k ⊢
  rw [h] at k
  exact k
theorem SendsOnly.after (k : SendsOnly t u) (h : SendsOnly s t) : SendsOnly s u := h.trans k
theorem SendsOnly.fenceOut (h : SendsOnly s t) : t.pair.fenceOut = s.pair.fenceOut := by rw [h]
theorem SendsOnly.foldl {α : Type} {f : State → α → State} (hf : ∀ s a, SendsOnly s (f s a)) (l : List α) (s : State) :
    SendsOnly s (l.foldl f s) := by
  induction l generalizing s with
  | nil => exact SendsOnly.refl s
  | cons a r ih => exact (hf s a).trans (ih _)
theorem SendsOnly.ite {p : Prop} [Decidable p] (h : SendsOnly s t) (k : SendsOnly s u) : SendsOnly s (if p then t else u) := by
  split
  · exact h
  · exact k
theorem SendsOnly.thenIf {p : Prop} [Decidable p] (h : SendsOnly s t) (k : SendsOnly t u) : SendsOnly s (if p then u else t) :=
  (h.trans k).ite h
theorem CacheOnly.sends (h : CacheOnly s t) : SendsOnly s t := .of_pair (by rw [h.1])
theorem ReportsOnly.sends (h : ReportsOnly s t) : SendsOnly s t := .of_pair (by rw [h])

end

section
variable (s : State)

/-! Frames, captured lines and commits. -/

theorem SendsOnly.raiseFixed (k cr : Nat) : SendsOnly s (s.raiseFixed k cr) := .of_pair (by rw [State.raiseFixed_eq])
theorem SendsOnly.pairBit (cr bit : Nat) : SendsOnly s (s.pairBit cr bit) := by
  simp only [State.pairBit]
  split
  · exact SendsOnly.refl s
  · exact (SendsOnly.raiseFixed ..).after rfl
theorem SendsOnly.sendFrame (cls : Nat) (m : PairMsg) : SendsOnly s (s.sendFrame cls m) := rfl
theorem SendsOnly.sendLine (cr line : Nat) : SendsOnly s (s.sendLine cr line) := by
  simp only [State.sendLine]
  split
  · exact SendsOnly.refl s
  · rfl
theorem SendsOnly.capture (cr agent : Nat) (lines : List Nat) : SendsOnly s (s.capture cr agent lines) := by
  simp only [State.capture]
  split
  · exact SendsOnly.refl s
  · refine SendsOnly.foldl (fun s l => ?_) _ s
    split
    · exact SendsOnly.refl s
    · split
      · exact (SendsOnly.sendLine ..).after rfl
      · rfl
/-- An agent that no creel owns captures nothing (15/R448). -/
theorem SendsOnly.captureIf (cr : Option Nat) (n : Nat) (lines : List Nat) :
    SendsOnly s (match cr with | some c => s.capture c n lines | none => s) := by
  cases cr with
  | none => rfl
  | some c => exact SendsOnly.capture ..
theorem SendsOnly.sendCaptured (cr : Nat) : SendsOnly s (s.sendCaptured cr) :=
  (SendsOnly.foldl (fun s l => SendsOnly.sendLine s cr l) _ _).after rfl
theorem SendsOnly.commit (cr : Nat) (vault : Bool) (who : Waiter) : SendsOnly s (s.commit cr vault who) :=
  (SendsOnly.sendCaptured s cr).trans rfl

/-! Errors and notices, stores to memory and to devices. -/

theorem State.creelError_pair (cr cls unit code addr inst detail : Nat) :
    (s.creelError cr cls unit code addr inst detail).pair = s.pair := by
  obtain ⟨p, r, t, rfl, h | h⟩ := s.creelError_cases cr cls unit code addr inst detail
  · rw [h, State.raiseFixed_eq]
    rfl
  · rw [h]
    rfl
theorem State.wrMap_pair (m : FMap Byte) : (s.wrMap m).pair = s.pair := by
  induction m generalizing s with
  | nil => rfl
  | cons p r ih => exact ih _
theorem State.wrBytes_pair (a : Nat) (b : Bytes) : (s.wrBytes a b).pair = s.pair := by rw [State.wrBytes_eq]
theorem State.clearPoisons_pair (l : List Nat) : (l.foldl State.clearPoison s).pair = s.pair := by
  induction l generalizing s with
  | nil => rfl
  | cons p r ih => exact ih _
theorem State.store_pair (m : FMap Byte) : (s.store m).pair = s.pair :=
  (State.clearPoisons_pair ..).trans (State.wrMap_pair ..)
theorem State.storeBytes_pair (a : Nat) (b : Bytes) : (s.storeBytes a b).pair = s.pair :=
  (State.clearPoisons_pair ..).trans (State.wrBytes_pair ..)
theorem State.fencedWrite_pair (cr : Option Nat) (line : Nat) : (s.fencedWrite cr line).pair = s.pair := by
  simp only [State.fencedWrite]
  split
  · exact State.creelError_pair ..
  · rfl
theorem State.postStore_pair (cr : Option Nat) (bytes : FMap Byte) : (s.postStore cr bytes).pair = s.pair := by
  simp only [State.postStore]
  split
  · rfl
  · split
    · rfl
    · split
      · rfl
      · split
        · exact State.creelError_pair ..
        · rfl
theorem State.sendRequest_pair (lg tag pa size : Nat) : (s.sendRequest lg tag pa size).pair = s.pair := by
  simp only [State.sendRequest]
  split <;> rfl
end

theorem State.strictSend_pair {l : List (Nat × Bytes)} {s t : State} {lg port what core creel window : Nat} {q : List StrictStore}
    (h : s.strictSend lg port what core creel window l = some (t, q)) : t.pair = s.pair := by
  induction l generalizing s t q with
  | nil =>
    obtain ⟨rfl, rfl⟩ : s = t ∧ [] = q := by simpa [State.strictSend] using h
    rfl
  | cons p r ih =>
    rw [State.strictSend] at h
    split at h
    next => exact absurd h (by simp)
    next =>
      obtain ⟨⟨u, q'⟩, hu, e⟩ := Option.map_eq_some_iff.1 h
      obtain ⟨rfl, -⟩ := Prod.mk.inj e
      rw [ih hu, State.sendRequest_pair, State.postStore_pair]
      rfl
section
variable (s : State)

theorem State.unitPost_pair (cr a : Nat) (b : Bytes) : (s.unitPost cr a b).pair = s.pair := by
  simp only [State.unitPost]
  split
  · split
    · split
      next h => exact State.strictSend_pair h
      next => exact State.postStore_pair ..
    · exact State.postStore_pair ..
  · exact State.postStore_pair ..
theorem SendsOnly.unitWrite (cr a : Nat) (b : Bytes) : SendsOnly s (s.unitWrite cr a b) := by
  simp only [State.unitWrite]
  split
  · exact .of_pair (State.unitPost_pair ..)
  · split
    · refine SendsOnly.trans ?_ (SendsOnly.capture ..)
      exact (CacheOnly.homeWriteRange ..).sends.trans (.of_pair (State.storeBytes_pair ..))
    · refine SendsOnly.trans ?_ (SendsOnly.capture ..)
      refine SendsOnly.trans ?_ (SendsOnly.foldl (fun _ _ => .of_pair (State.fencedWrite_pair ..)) _ _)
      exact (CacheOnly.homeWriteRange ..).sends.trans (.of_pair (State.store_pair ..))

/-! The buffers of a core. -/

theorem SendsOnly.wcDrain (n : Nat) (b : WcBuf) : SendsOnly s (s.wcDrain n b) := by
  have hline (cr : Option Nat) : SendsOnly s (if (s.homeWrite b.line).fencedLine b.line then
      (s.homeWrite b.line).fencedWrite cr b.line else (s.homeWrite b.line).store b.bytes) :=
    (CacheOnly.homeWrite s b.line).sends.trans (SendsOnly.ite (.of_pair (State.fencedWrite_pair ..)) (.of_pair (State.store_pair ..)))
  simp only [State.wcDrain]
  split
  · split
    · exact (hline _).trans (SendsOnly.capture ..)
    · exact hline _
  · split
    · exact (hline _).trans (SendsOnly.capture ..)
    · exact hline _
  · split
    · exact .of_pair (State.creelError_pair ..)
    · rfl
  · exact .of_pair (State.postStore_pair ..)
theorem SendsOnly.wcDrainAll (n : Nat) : SendsOnly s (s.wcDrainAll n) :=
  (SendsOnly.foldl (fun s b => SendsOnly.wcDrain s n b) (s.core n).wc s).trans rfl
theorem SendsOnly.modCore (n : Nat) (f : Core → Core) : SendsOnly s (s.modCore n f) := rfl
theorem SendsOnly.releaseMiss (t : Nat) (lines : List Nat) : SendsOnly s (s.releaseMiss t lines) := by
  simp only [State.releaseMiss]
  exact SendsOnly.ite rfl rfl
/-- A store of which the lines of fenced ranks take nothing (08/R251). -/
theorem SendsOnly.fencedStore (cr : Option Nat) (bad : List Nat) (m : FMap Byte) :
    SendsOnly s (bad.foldl (fun s l => s.fencedWrite cr l) (s.store m)) :=
  (SendsOnly.foldl (fun _ _ => .of_pair (State.fencedWrite_pair ..)) _ _).after (.of_pair (State.store_pair ..))
theorem SendsOnly.performStore (n : Nat) (mt : MemType) (bytes : FMap Byte) (k : Nat) : SendsOnly s (s.performStore n mt bytes k) := by
  simp only [State.performStore]
  split
  · split
    · exact .of_pair (State.creelError_pair ..)
    · rfl
  · cases mt with
    | wb =>
      refine SendsOnly.trans ?_ (SendsOnly.captureIf ..)
      refine SendsOnly.trans (SendsOnly.foldl (fun s l => ?_) _ s) (.of_pair (State.store_pair ..))
      exact SendsOnly.ite (SendsOnly.trans (CacheOnly.cohOwn ..).sends rfl) (CacheOnly.cohOwn ..).sends
    | wc =>
      refine SendsOnly.foldl (fun s l => ?_) _ s
      split
      · split
        · exact (SendsOnly.wcDrain ..).after rfl
        · rfl
      · refine SendsOnly.ite ((SendsOnly.wcDrain ..).after ((SendsOnly.modCore ..).after ?_)) ((SendsOnly.modCore ..).after ?_)
        all_goals
          refine SendsOnly.ite (SendsOnly.refl _) ?_
          split
          · exact (SendsOnly.wcDrain ..).after rfl
          · rfl
    | uc =>
      have hwrites (l : List Nat) : SendsOnly s (l.foldl State.homeWrite s) :=
        SendsOnly.foldl (fun _ _ => (CacheOnly.homeWrite ..).sends) l s
      simp only []
      split
      · exact (SendsOnly.captureIf ..).after ((SendsOnly.fencedStore ..).after (hwrites _))
      · exact (SendsOnly.captureIf ..).after ((SendsOnly.fencedStore ..).after (hwrites _))
      · exact .of_pair (State.postStore_pair ..)
    | dev => exact .of_pair (State.postStore_pair ..)
    | strict => exact .of_pair (State.postStore_pair ..)
theorem SendsOnly.drainHead (n : Nat) : SendsOnly s (s.drainHead n) := by
  simp only [State.drainHead]
  split
  · rfl
  · refine (SendsOnly.performStore ..).after ((SendsOnly.releaseMiss ..).after ?_)
    exact SendsOnly.ite ((SendsOnly.wcDrainAll ..).after rfl) rfl
theorem SendsOnly.drainN (n k : Nat) : SendsOnly s (s.drainN n k) := by
  induction k generalizing s with
  | zero => rfl
  | succ k ih => exact (SendsOnly.drainHead s n).trans (ih _)

/-! Audit records, and the ends of a creel's jobs and commands. -/

theorem SendsOnly.notice (cr bit k : Nat) : SendsOnly s (s.notice cr bit k) := (ReportsOnly.notice ..).sends
theorem SendsOnly.auditFlush (cr f : Nat) : SendsOnly s (s.auditFlush cr f) := by
  induction f generalizing s with
  | zero => rfl
  | succ f ih =>
    simp only [State.auditFlush]
    split
    · rfl
    · exact SendsOnly.ite rfl ((ih _).after ((SendsOnly.unitWrite ..).trans rfl))
theorem SendsOnly.checkpoint (n : Nat) : SendsOnly s (s.checkpoint n) := by
  simp only [State.checkpoint]
  split <;> rfl
theorem SendsOnly.auditAppend (n sec st frac w3 w4 : Nat) (k1 k2 c1 : W64) :
    SendsOnly s (s.auditAppend n sec st frac w3 w4 k1 k2 c1) := by
  simp only [State.auditAppend]
  refine SendsOnly.thenIf (SendsOnly.ite (SendsOnly.ite ?_ ((SendsOnly.notice ..).after ?_)) rfl) (SendsOnly.checkpoint ..)
  · exact (SendsOnly.auditFlush ..).after rfl
  · exact SendsOnly.thenIf ((SendsOnly.auditFlush ..).after rfl) (.of_pair (State.creelError_pair ..))
theorem SendsOnly.auditRec (c : HCmd) (kind status : Nat) (o : HDone) : SendsOnly s (c.auditRec s kind status o) :=
  SendsOnly.auditAppend ..
theorem SendsOnly.endHCmd (c : HCmd) : SendsOnly s (s.endHCmd c) := by
  simp only [State.endHCmd]
  split
  next o _ =>
    have hlate : SendsOnly s (if o.waits then (s.pairCount c.creel 63 48).pairBit c.creel 1 else s) :=
      ((SendsOnly.pairBit ..).after rfl).ite rfl
    exact SendsOnly.ite hlate ((SendsOnly.auditRec ..).after hlate)
  next => exact SendsOnly.auditRec ..
theorem SendsOnly.endUnit (u : Nat) : SendsOnly s (s.endUnit u) := rfl
theorem SendsOnly.setSession (n : Nat) (x : Sess) : SendsOnly s (s.setSession n x) := rfl
theorem SendsOnly.endHamper (cr : Nat) : SendsOnly s (s.endHamper cr) := by
  simp only [State.endHamper]
  have hmine (l : List HCmd) : SendsOnly s (l.foldl State.endHCmd s) := SendsOnly.foldl SendsOnly.endHCmd l s
  refine SendsOnly.ite ?_ ((SendsOnly.commit ..).after ((SendsOnly.foldl (fun _ _ => SendsOnly.sendFrame ..) _ _).after ?_))
  all_goals exact (SendsOnly.foldl (fun _ _ => SendsOnly.setSession ..) _ _).after ((hmine _).trans rfl)
theorem SendsOnly.clearCreel (cr : Nat) : SendsOnly s (s.clearCreel cr) :=
  SendsOnly.trans (SendsOnly.foldl (fun _ _ => SendsOnly.modCore ..) (s.coresOf cr) s) rfl
theorem SendsOnly.modCreel (n : Nat) (f : Creel → Creel) : SendsOnly s (s.modCreel n f) := rfl
theorem SendsOnly.releaseCreel (cr reason : Nat) : SendsOnly s (s.releaseCreel cr reason) := by
  simp only [State.releaseCreel]
  exact (SendsOnly.foldl (fun _ _ => SendsOnly.modCore ..) _ _).after (SendsOnly.modCreel ..)

/-! The reset of a creel (09/R265 to R267). -/

theorem SendsOnly.withResetting (m : FMap Nat) : SendsOnly s { s with resetting := m } := rfl
theorem SendsOnly.setPort (p : Nat) (x : MbxPort) : SendsOnly s (s.setPort p x) := rfl
theorem SendsOnly.creelResetBegin (cr kind : Nat) : SendsOnly s (s.creelResetBegin cr kind) := by
  simp only [State.creelResetBegin]
  refine (SendsOnly.withResetting ..).after ((SendsOnly.endHamper ..).after ?_)
  refine (SendsOnly.foldl SendsOnly.endUnit _ _).after ((SendsOnly.foldl (fun s n => ?_) _ _).after (SendsOnly.modCreel ..))
  exact (SendsOnly.modCore ..).after ((SendsOnly.wcDrainAll ..).after (SendsOnly.drainN ..))
theorem SendsOnly.creelResetEnd (cr kind : Nat) : SendsOnly s (s.creelResetEnd cr kind) := by
  simp only [State.creelResetEnd]
  refine (ReportsOnly.finishRun ..).sends.after ?_
  refine SendsOnly.thenIf (SendsOnly.thenIf (SendsOnly.thenIf ((SendsOnly.modCreel ..).after ?_) (SendsOnly.releaseCreel ..))
    (SendsOnly.setPort ..)) (SendsOnly.sendFrame ..)
  have hclear : SendsOnly s (State.clearCreel { s with resetting := s.resetting.erase cr } cr) :=
    (SendsOnly.clearCreel ..).after (SendsOnly.withResetting ..)
  exact SendsOnly.ite (hclear.trans (.of_pair (State.creelError_pair ..)))
    (hclear.ite (hclear.trans (.of_pair (State.creelError_pair ..))))
theorem SendsOnly.creelReset (cr kind : Nat) : SendsOnly s (s.creelReset cr kind) := by
  simp only [State.creelReset, State.creelResetGo]
  exact SendsOnly.ite ((SendsOnly.creelResetEnd ..).after (SendsOnly.creelResetBegin ..)) (SendsOnly.creelResetBegin ..)
end

end Sys2Proof.Machine

/-! ## The Stake's commands for the device and its owner (10/R293 to R299, 21/R573) -/

namespace Sys2Proof.Machine

theorem AnswersOnly.life {s t : State} (h : AnswersOnly s t) : t.bbkm.life = s.bbkm.life := by rw [h]
theorem AnswersOnly.cards {s t : State} (h : AnswersOnly s t) : t.bbkm.cards = s.bbkm.cards := by rw [h]
theorem AnswersOnly.ownerDigest {s t : State} (h : AnswersOnly s t) : t.bbkm.ownerDigest = s.bbkm.ownerDigest := by rw [h]
theorem AnswersOnly.cfgs {s t : State} (h : AnswersOnly s t) : t.stake.cfgs = s.stake.cfgs := by rw [h]
theorem AnswersOnly.pat {s t : State} (h : AnswersOnly s t) : t.stake.pat = s.stake.pat := by rw [h]
theorem AnswersOnly.creds {s t : State} (h : AnswersOnly s t) : t.stake.creds = s.stake.creds := by rw [h]
theorem AnswersOnly.debug {s t : State} (h : AnswersOnly s t) : t.stake.debug = s.stake.debug := by rw [h]
theorem AnswersOnly.vault {s t : State} (h : AnswersOnly s t) : t.vault = s.vault := by rw [h]
theorem AnswersOnly.seals {s t : State} (h : AnswersOnly s t) : t.seals = s.seals := by rw [h]
theorem AnswersOnly.pair {s t : State} (h : AnswersOnly s t) : t.pair = s.pair := by rw [h]
theorem ReportsOnly.bbkm {s t : State} (h : ReportsOnly s t) : t.bbkm = s.bbkm := by rw [h]

/-- A retirement is noted in the device log and told to creels; the Stake's own state stays (19/R553). -/
theorem State.retireBlock_stake (s : State) (flash blk : Nat) : (s.retireBlock flash blk).stake = s.stake := by
  simp only [State.retireBlock, State.retiredRec]
  exact (NotesOnly.foldl (fun _ _ => NotesOnly.notice ..) _ _).stake
theorem ReportsOnly.retireBlock (s : State) (flash blk : Nat) : ReportsOnly s (s.retireBlock flash blk) :=
  ReportsOnly.trans (t := { s with reserve := _ }) rfl (ReportsOnly.retiredRec ..)
theorem ReportsOnly.cfgFault (s : State) : ReportsOnly s s.cfgFault :=
  ReportsOnly.trans (t := s.cfgCut) rfl (ReportsOnly.retireBlock ..)

/-- The slot that a record is written to holds the record's sequence number (18/R536). -/
theorem State.cfgWrite_cfgs (s : State) (slot seq : Nat) : ((s.cfgWrite slot seq).stake.cfgs.get cfgSlotReset slot).seq = seq := by
  simp only [State.cfgWrite, State.modStake]
  rw [FMap.get_set_self]

/-- The end of auditors' sessions changes the list of these alone (10/R299). -/
theorem State.credChanged_eq (s t : State) :
    s.credChanged t = { t with stake := { t.stake with auditors := (s.credChanged t).stake.auditors } } := by
  simp only [State.credChanged, List.foldl]
  repeat' split
  all_goals rfl
theorem State.credChanged_pat (s t : State) : (s.credChanged t).stake.pat = t.stake.pat := by rw [s.credChanged_eq t]
theorem State.credChanged_creds (s t : State) : (s.credChanged t).stake.creds = t.stake.creds := by rw [s.credChanged_eq t]

/-- New keys for a creel's memory change its contents and the free values drawn (21/R571). -/
theorem State.rekey_eq (s : State) (cr : Nat) : s.rekey cr = { s with mem := (s.rekey cr).mem, free := (s.rekey cr).free } := by
  have h (l : List (Nat × Nat)) (s : State) : l.foldl State.scrambleRange s =
      { s with mem := (l.foldl State.scrambleRange s).mem, free := (l.foldl State.scrambleRange s).free } := by
    induction l generalizing s with
    | nil => rfl
    | cons r l ih =>
      rw [List.foldl_cons, ih]
      simp only [State.scrambleRange]
      split <;> rfl
  exact h ..
theorem State.rekeys_eq (l : List Nat) (s : State) :
    l.foldl State.rekey s = { s with mem := (l.foldl State.rekey s).mem, free := (l.foldl State.rekey s).free } := by
  induction l generalizing s with
  | nil => rfl
  | cons r l ih =>
    rw [List.foldl_cons, ih, State.rekey_eq]
theorem State.rekeys_pair (l : List Nat) (s : State) : (l.foldl State.rekey s).pair = s.pair := by rw [State.rekeys_eq]
/-- Zeroization of memory keys leaves the cores as they are (21/R570). -/
theorem State.zeroize_cores (s : State) (life : Nat) : (s.zeroize life).cores = s.cores := by
  simp only [State.zeroize, State.modVault, State.modStake]
  rw [State.rekeys_eq]
/-- The stop of the device stops every core (17/R518). -/
theorem State.haltDevice_stops (s : State) (n : Nat) : ((s.haltDevice).core n).run = .stopped := by
  have h (m : FMap Core) : FMap.get coreReset (m.map fun p => (p.1, haltCore p.2)) n = haltCore (m.get coreReset n) :=
    FMap.get_map_snd haltCore coreReset m n
  rw [State.core, State.haltDevice, h]
  rfl

end Sys2Proof.Machine

namespace Sys2Proof.Claims
open Sys2Proof Sys2Proof.Machine

theorem lifeTo_completes (n : Nat) (s : State) (c : Cmd) : Answered (lifeTo n s c) c 0 0 [] ∧ (lifeTo n s c).bbkm.life = n :=
  ⟨answered_done .., (AnswersOnly.done (s.modBbkm _) ..).life⟩

theorem deviceCommandsComplete (cert : BitVec 384) : ∀ o, deviceCommands cert o → o.Completes := by
  simp only [deviceCommands, List.forall_mem_cons, List.not_mem_nil, false_implies, implies_true, and_true]
  refine ⟨?echo, ?status, ?logUnit, ?logDevice, ?sensor, ?take, ?takeFault, ?open_, ?close, ?closeFault, ?lock, ?unlock, ?retire,
    ?enroll, ?enrollFull, ?patWrite, ?patRead, ?debug, ?cred, ?credNone⟩
  case echo =>
    refine MbxOp.completes_of_row exec_echo fun u c _ => ?_
    have h := answered_done u c 0 (c.n 2)
    rwa [w64, Cmd.n, BitVec.ofNat_toNat, BitVec.setWidth_eq] at h
  case status =>
    refine MbxOp.completes_of_row exec_deviceStatus fun u c _ => ?_
    have h := replied_done u c [w64 u.bbkm.life, w64 u.mirrorCode, w64 u.hoop.st, w64 u.fwRelease, w64 (b2n u.stake.debug)]
    have hb : w64 (b2n u.stake.debug) = if u.stake.debug then 1 else 0 := by cases u.stake.debug <;> rfl
    exact hb ▸ h
  case logUnit =>
    refine MbxOp.completes_of_row exec_logRead fun u c hu => ?_
    have hu : tbit (c.words.getD 0 0) 63 = true := hu
    simp only [Cmd.w, Nat.sub_self, hu, if_true]
    exact replied_done ..
  case logDevice =>
    refine MbxOp.completes_of_row exec_logRead fun u c ⟨hu, hn⟩ => ?_
    have h0 : c.n 2 % 32 = 0 := hn
    simp only [Cmd.w, Nat.sub_self, hu, Bool.false_eq_true, if_false, h0, Nat.zero_div, List.drop_zero]
    exact replied_done ..
  case sensor =>
    refine MbxOp.completes_of_row exec_sensorRead fun u c hn => ?_
    have hn : c.n 2 ≤ 8 := hn
    have hv : ¬ 42 ≤ c.n 2 := by omega
    have hb : c.n 2 ≠ 27 := by omega
    simp only [if_neg hv, if_neg hb, sensorLimits, if_pos hn]
    exact ⟨_, replied_done ..⟩
  case take =>
    refine MbxOp.completes_of_row (fun p k s => exec_takeOwnership p k false s) fun u c _ => ?_
    simp only [Bool.false_eq_true, if_false]
    refine ⟨answered_done .., (AnswersOnly.done ..).life, fun e he => ?_, (AnswersOnly.done ..).ownerDigest, ?_⟩
    · have he : u.stake.session = some e := he
      rw [(AnswersOnly.done ..).cards]
      simp only [State.random, State.cfgWrite, State.spend, State.modVault, State.modBbkm, State.modStake, he]
    · rw [(AnswersOnly.done ..).cfgs]
      exact State.cfgWrite_cfgs ..
  case takeFault =>
    refine MbxOp.completes_of_row (fun p k s => exec_takeOwnership p k true s) fun u c _ => ⟨answered_done .., ?_, ?_⟩
    · exact (AnswersOnly.done ..).life.trans (congrArg Bbkm.life (ReportsOnly.retireBlock ..).bbkm)
    · exact (AnswersOnly.done ..).cfgs.trans (congrArg Stake.cfgs (State.retireBlock_stake ..))
  case open_ => exact MbxOp.completes_of_row exec_ceremonyOpen fun u c _ => lifeTo_completes 3 u c
  case close =>
    exact MbxOp.completes_of_row (fun p k s => exec_ceremonyClose p k false s) fun u c _ => lifeTo_completes 4 u.cfgSave.1 c
  case closeFault =>
    refine MbxOp.completes_of_row (fun p k s => exec_ceremonyClose p k true s) fun u c _ => ⟨answered_done .., ?_⟩
    exact (AnswersOnly.done ..).life.trans (congrArg Bbkm.life (ReportsOnly.cfgFault u).bbkm)
  case lock => exact MbxOp.completes_of_row exec_ownerLock fun u c _ => lifeTo_completes 5 u c
  case unlock => exact MbxOp.completes_of_row exec_ownerUnlock fun u c _ => lifeTo_completes 4 u c
  case retire =>
    refine MbxOp.completes_of_row exec_retire fun u c _ => ⟨rfl, rfl, rfl, rfl, fun n _ => ?_⟩
    simp only [State.core, State.modStake_cores, State.zeroize_cores]
    exact State.haltDevice_stops ..
  case enroll =>
    refine MbxOp.completes_of_row (fun p k s => exec_officerEnroll p k cert s) fun u c ⟨hc, hn⟩ => ?_
    have hc' : u.bbkm.cards.contains cert.toNat = false := by simpa using hc
    simp only [hc', Bool.false_eq_true, if_false, if_neg (Nat.not_le.2 hn)]
    exact ⟨answered_done .., (AnswersOnly.done ..).cards⟩
  case enrollFull =>
    refine MbxOp.completes_of_row (fun p k s => exec_officerEnroll p k cert s) fun u c ⟨hc, hn⟩ => ?_
    have hc' : u.bbkm.cards.contains cert.toNat = false := by simpa using hc
    simp only [hc', Bool.false_eq_true, if_false, if_pos hn]
    exact ⟨answered_done .., (AnswersOnly.done ..).cards⟩
  case patWrite =>
    refine MbxOp.completes_of_row exec_patWrite fun u c ⟨hrole, hcreel, hen⟩ => ?_
    have hok : ¬ (fld (c.w 3) 14 12 ≠ fld (u.patEntry (c.n 2)) 14 12 ∨
        (c.n 2 ≠ 65 ∧ c.n 2 ≠ 66 ∧ patCreel (c.w 3) ≠ patCreel (u.patEntry (c.n 2))) ∨ (c.n 2 = 64 ∧ !patEnabled (c.w 3))) := by
      rintro (h | ⟨-, -, h⟩ | ⟨-, h⟩)
      · exact h hrole
      · exact h hcreel
      · rw [show patEnabled (c.w 3) = true from hen] at h
        exact absurd h (by decide)
    simp only [if_neg hok]
    refine ⟨answered_done .., ?_⟩
    rw [(AnswersOnly.done ..).pat, State.credChanged_pat]
    exact FMap.get_set_self ..
  case patRead => exact MbxOp.completes_of_row exec_patRead fun u c _ => replied_done ..
  case debug =>
    refine MbxOp.completes_of_row exec_debugUnlock fun u c _ => ?_
    refine ⟨answered_done .., (AnswersOnly.done ..).debug, congrArg Vault.objs (AnswersOnly.done ..).vault, (AnswersOnly.done ..).seals, ?_⟩
    rw [(AnswersOnly.done ..).pair]
    simp only [State.note, State.logRec_pair, State.modStake_pair, State.closeSessions, State.modVault_pair, State.rekeys_pair]
    -- what follows the withdrawal of the fence only sends to the partner
    exact (SendsOnly.foldl (fun s n => SendsOnly.creelReset s n 1) _ _).fenceOut
  case cred =>
    refine MbxOp.completes_of_row exec_credSet fun u c h3 => ?_
    have he : ((upto 3 6).all fun i => decide (c.n i = 0)) = false :=
      List.all_eq_false.2 ⟨3, by decide, fun h => h3 (of_decide_eq_true h)⟩
    simp only [he, Bool.false_eq_true, if_false]
    rw [(AnswersOnly.done ..).creds, State.credChanged_creds]
    exact FMap.get_set_self ..
  case credNone =>
    refine MbxOp.completes_of_row exec_credSet fun u c h0 => ?_
    have h : ∀ i ∈ [3, 4, 5, 6, 7, 8], arg c i = 0 := by
      simpa only [List.forall_mem_cons, List.not_mem_nil, false_implies, implies_true, and_true] using h0
    have he : ((upto 3 6).all fun i => decide (c.n i = 0)) = true := List.all_eq_true.2 fun i hi => decide_eq_true (h i hi)
    simp only [he, if_true]
    rw [(AnswersOnly.done ..).creds, State.credChanged_creds]
    exact FMap.has_erase_self ..

end Sys2Proof.Claims

namespace Sys2Proof.Proofs

/-- Settles O31: each row's work, on the state without its command; of what ends the device's keys and creels, only a frame is needed. -/
theorem deviceCommandEffects : Obligations.DeviceCommandEffects := Claims.deviceCommandsComplete

end Sys2Proof.Proofs

/-! ## Doorbells, consumer counts and completions (10/R277, R281, R284, R292) -/

namespace Sys2Proof.Machine

/-- A bit that is set reads clear once its weight is taken off. -/
theorem testBit_sub_two_pow_self {n i : Nat} (h : n.testBit i = true) : (n - 2 ^ i).testBit i = false := by
  have hle : 2 ^ i ≤ n := Nat.ge_two_pow_of_testBit h
  have hdiv : n / 2 ^ i = (n - 2 ^ i) / 2 ^ i + 1 := Nat.div_eq_sub_div (Nat.two_pow_pos i) hle
  rw [Nat.testBit_eq_decide_div_mod_eq, decide_eq_true_iff] at h
  rw [Nat.testBit_eq_decide_div_mod_eq, decide_eq_false_iff_not]
  omega

section
variable {s : State} {p : Nat}

/-- What a write to a command slot leaves of its port: the owner mask, the slots handed over and the suspension (10/R277). -/
structure SlotsWritten (p : Nat) (s t : State) : Prop where
  up : t.stake.up = s.stake.up
  owner : (t.port p).owner = (s.port p).owner
  queue : (t.port p).queue = (s.port p).queue
  suspended : (t.port p).suspended = (s.port p).suspended

theorem SlotsWritten.refl (p : Nat) (s : State) : SlotsWritten p s s := ⟨rfl, rfl, rfl, rfl⟩
theorem SlotsWritten.trans {t u : State} (h : SlotsWritten p s t) (k : SlotsWritten p t u) : SlotsWritten p s u :=
  ⟨k.up.trans h.up, k.owner.trans h.owner, k.queue.trans h.queue, k.suspended.trans h.suspended⟩
theorem SlotsWritten.modPort (s : State) (p : Nat) {f : MbxPort → MbxPort} (ho : ∀ x, (f x).owner = x.owner)
    (hq : ∀ x, (f x).queue = x.queue) (hs : ∀ x, (f x).suspended = x.suspended) : SlotsWritten p s (s.modPort p f) := by
  refine ⟨rfl, ?_, ?_, ?_⟩ <;> simp only [State.port_modPort_self, ho, hq, hs]
theorem SlotsWritten.mbxSlotWrite (s : State) (p ix : Nat) (v : W64) : SlotsWritten p s (s.mbxSlotWrite p ix v) := by
  simp only [State.mbxSlotWrite, State.countFail]
  split
  · split
    · exact SlotsWritten.refl p s
    · exact SlotsWritten.modPort s p (fun _ => rfl) (fun _ => rfl) fun _ => rfl
  · exact SlotsWritten.modPort s p (fun _ => rfl) (fun _ => rfl) fun _ => rfl

/-! A write to a mailbox page that is there, by its offset (10/R277). -/

theorem State.mbxWrite_slot (hu : s.stake.up = true) (hp : p < 71) {off : Nat} (ho : off < 0xC00) (v : W64) :
    s.mbxWrite p off v = s.mbxSlotWrite p (off / 8) v := by
  simp only [State.mbxWrite, hu, Bool.not_true, Bool.false_eq_true, if_false, if_neg (Nat.not_le.2 hp), if_pos ho]
theorem State.mbxWrite_doorbell (hu : s.stake.up = true) (hp : p < 71) (v : W64) : s.mbxWrite p 0xC00 v = s.mbxDoorbell p v := by
  simp only [State.mbxWrite, hu, Bool.not_true, Bool.false_eq_true, if_false, if_neg (Nat.not_le.2 hp), Nat.lt_irrefl, if_true]
theorem State.mbxWrite_cqCons (hu : s.stake.up = true) (hp : p < 71) (v : W64) : s.mbxWrite p 0xC18 v = s.mbxCqCons p v := by
  simp [State.mbxWrite, hu, Nat.not_le.2 hp]

/-- The words that come with a doorbell are written to slots (10/R277). -/
theorem SlotsWritten.words (hp : p < 71) (l : List (Nat × W64)) (hl : ∀ w ∈ l, w.1 < 0xC00) (hu : s.stake.up = true) :
    SlotsWritten p s (l.foldl (fun s w => s.mbxWrite p w.1 w.2) s) := by
  induction l generalizing s with
  | nil => exact SlotsWritten.refl p s
  | cons w r ih =>
    have h := SlotsWritten.mbxSlotWrite s p (w.1 / 8) w.2
    rw [List.foldl_cons, State.mbxWrite_slot hu hp (hl w (List.mem_cons_self ..))]
    exact h.trans (ih (fun v hv => hl v (List.mem_cons_of_mem _ hv)) (h.up.trans hu))

/-- The doorbell hands over the named slots that the Stake does not own (10/R281). -/
theorem State.port_mbxDoorbell (hu : s.stake.up = true) (hs : (s.port p).suspended = none) (v : W64) :
    (s.mbxDoorbell p v).port p = { s.port p with
      owner := (s.port p).owner ||| (v.toNat % 65536),
      queue := (s.port p).queue ++ (List.range 16).filter fun k => tbit v k && !(s.port p).owner.testBit k } := by
  simp [State.mbxDoorbell, hu, hs]

/-- The consumer count of a ring moves while at most 16 entries would stand in it (10/R284). -/
theorem State.mbxCqCons_moves (hu : s.stake.up = true) {v : W64} (hv : ((s.port p).prod + 2 ^ 32 - v.toNat % 2 ^ 32) % 2 ^ 32 ≤ 16) :
    s.mbxCqCons p v = s.setPort p { s.port p with cons := v.toNat % 2 ^ 32 } := if_pos ⟨hu, hv⟩
theorem State.mbxCqCons_ignored {v : W64} (hv : 16 < ((s.port p).prod + 2 ^ 32 - v.toNat % 2 ^ 32) % 2 ^ 32) :
    s.mbxCqCons p v = s := if_neg fun h => Nat.not_lt.2 h.2 hv

/-- An event that may be raised leaves the ports as they are. -/
theorem State.port_ite_raiseFixed {P : Prop} [Decidable P] (s : State) (k cr q : Nat) :
    (if P then s.raiseFixed k cr else s).port q = s.port q := by
  split
  · rw [State.raiseFixed_eq]
    rfl
  · rfl
/-- The oldest completion is written while the ring has room, and its slot returns to the port (10/R280, R284). -/
theorem State.mbxPost_writes {c : MbxComp} {r : List MbxComp} (hc : (s.port p).comps = c :: r)
    (hroom : ((s.port p).prod + 2 ^ 32 - (s.port p).cons) % 2 ^ 32 < 16) :
    ((s.mbxPost p).port p).comps = r ∧ ((s.mbxPost p).port p).prod = ((s.port p).prod + 1) % 2 ^ 32 ∧
      ((s.mbxPost p).port p).owner.testBit c.slot = false ∧
      ((s.mbxPost p).port p).ring.get 0 (4 * ((s.port p).prod % 16)) = w64 (c.tag * 2 ^ 32 + c.status * 2 ^ 16 + c.slot * 2 ^ 8) := by
  simp only [State.mbxPost, hc, if_neg (Nat.not_le.2 hroom), State.port_ite_raiseFixed, State.port_setPort_self, true_and]
  constructor
  · split
    next h => exact testBit_sub_two_pow_self h
    next h => exact Bool.eq_false_iff.2 h
  · rw [FMap.get_set_ne _ _ _ (by omega), FMap.get_set_ne _ _ _ (by omega), FMap.get_set_ne _ _ _ (by omega), FMap.get_set_self]
theorem State.mbxPost_full (hfull : 16 ≤ ((s.port p).prod + 2 ^ 32 - (s.port p).cons) % 2 ^ 32) : s.mbxPost p = s := by
  simp only [State.mbxPost, if_pos hfull]
  split <;> rfl

end

/-- The state after the words that come with a doorbell: the two ports without a page take them, the others have none (10/R276). -/
def State.slotWords (s : State) (p : Nat) (l : List (Nat × W64)) : State :=
  if p = 64 ∨ p = 70 then (l.filter fun w => w.1 < 0xC00 ∧ w.1 % 8 = 0).foldl (fun s w => s.mbxWrite p w.1 w.2) s else s
theorem execMbxDoorbell_there {s : State} {p : Slot} (ht : s.transport p = true) (v : W64) (l : List (Nat × W64)) :
    execMbxDoorbell p v l s = .next ((s.slotWords p l).mbxWrite p.val 0xC00 v) := by
  rw [execMbxDoorbell, ht]
  rfl
theorem execMbxCqCons_there {s : State} {p : Slot} (ht : s.transport p = true) (v : W64) :
    execMbxCqCons p v s = .next (s.mbxWrite p.val 0xC18 v) := if_pos ht

section
variable {s : State} {p : Nat}

theorem SlotsWritten.slotWords (hu : s.stake.up = true) (hp : p < 71) (l : List (Nat × W64)) : SlotsWritten p s (s.slotWords p l) := by
  simp only [State.slotWords]
  split
  · exact SlotsWritten.words hp _ (fun w hw => (of_decide_eq_true (List.mem_filter.1 hw).2).1) hu
  · exact SlotsWritten.refl p s
theorem State.slotWords_none {l : List (Nat × W64)} (h : l = [] ∨ p ≠ 64 ∧ p ≠ 70) : s.slotWords p l = s := by
  rcases h with rfl | h
  · exact ite_self s
  · exact if_neg fun hp => hp.elim h.1 h.2
/-- A word written to a slot that the port owns is there (10/R277). -/
theorem State.slotWords_one (hu : s.stake.up = true) (hp : p = 64 ∨ p = 70) {off : Nat} (ho : off < 0xC00) (h8 : off % 8 = 0)
    (hown : (s.port p).owner.testBit (off / 8 / 24) = false) (w : W64) :
    ((s.slotWords p [(off, w)]).port p).words.get 0 (off / 8) = w := by
  have hw : s.slotWords p [(off, w)] = s.mbxWrite p off w := by simp [State.slotWords, hp, ho, h8]
  rw [hw, State.mbxWrite_slot hu (by omega) ho, State.mbxSlotWrite, hown]
  simp

end

end Sys2Proof.Machine

namespace Sys2Proof.Proofs
open Sys2Proof Sys2Proof.Machine Sys2Proof.Claims

/-- Settles O33: what writes to slots leave of a port, then the doorbell, the count and the completion by their equations. -/
theorem mailboxRegisters : Obligations.MailboxRegisters := by
  intro s p hp hu
  refine ⟨fun v l ht hs => ⟨_, execMbxDoorbell_there ht v l, ?doorbell⟩, fun ht => ⟨fun v l => ?noTransport, fun v => ?noTransport'⟩,
    fun v ht hv => ⟨_, execMbxCqCons_there ht v, ?cons⟩, fun v hv => ?consIgnored,
    fun c r hc hroom => ⟨_, rfl, State.mbxPost_writes hc hroom⟩, fun c r hc hfull => congrArg _ (State.mbxPost_full hfull),
    fun h64 hs hn => ?suspends, fun d hd hclock => ?resumes⟩
  case doorbell =>
    have hw := SlotsWritten.slotWords hu hp l
    rw [State.mbxWrite_doorbell (hw.up.trans hu) hp, State.port_mbxDoorbell (hw.up.trans hu) (hw.suspended.trans hs), hw.owner, hw.queue]
    refine ⟨rfl, rfl, fun hl => ?_, fun off w hl h64 ho h8 hown => ?_⟩
    · rw [State.slotWords_none hl]
    · subst hl
      exact State.slotWords_one hu h64 ho h8 hown w
  case noTransport => simp only [exec_mbxDoorbell, execMbxDoorbell, ht, Bool.not_false, if_true]
  case noTransport' => simp only [exec_mbxCqCons, execMbxCqCons, ht, Bool.false_eq_true, if_false]
  case cons =>
    rw [State.mbxWrite_cqCons hu hp, State.mbxCqCons_moves hu hv, State.port_setPort_self]
  case consIgnored =>
    rw [exec_mbxCqCons, execMbxCqCons, State.mbxWrite_cqCons hu hp, State.mbxCqCons_ignored hv, ite_self]
  case suspends =>
    have hgo : ¬ (p.val = 64 ∨ 71 ≤ p.val ∨ (s.port p.val).suspended.isSome ∨
        ((s.port p.val).counts.filter fun t => s.clock < t + secs 1).length < 256) := by
      rw [hs]
      rintro (h | h | h | h)
      · exact h64 h
      · omega
      · exact absurd h (by decide)
      · exact Nat.not_lt.2 hn h
    exact ⟨_, if_neg hgo, congrArg MbxPort.suspended (State.port_setPort_self ..)⟩
  case resumes =>
    have h : execPortSuspensionEnd p s = .next (s.modPort p.val fun x => { x with suspended := none, counts := [] }) := by
      simp only [execPortSuspensionEnd, hd]
      exact if_pos hclock
    refine ⟨_, h, ?_⟩
    rw [State.port_modPort_self]
    exact ⟨rfl, rfl⟩

end Sys2Proof.Proofs

/-! ## Sessions of officers and auditors (10/R295, R299, 11/R319, 21/R577) -/

namespace Sys2Proof.Machine

section
variable {s : State}

/-! A card's answer to a challenge (10/R295). -/

theorem State.challenge_good (h : s.stake.lockedAt = none) : s.challenge true = s.modStake fun m => { m with fails := 0 } := by
  simp [State.challenge, h]
theorem State.challenge_bad (h : s.stake.lockedAt = none) : s.challenge false = s.challengeFailed := by
  simp [State.challenge, h]
theorem State.challenge_locked (h : s.stake.lockedAt.isSome) (ok : Bool) : s.challenge ok = s := by
  simp [State.challenge, h]
/-- Every answer leaves the session, the approvals and the clock as they are. -/
theorem State.challenge_keeps (s : State) (ok : Bool) :
    (s.challenge ok).stake.session = s.stake.session ∧ (s.challenge ok).stake.approvals = s.stake.approvals ∧
      (s.challenge ok).clock = s.clock := by
  simp only [State.challenge, State.challengeFailed]
  repeat' split
  all_goals exact ⟨rfl, rfl, rfl⟩
/-- The eighth failed answer in a row locks the port. -/
theorem State.challengeFailed_eighth (h : 7 ≤ s.stake.fails) : s.challengeFailed.stake.lockedAt = some s.clock := by
  simp only [State.challengeFailed, if_pos (Nat.succ_le_succ h)]
  rfl
/-- An earlier one counts. -/
theorem State.challengeFailed_counts (h : s.stake.fails < 7) :
    s.challengeFailed.stake.fails = s.stake.fails + 1 ∧ s.challengeFailed.stake.lockedAt = s.stake.lockedAt := by
  simp only [State.challengeFailed, if_neg (Nat.not_le.2 (Nat.succ_lt_succ h))]
  exact ⟨rfl, rfl⟩

/-- After ownership a card answers if it is enrolled. -/
theorem State.cardOk_owned (h : s.bbkm.life ≠ 1) (c : Nat) : s.cardOk c true = decide (c ∈ s.bbkm.cards) := by
  simp [State.cardOk, h]
/-- Two cards that answer open a session; otherwise the answers count (10/R295). -/
theorem execOfficerSessionOpen_tried {c0 c1 : BitVec 384} (hu : s.stake.up = true) (ho : s.officer = none)
    (hl : s.stake.lockedAt = none) (hc : c0 ≠ c1) (good0 good1 : Bool) :
    execOfficerSessionOpen c0 c1 good0 good1 s =
      .next (if s.cardOk c0.toNat good0 = true ∧ s.cardOk c1.toNat good1 = true then
        s.sessionEnds.modStake fun m => { m with session := some { c0 := c0.toNat, c1 := c1.toNat, last := s.clock }, fails := 0 }
      else (s.challenge (s.cardOk c0.toNat good0)).challenge (s.cardOk c1.toNat good1)) := by
  simp only [execOfficerSessionOpen, hu, ho, hl, hc, Bool.not_true, Bool.false_eq_true, Option.isSome_none, or_self, if_false]
  split <;> rfl

/-- The first card shows an approval that no creel of it has (21/R577). -/
theorem execCardPoll_approval {e : Session} (ho : s.officer = some e) (cr : CreelId) (name : W64) (op : BitVec 16)
    (hnew : ∀ a ∈ s.stake.approvals, a.creel ≠ cr.val) :
    ∃ t, execCardPoll 0 (.approval cr name op) true s = .next t ∧
      { creel := cr.val, name := name, op := op.toNat, by0 := true, by1 := false, since := s.clock } ∈ t.stake.approvals := by
  obtain ⟨-, ha, hclock⟩ := s.challenge_keeps true
  have hnone (p : Approval → Bool) : (s.challenge true).stake.approvals.find? (fun a =>
      (a.creel = cr.val && a.name == name && a.op == op.toNat) && p a) = none := by
    rw [ha, List.find?_eq_none]
    intro a h
    simp [hnew a h]
  simp only [execCardPoll, ho, hnone]
  refine ⟨_, rfl, List.mem_append_right _ ?_⟩
  rw [← hclock]
  exact List.mem_singleton_self _

/-! Auditor sessions (10/R299). -/

theorem leNat_toLe (n v : Nat) : leNat (toLe n v) = v % 256 ^ n := by
  induction n generalizing v with
  | zero => exact (Nat.mod_one v).symm
  | succ n ih =>
    have h : v % 256 ^ (n + 1) = v % 256 + 256 * (v / 256 % 256 ^ n) := (congrArg (v % ·) Nat.pow_succ').trans Nat.mod_mul
    exact (congrArg ((BitVec.ofNat 8 v).toNat + 256 * ·) (ih (v / 256))).trans h.symm
/-- A message too short for an operation, an offset and a length closes its session. -/
theorem execAuditorMessage_short {a : Fin 2} {m : Bytes} (ha : s.stake.auditors.has a = true) (hm : m.length < 12) :
    execAuditorMessage a m s = .next (s.modStake fun x => { x with auditors := x.auditors.erase a }) := by
  simp only [execAuditorMessage, ha, Bool.not_true, Bool.false_eq_true, if_false]
  exact if_pos fun h => Nat.not_le.2 hm h.1
/-- A message that asks for one word is answered with it, and the session goes on. -/
theorem execAuditorMessage_read {a : Fin 2} {off : Nat} (ha : s.stake.auditors.has a = true) (h8 : off % 8 = 0) (ho : off + 8 ≤ 4096) :
    execAuditorMessage a (toLe 4 1 ++ toLe 4 off ++ toLe 4 8) s =
      .next ((s.modStake fun x => { x with auditors := x.auditors.set a s.clock }).emit 6 [a.val, (s.mbxRead (65 + a.val) off).toNat]) := by
  have hop : leNat ((toLe 4 1 ++ toLe 4 off ++ toLe 4 8).take 4) = 1 := by
    rw [List.append_assoc, List.take_left' (toLe_length 4 1)]
    exact leNat_toLe 4 1
  have hoff : leNat (((toLe 4 1 ++ toLe 4 off ++ toLe 4 8).drop 4).take 4) = off := by
    rw [List.append_assoc, List.drop_left' (toLe_length 4 1), List.take_left' (toLe_length 4 off)]
    exact (leNat_toLe 4 off).trans (Nat.mod_eq_of_lt (by omega))
  have hlen : leNat (((toLe 4 1 ++ toLe 4 off ++ toLe 4 8).drop 8).take 4) = 8 := by
    rw [List.drop_left' (by simp), List.take_of_length_le (by simp)]
    exact leNat_toLe 4 8
  simp only [execAuditorMessage, ha, Bool.not_true, Bool.false_eq_true, if_false, hop, hoff, hlen]
  rw [if_neg]
  · rfl
  · simp [h8, ho]

end

end Sys2Proof.Machine

namespace Sys2Proof.Proofs
open Sys2Proof Sys2Proof.Machine Sys2Proof.Claims

/-- Settles O35: what an answer to a challenge leaves, the messages of auditors by the numbers they spell, the rest by its branch. -/
theorem sessionsOfOfficersAndAuditors : Obligations.SessionsOfOfficersAndAuditors := by
  intro s
  refine ⟨fun c0 c1 hu ho hl hc hlife => ⟨fun h0 h1 => ?opens, fun h0 h1 hf => ?locks, fun h0 h1 => ?counts⟩,
    fun e rem he hend => ?sessionEnd, fun d hd hend => ?lockoutEnd, fun e he cr nm op hnew => execCardPoll_approval he cr nm op hnew,
    ⟨_, rfl, fun a => ?expiry⟩, fun key hu hlife hfit => ?auditorOpen, fun a m ha hm => ?short, fun a off ha h8 ho => ?read,
    fun a ha => ?auditorEnd⟩
  case opens =>
    refine ⟨_, execOfficerSessionOpen_tried hu ho hl hc true true, ?_⟩
    rw [State.cardOk_owned hlife, State.cardOk_owned hlife, if_pos ⟨decide_eq_true h0, decide_eq_true h1⟩]
    exact ⟨rfl, rfl, rfl⟩
  case locks =>
    refine ⟨_, execOfficerSessionOpen_tried hu ho hl hc true true, ?_⟩
    rw [State.cardOk_owned hlife, State.cardOk_owned hlife, decide_eq_false h0, decide_eq_false h1, if_neg (by decide),
      State.challenge_bad hl]
    have hlocked : s.challengeFailed.stake.lockedAt = some s.clock := State.challengeFailed_eighth (Nat.le_of_eq hf.symm)
    rw [State.challenge_locked (by rw [hlocked]; rfl)]
    exact ⟨(State.challenge_bad hl ▸ s.challenge_keeps false).1, hlocked⟩
  case counts =>
    refine ⟨_, execOfficerSessionOpen_tried hu ho hl hc true true, ?_⟩
    rw [State.cardOk_owned hlife, State.cardOk_owned hlife, decide_eq_true h0, decide_eq_false h1, if_neg (by decide),
      State.challenge_good hl]
    have hl' : (s.modStake fun m => { m with fails := 0 }).stake.lockedAt = none := hl
    obtain ⟨hfails, hlocked⟩ := State.challengeFailed_counts (s := s.modStake fun m => { m with fails := 0 }) (by decide : 0 < 7)
    rw [State.challenge_bad hl']
    exact ⟨(State.challenge_bad hl' ▸ State.challenge_keeps _ false).1, hfails, hlocked.trans hl⟩
  case sessionEnd =>
    have h : execOfficerSessionEnd rem s = .next s.sessionEnds := by
      simp only [execOfficerSessionEnd, he]
      exact if_pos hend
    exact ⟨_, h, rfl, rfl, rfl⟩
  case lockoutEnd =>
    have h : execChallengeLockoutEnd s = .next (s.modStake fun m => { m with lockedAt := none, fails := 0 }) := by
      simp only [execChallengeLockoutEnd, hd]
      exact if_pos hend
    exact ⟨_, h, rfl, rfl⟩
  case expiry =>
    have h : (a.by0 = true ∧ a.by1 = true ∧ a.since + 600 * 2 ^ 32 ≤ s.clock) ↔
        (a.by0 && a.by1 && decide (a.since + secs 600 ≤ s.clock)) = true := by
      rw [Bool.and_eq_true, Bool.and_eq_true, decide_eq_true_iff, and_assoc]
      rfl
    rw [h, Bool.not_eq_true, ← Bool.not_eq_true']
    exact List.mem_filter
  case auditorOpen =>
    have hfirst : [0, 1].find? (fun a => s.auditorFits a key.toNat) = some 0 := List.find?_cons_of_pos hfit
    have h : execAuditorSessionOpen key s = .next (s.modStake fun m => { m with auditors := m.auditors.set 0 s.clock }) := by
      simp only [execAuditorSessionOpen, hu, hlife, hfirst, Bool.not_true, Bool.false_eq_true, or_self, if_false]
    exact ⟨_, h, FMap.has_set_self .., FMap.get_set_self ..⟩
  case short => exact ⟨_, execAuditorMessage_short ha hm, FMap.has_erase_self ..⟩
  case read => exact ⟨_, execAuditorMessage_read ha h8 ho, rfl⟩
  case auditorEnd =>
    exact ⟨_, if_pos ⟨ha, .inl rfl⟩, FMap.has_erase_self ..⟩

end Sys2Proof.Proofs

/-! ## What frames to the partner and writes of the hub leave of the vault (11/R323, R332, 15/R439, R447 to R449) -/

namespace Sys2Proof.Machine

/-- `t` is `s` but for what the pairing link carries: the pairing unit, what is emitted and the creels' counters. -/
def LinkOnly (s t : State) : Prop := t = { s with pair := t.pair, emitted := t.emitted, creels := t.creels }
/-- The vault of `t` and its chains in BBKM are those of `s`. -/
def VaultKept (s t : State) : Prop := t.vault = s.vault ∧ t.bbkm = s.bbkm

section
variable {s t u : State}

theorem LinkOnly.refl (s : State) : LinkOnly s s := rfl
theorem LinkOnly.trans (h : LinkOnly s t) (k : LinkOnly t u) : LinkOnly s u := by
  unfold LinkOnly at h k ⊢
  rw [h] at k
  exact k
theorem LinkOnly.foldl {α : Type} {f : State → α → State} (hf : ∀ s a, LinkOnly s (f s a)) (l : List α) (s : State) :
    LinkOnly s (l.foldl f s) := by
  induction l generalizing s with
  | nil => exact LinkOnly.refl s
  | cons a r ih => exact (hf s a).trans (ih _)
theorem LinkOnly.mem (h : LinkOnly s t) : t.mem = s.mem := by rw [h]
theorem LinkOnly.vaultKept (h : LinkOnly s t) : VaultKept s t := ⟨by rw [h], by rw [h]⟩

theorem VaultKept.refl (s : State) : VaultKept s s := ⟨rfl, rfl⟩
theorem VaultKept.trans (h : VaultKept s t) (k : VaultKept t u) : VaultKept s u := ⟨k.1.trans h.1, k.2.trans h.2⟩
theorem VaultKept.foldl {α : Type} {f : State → α → State} (hf : ∀ s a, VaultKept s (f s a)) (l : List α) (s : State) :
    VaultKept s (l.foldl f s) := by
  induction l generalizing s with
  | nil => exact VaultKept.refl s
  | cons a r ih => exact (hf s a).trans (ih _)
theorem VaultKept.ite {p : Prop} [Decidable p] (h : VaultKept s t) (k : VaultKept s u) : VaultKept s (if p then t else u) := by
  split
  · exact h
  · exact k
theorem VaultKept.audit (h : VaultKept s t) (n : Nat) : t.audit n = s.audit n := by rw [State.audit, h.1, State.audit]
theorem VaultKept.chain (h : VaultKept s t) (n : Nat) : t.chain n = s.chain n := by rw [State.chain, h.2, State.chain]
theorem CacheOnly.vaultKept (h : CacheOnly s t) : VaultKept s t := ⟨by rw [h.1], by rw [h.1]⟩
theorem ReportsOnly.vaultKept (h : ReportsOnly s t) : VaultKept s t := ⟨by rw [h], by rw [h]⟩

end

section
variable (s : State)

/-! Frames, captured lines and commits. -/

theorem LinkOnly.sendFrame (cls : Nat) (m : PairMsg) : LinkOnly s (s.sendFrame cls m) := rfl
theorem LinkOnly.sendLine (cr line : Nat) : LinkOnly s (s.sendLine cr line) := by
  simp only [State.sendLine]
  split <;> rfl
theorem LinkOnly.capture (cr agent : Nat) (lines : List Nat) : LinkOnly s (s.capture cr agent lines) := by
  simp only [State.capture]
  split
  · exact LinkOnly.refl s
  · refine LinkOnly.foldl (fun s l => ?_) _ s
    split
    · exact LinkOnly.refl s
    · split
      · exact LinkOnly.trans (t := s.modPair _) rfl (LinkOnly.sendLine ..)
      · rfl
theorem LinkOnly.sendCaptured (cr : Nat) : LinkOnly s (s.sendCaptured cr) :=
  LinkOnly.trans (t := s.modPair _) rfl (LinkOnly.foldl (fun s l => LinkOnly.sendLine s cr l) _ _)
theorem LinkOnly.marked (f : Pair → Pair) (cls cr : Nat) (m : PairMsg) : LinkOnly s (((s.modPair f).sendFrame cls m).ucAdd cr 0x58 1) := rfl
theorem LinkOnly.commit (cr : Nat) (vault : Bool) (who : Waiter) : LinkOnly s (s.commit cr vault who) :=
  LinkOnly.trans (LinkOnly.sendCaptured s cr) (LinkOnly.marked ..)
theorem LinkOnly.vaultChange (cr : Nat) (m : PairMsg) : LinkOnly s (s.vaultChange cr m) := by
  simp only [State.vaultChange]
  split
  · exact (LinkOnly.sendFrame s 2 m).trans (LinkOnly.commit ..)
  · exact LinkOnly.refl s

/-! Errors, stores to memory and to devices. -/

theorem VaultKept.raiseFixed (k cr : Nat) : VaultKept s (s.raiseFixed k cr) := by
  rw [State.raiseFixed_eq]
  exact ⟨rfl, rfl⟩
theorem VaultKept.creelError (cr cls unit code addr inst detail : Nat) : VaultKept s (s.creelError cr cls unit code addr inst detail) := by
  obtain ⟨p, r, t, rfl, h | h⟩ := s.creelError_cases cr cls unit code addr inst detail
  · rw [h]
    exact VaultKept.trans ⟨rfl, rfl⟩ (VaultKept.raiseFixed ..)
  · rw [h]
    exact ⟨rfl, rfl⟩
theorem VaultKept.deferredTo (cr : Option Nat) (unit code pa inst detail : Nat) : VaultKept s (s.deferredTo cr unit code pa inst detail) := by
  cases cr with
  | none => exact ⟨rfl, rfl⟩
  | some c => exact VaultKept.trans (t := s.modBank unit inst _) ⟨rfl, rfl⟩ (VaultKept.creelError ..)
theorem VaultKept.wrMap (m : FMap Byte) : VaultKept s (s.wrMap m) := by
  induction m generalizing s with
  | nil => exact VaultKept.refl s
  | cons p r ih => exact VaultKept.trans ⟨rfl, rfl⟩ (ih (s.wr8 p.1 p.2))
theorem VaultKept.wrBytes (a : Nat) (b : Bytes) : VaultKept s (s.wrBytes a b) := by
  rw [State.wrBytes_eq]
  exact ⟨rfl, rfl⟩
theorem VaultKept.clearPoisons (l : List Nat) : VaultKept s (l.foldl State.clearPoison s) :=
  VaultKept.foldl (f := State.clearPoison) (fun _ _ => ⟨rfl, rfl⟩) l s
theorem VaultKept.store (m : FMap Byte) : VaultKept s (s.store m) := (VaultKept.wrMap s m).trans (VaultKept.clearPoisons ..)
theorem VaultKept.storeBytes (a : Nat) (b : Bytes) : VaultKept s (s.storeBytes a b) :=
  (VaultKept.wrBytes s a b).trans (VaultKept.clearPoisons ..)
theorem VaultKept.fencedWrite (cr : Option Nat) (line : Nat) : VaultKept s (s.fencedWrite cr line) := by
  cases cr with
  | none => exact ⟨rfl, rfl⟩
  | some c => exact VaultKept.trans (t := s.setChan (channelOf line) _) ⟨rfl, rfl⟩ (VaultKept.creelError ..)
theorem VaultKept.postStore (cr : Option Nat) (bytes : FMap Byte) : VaultKept s (s.postStore cr bytes) := by
  simp only [State.postStore]
  split
  · exact VaultKept.refl s
  · split
    · exact ⟨rfl, rfl⟩
    · refine VaultKept.ite ⟨rfl, rfl⟩ ?_
      cases cr with
      | none => exact VaultKept.refl s
      | some c => exact VaultKept.creelError ..
theorem VaultKept.sendRequest (lg tag pa size : Nat) : VaultKept s (s.sendRequest lg tag pa size) := by
  simp only [State.sendRequest]
  split <;> exact ⟨rfl, rfl⟩
end

theorem VaultKept.strictSend {l : List (Nat × Bytes)} {s t : State} {lg port what core creel window : Nat} {q : List StrictStore}
    (h : s.strictSend lg port what core creel window l = some (t, q)) : VaultKept s t := by
  induction l generalizing s t q with
  | nil =>
    obtain ⟨rfl, rfl⟩ : s = t ∧ [] = q := by simpa [State.strictSend] using h
    exact VaultKept.refl s
  | cons p r ih =>
    rw [State.strictSend] at h
    split at h
    next => exact absurd h (by simp)
    next =>
      obtain ⟨⟨u, q'⟩, hu, e⟩ := Option.map_eq_some_iff.1 h
      obtain ⟨rfl, -⟩ := Prod.mk.inj e
      refine VaultKept.trans ?_ (ih hu)
      exact (VaultKept.trans (t := s.addReq lg _) ⟨rfl, rfl⟩ (VaultKept.postStore ..)).trans (VaultKept.sendRequest ..)

section
variable (s : State)

theorem VaultKept.unitPost (cr a : Nat) (b : Bytes) : VaultKept s (s.unitPost cr a b) := by
  simp only [State.unitPost]
  split
  · split
    · split
      next h => exact VaultKept.strictSend h
      next => exact VaultKept.postStore ..
    · exact VaultKept.postStore ..
  · exact VaultKept.postStore ..
theorem VaultKept.unitWrite (cr a : Nat) (b : Bytes) : VaultKept s (s.unitWrite cr a b) := by
  simp only [State.unitWrite]
  split
  · exact VaultKept.unitPost ..
  · have hhome := (CacheOnly.homeWriteRange s a b.length).vaultKept
    split
    · exact (hhome.trans (VaultKept.storeBytes ..)).trans (LinkOnly.capture ..).vaultKept
    · refine VaultKept.trans ?_ (LinkOnly.capture ..).vaultKept
      refine VaultKept.trans ?_ (VaultKept.foldl (fun _ _ => VaultKept.fencedWrite ..) _ _)
      exact hhome.trans (VaultKept.store ..)
theorem VaultKept.notice (cr bit k : Nat) : VaultKept s (s.notice cr bit k) := (ReportsOnly.notice ..).vaultKept

end

/-! ## Audit records and checkpoints (11/R332 to R336) -/

section
variable (s : State)

@[simp] theorem State.audit_setAudit_self (n : Nat) (a : Audit) : (s.setAudit n a).audit n = a := FMap.get_set_self auditReset s.vault.audit n a
@[simp] theorem State.chain_setAudit (n : Nat) (a : Audit) (k : Nat) : (s.setAudit n a).chain k = s.chain k := rfl

/-- A flush writes held records to the ring: the chains stay, and of the creel's audit all but what is held. -/
def FlushedOnly (n : Nat) (s t : State) : Prop := t.bbkm = s.bbkm ∧ ∃ held, t.audit n = { s.audit n with held := held }

theorem FlushedOnly.of_vaultKept {n : Nat} {s t : State} (h : VaultKept s t) : FlushedOnly n s t := ⟨h.2, (s.audit n).held, h.audit n⟩
theorem FlushedOnly.trans {n : Nat} {s t u : State} (h : FlushedOnly n s t) (k : FlushedOnly n t u) : FlushedOnly n s u := by
  obtain ⟨hb, x, hx⟩ := h
  obtain ⟨kb, y, ky⟩ := k
  exact ⟨kb.trans hb, y, by rw [ky, hx]⟩
theorem FlushedOnly.setHeld (n : Nat) (held : List Bytes) : FlushedOnly n s (s.setAudit n { s.audit n with held := held }) :=
  ⟨rfl, held, State.audit_setAudit_self ..⟩
theorem FlushedOnly.auditFlush (n f : Nat) : FlushedOnly n s (s.auditFlush n f) := by
  induction f generalizing s with
  | zero => exact .of_vaultKept (VaultKept.refl s)
  | succ f ih =>
    simp only [State.auditFlush]
    split
    · exact .of_vaultKept (VaultKept.refl s)
    next r rest _ =>
      split
      · exact .of_vaultKept (VaultKept.refl s)
      · have hw := VaultKept.unitWrite s n ((s.audit n).ring + 128 * (leNat (r.take 8) % 2 ^ (s.audit n).log2n)) r
        refine FlushedOnly.trans ?_ (ih _)
        exact ⟨hw.2, rest, State.audit_setAudit_self ..⟩

/-- A record that has joined a chain, before the checkpoint that it may bring: the chain is one longer, and of a creel's audit all but
what is held is as before. -/
theorem State.auditAppend_joins (n sec st frac w3 w4 : Nat) (k1 k2 c1 : W64) : ∃ t,
    s.auditAppend n sec st frac w3 w4 k1 k2 c1 = (if ((s.chain n).seq + 1) % 65536 = 0 then t.checkpoint n else t) ∧
      (t.chain n).seq = (s.chain n).seq + 1 ∧ (t.audit n).waiting = (s.audit n).waiting := by
  simp only [State.auditAppend]
  refine ⟨_, rfl, ?_⟩
  generalize auditRecord _ _ _ _ _ _ _ _ _ _ = r
  let j := s.modBbkm fun b => { b with chains := b.chains.set n { s.chain n with seq := (s.chain n).seq + 1, head := sha384 r } }
  have hj : (j.chain n).seq = (s.chain n).seq + 1 := congrArg Chain.seq (FMap.get_set_self ..)
  suffices h : ∀ t, FlushedOnly n j t → (t.chain n).seq = (s.chain n).seq + 1 ∧ (t.audit n).waiting = (s.audit n).waiting by
    refine h _ ?_
    split
    · have hf := (FlushedOnly.setHeld j n ((j.audit n).held ++ [r])).trans (FlushedOnly.auditFlush _ n ((j.audit n).held.length + 1))
      split
      · exact hf
      · refine (hf.trans ?_).trans (.of_vaultKept (VaultKept.notice ..))
        exact .of_vaultKept (VaultKept.ite (VaultKept.creelError ..) (VaultKept.refl _))
    · exact .of_vaultKept (VaultKept.refl _)
  rintro t ⟨hb, held, ha⟩
  refine ⟨?_, ?_⟩
  · rw [State.chain, hb]
    exact hj
  · rw [ha]
    rfl
theorem State.checkpoint_seq (n : Nat) : ((s.checkpoint n).chain n).seq = (s.chain n).seq := by
  have h : (s.checkpoint n).bbkm.chains = s.bbkm.chains.set n { s.chain n with cps := (s.chain n).cps + 1 } := by
    simp only [State.checkpoint]
    split <;> rfl
  rw [State.chain, h, FMap.get_set_self]
theorem State.auditAppend_seq (n sec st frac w3 w4 : Nat) (k1 k2 c1 : W64) :
    ((s.auditAppend n sec st frac w3 w4 k1 k2 c1).chain n).seq = (s.chain n).seq + 1 := by
  obtain ⟨t, ht, hseq, -⟩ := s.auditAppend_joins n sec st frac w3 w4 k1 k2 c1
  rw [ht]
  split
  · rw [State.checkpoint_seq, hseq]
  · exact hseq
theorem State.auditAppend_waiting {n : Nat} (h : ((s.chain n).seq + 1) % 65536 ≠ 0) (sec st frac w3 w4 : Nat) (k1 k2 c1 : W64) :
    ((s.auditAppend n sec st frac w3 w4 k1 k2 c1).audit n).waiting = (s.audit n).waiting := by
  obtain ⟨t, ht, -, hw⟩ := s.auditAppend_joins n sec st frac w3 w4 k1 k2 c1
  rw [ht, if_neg h]
  exact hw

end

end Sys2Proof.Machine

/-! ## What the Hamper does of itself (11/R323, R324, R330, R331, R335, 12/R364, 21/R579) -/

namespace Sys2Proof

theorem FMap.get_map_const {α : Type} (d v : α) {l : List Nat} {i : Nat} (h : i ∈ l) : FMap.get d (l.map fun k => (k, v)) i = v := by
  induction l with
  | nil => exact absurd h List.not_mem_nil
  | cons k r ih =>
    simp only [List.map_cons, FMap.get]
    split
    next => rfl
    next hne => exact ih ((List.mem_cons.1 h).resolve_left fun e => hne e.symm)

end Sys2Proof

namespace Sys2Proof.Machine

section
variable (s : State)

/-! The device log and the reserve: a notice records nothing, a retirement one entry. -/

theorem State.notice_log (cr bit k : Nat) : (s.notice cr bit k).log = s.log := by
  simp only [State.notice]
  split
  · rfl
  · rw [State.raiseFixed_log]
    rfl
theorem State.notice_reserve (cr bit k : Nat) : (s.notice cr bit k).reserve = s.reserve := by
  simp only [State.notice, State.raiseFixed, State.raiseHeld]
  repeat' split
  all_goals rfl
theorem State.notices_keep (l : List Nat) (bit k : Nat) :
    (l.foldl (fun s c => s.notice c bit k) s).log = s.log ∧ (l.foldl (fun s c => s.notice c bit k) s).reserve = s.reserve := by
  induction l generalizing s with
  | nil => exact ⟨rfl, rfl⟩
  | cons c r ih =>
    obtain ⟨hl, hr⟩ := ih (s.notice c bit k)
    exact ⟨hl.trans (State.notice_log ..), hr.trans (State.notice_reserve ..)⟩
theorem State.retiredRec_log_length (kind old new : Nat) (uses : Nat → Bool) :
    (s.retiredRec kind old new uses).log.length = s.log.length + 1 := by
  simp only [State.retiredRec, (State.notices_keep ..).1]
  exact List.length_append
theorem State.retiredRec_hamper (kind old new : Nat) (uses : Nat → Bool) :
    (s.retiredRec kind old new uses).reserve.hamper = s.reserve.hamper := by
  simp only [State.retiredRec, (State.notices_keep ..).2]
  rfl
/-- A unit above the 60 % margin that is retired leaves one entry of the log, and takes a reserve unit of its class while there is one. -/
theorem State.retireHamper_keeps {e margin : Nat} (hm : 60 ≤ margin) : ReportsOnly s (s.retireHamper e margin) ∧
    (s.retireHamper e margin).log.length = s.log.length + 1 ∧
    (s.reserve.hamper.get 0 (hamperClass e) < hamperReserve (hamperClass e) →
      (s.retireHamper e margin).reserve.hamper.get 0 (hamperClass e) = s.reserve.hamper.get 0 (hamperClass e) + 1) := by
  simp only [State.retireHamper]
  split
  next =>
    refine ⟨.trans (t := { s with reserve := _ }) rfl (ReportsOnly.retiredRec ..), State.retiredRec_log_length .., fun _ => ?_⟩
    rw [State.retiredRec_hamper]
    exact FMap.get_set_self ..
  next h =>
    rw [if_neg (by omega)]
    exact ⟨rfl, List.length_append, fun hn => absurd hn h⟩

theorem State.deferredTo_log_length (cr unit code pa inst detail : Nat) :
    (s.deferredTo (some cr) unit code pa inst detail).log.length = s.log.length + 1 := by
  simp only [State.deferredTo, State.creelError_log_length]
  rfl

/-! Key objects. -/

variable {s}

/-- What a handle that names an object of a creel says. -/
theorem State.objOf_eq_some {cr : Nat} {h : W64} {k : KeyObj} (hk : s.objOf cr h = some k) :
    h ≠ 0 ∧ k.handle = h ∧ attrCreel k.w0 = cr := by
  simp only [State.objOf] at hk
  split at hk
  next hn =>
    split at hk
    next hc =>
      obtain rfl := Option.some.inj hk
      exact ⟨hn.1, hc.1, hc.2⟩
    next => exact absurd hk (by simp)
  next => exact absurd hk (by simp)
theorem State.objOf_setObj_self {k : KeyObj} (hn : k.handle ≠ 0) : (s.setObj k).objOf (attrCreel k.w0) k.handle = some k := by
  simp only [State.objOf, State.setObj, State.modVault, FMap.has_set_self, FMap.get_set_self]
  simp only [hn, ne_eq, not_false_eq_true, and_self, if_true]
theorem VaultKept.objOf {s t : State} (h : VaultKept s t) (cr : Nat) (x : W64) : t.objOf cr x = s.objOf cr x := by
  rw [State.objOf, h.1, State.objOf]

/-! Checkpoints that are signed. -/

/-- A checkpoint that the area has room for is signed: the record of its signature joins the chain, and the others wait on. -/
theorem execCheckpointSigned_next {cr : CreelId} {n : Nat} {body : Bytes} {rest : List (Nat × Bytes)} {s : State}
    (hw : (s.audit cr).waiting = (n, body) :: rest) (hset : (s.audit cr).set = true)
    (hroom : n < (s.audit cr).cpUsed + (s.audit cr).slots)
    (hdma : s.dmaOk cr ((s.audit cr).area + 40960 * (n % max 1 (s.audit cr).slots)) 40960 true = true) :
    ∃ t : State,
      exec (.checkpointSigned cr) s =
        .next (t.auditAppend cr t.hoop.sec t.hoop.st t.hoop.frac (3 * 2 ^ 8) (n % max 1 (s.audit cr).slots) 0 0 0) ∧
      t.chain cr = s.chain cr ∧ (t.audit cr).waiting = rest := by
  have hgo : ¬ (!(s.audit cr).set ∨ (s.audit cr).cpUsed + (s.audit cr).slots ≤ n ∨
      !s.dmaOk cr ((s.audit cr).area + 40960 * (n % max 1 (s.audit cr).slots)) 40960 true) := by
    rw [hset, hdma]
    simpa using hroom
  simp only [exec, execCheckpointSigned, hw, if_neg hgo]
  refine ⟨_, rfl, ?_, ?_⟩
  · rw [State.chain_setAudit, (VaultKept.unitWrite ..).chain]
    rfl
  · rw [State.audit_setAudit_self]

end

end Sys2Proof.Machine

/-! ## The Hamper's housekeeping (O48) -/

namespace Sys2Proof.Proofs

open Sys2Proof Sys2Proof.Machine Sys2Proof.Claims

/-- Settles O48, row by row: what a creel's error, a frame to the partner and a write of the hub leave of the vault; an audit record
makes its chain one longer. -/
theorem hamperHousekeeping : Obligations.HamperHousekeeping := by
  intro s
  refine ⟨fun n hhas hopen hlim => ⟨fun hin => ?stays, fun hout => ?expires⟩, fun cr => ?arqc, fun cr n body rest hw hset hroom hdma => ?signed,
    fun cr hw => ?noneWaits, fun cr h k hk => ⟨?fill, ?bad⟩, fun inst hent hdue => ?reseed, fun hent => ?healthFails,
    fun hent => ⟨?rerunPasses, fun hr => ?rerunFails, fun hr => ?rerunLast⟩,
    fun e => ⟨?passes, fun he => ?breaks, fun he hn => ?firstFailure, fun he hn => ?retires⟩⟩
  case stays =>
    simp only [exec, execSessionExpiry]
    exact if_neg fun hx => absurd hx.2.2.2 (by omega)
  case expires =>
    let x := { s.session n with closed := 2 }
    have hrow : exec (.sessionExpiry n) s = .next ((s.setSession n x).vaultChange x.creel ((s.setSession n x).sessMsg n)) := by
      simp only [exec, execSessionExpiry]
      exact if_pos ⟨hhas, hopen, hlim, hout⟩
    have hlink := LinkOnly.vaultChange (s.setSession n x) x.creel ((s.setSession n x).sessMsg n)
    obtain ⟨hv, -⟩ := hlink.vaultKept
    refine ⟨_, hrow, ?_, ?_, hlink.mem⟩
    · rw [State.session, hv]
      exact FMap.get_set_self ..
    · rw [hv]
      rfl
  case arqc =>
    exact ⟨_, rfl, FMap.get_set_self .., rfl, rfl⟩
  case signed =>
    obtain ⟨t, hrow, hchain, hrest⟩ := execCheckpointSigned_next hw hset hroom hdma
    refine ⟨_, hrow, ?_, fun hseq => ?_⟩
    · rw [State.auditAppend_seq, hchain]
    · rw [State.auditAppend_seq] at hseq
      rw [State.auditAppend_waiting _ hseq, hrest]
  case noneWaits => simp only [exec, execCheckpointSigned, hw]
  case fill =>
    have hrow : exec (.keyCacheFill cr h .none) s = .next (s.cacheTouch cr (handleIx h)) := by simp only [exec, execKeyCacheFill, hk]
    exact ⟨_, hrow, FMap.get_set_self .., rfl⟩
  case bad =>
    obtain ⟨hne, rfl, hcr⟩ := State.objOf_eq_some hk
    have hrow : exec (.keyCacheFill cr k.handle .dataUncorrectable) s =
        .next ((s.setObj { k with bad := true }).deferredTo (some cr.val) 6 0x41 0 0 (handleIx k.handle)) := by
      simp only [exec, execKeyCacheFill, hk]
    have hkept := VaultKept.deferredTo (s.setObj { k with bad := true }) (some cr.val) 6 0x41 0 0 (handleIx k.handle)
    refine ⟨_, hrow, ?_, State.deferredTo_log_length .., ?_⟩
    · rw [hkept.objOf, ← hcr]
      exact State.objOf_setObj_self (k := { k with bad := true }) hne
    · rw [hkept.1]
      rfl
  case reseed =>
    have hrow : exec (.drbgReseed inst) s = .next (s.modVault fun v => { v with drbg := v.drbg.set inst { requests := 0, since := s.now } }) := by
      simp only [exec, execDrbgReseed]
      exact if_pos ⟨hent, hdue⟩
    exact ⟨_, hrow, FMap.get_set_self .., rfl⟩
  case healthFails => exact ⟨_, if_pos hent, rfl⟩
  case rerunPasses =>
    exact ⟨_, if_neg (not_not_intro hent), rfl, fun i hi => FMap.get_map_const _ _ (List.mem_range.2 hi)⟩
  case rerunFails =>
    have hrow : exec (.healthTestRerun false) s = .next (s.modVault fun v => { v with reruns := v.reruns + 1 }) := by
      simp only [exec, execHealthTestRerun]
      rw [if_neg (not_not_intro hent), if_neg Bool.false_ne_true, if_pos (by omega)]
    exact ⟨_, hrow, rfl⟩
  case rerunLast =>
    have hrow : exec (.healthTestRerun false) s = .next ((s.modVault fun v => { v with entropy := 2, reruns := 3 }).note 6 0 0) := by
      simp only [exec, execHealthTestRerun]
      rw [if_neg (not_not_intro hent), if_neg Bool.false_ne_true, if_neg (by omega)]
    exact ⟨_, hrow, rfl, List.length_append⟩
  case passes => exact ⟨_, rfl, FMap.has_erase_self .., rfl⟩
  case breaks => exact ⟨_, if_pos he, rfl⟩
  case firstFailure =>
    have hrow : exec (.knownAnswerTest e false) s = .next (s.modVault fun v => { v with engines := v.engines.set e 1 }) := by
      simp only [exec, execKnownAnswerTest]
      rw [if_neg Bool.false_ne_true, if_neg (by omega), if_pos hn]
    exact ⟨_, hrow, rfl⟩
  case retires =>
    have hrow : exec (.knownAnswerTest e false) s = .next ((s.modVault fun v => { v with engines := v.engines.erase e }).retireHamper e 100) := by
      simp only [exec, execKnownAnswerTest]
      rw [if_neg Bool.false_ne_true, if_neg (by omega), if_neg hn]
    obtain ⟨hrep, hlog, hres⟩ :=
      (s.modVault fun v => { v with engines := v.engines.erase e }).retireHamper_keeps (e := e) (margin := 100) (by omega)
    refine ⟨_, hrow, ?_, hlog, hres⟩
    rw [hrep.vaultKept.1]
    exact FMap.has_erase_self ..

end Sys2Proof.Proofs

/-! ## Memory out of its canonical form (O43 to O45, O47)

These obligations speak of every state, not only of those whose memory is in canonical form (`State.memOk`). A zero byte is stored by
dropping its cell, and the search for the cell stops at the first higher address: in a list whose addresses fall, a zero is lost. -/

namespace Sys2Proof.Proofs

open Sys2Proof Sys2Proof.Machine Sys2Proof.Claims

/-- Two bytes 1, at 0x200000 and above it, listed with falling addresses. -/
def fallingMem : Mem := { cells := [(0x200001, 1), (0x200000, 1)], poison := [], scr := [] }
theorem fallingMem_loses_zero : fallingMem.wf = false ∧ (fallingMem.write 0x200000 0).read 0x200000 = 1 := by decide
/-- A device with that memory and this vault, in which creel 1 runs and holds ring 0. -/
def fallingDevice (v : Vault) : State :=
  { State.reset with
    creels := [(1, { creelReset with
      st := .running, grants := [(0, (0, 0xFFFFFF))], segs := [(0, { w0 := 0x1F, w1 := 0xFFF000 }), (63, hubEntry)], wayMask := 0xFFFF })],
    installed := 2 ^ 36, power := 2, ringHolder := [(0, 1)], mem := fallingMem, vault := v }
/-- A live command of ring 0: the words of its descriptor, and its end once it has one. -/
def ringCmd (words : List W64) (out : Option HDone) : HCmd :=
  { id := 0, origin := .ring 0, creel := 1, index := 0, words := words, since := 0, taken := true, live := true, yielded := false,
    lost := false, out := out }
/-- The device with these key objects and one command that waits for its execution. -/
def holding (objs : FMap KeyObj) (c : HCmd) : State := fallingDevice { vaultReset with cap := 2 ^ 18, objs := objs, active := [c] }
/-- Object 0 of creel 1: an AES-128 key of zeros that is valid for ever and may encrypt and decrypt. -/
def zeroKey : KeyObj :=
  { keyReset with w0 := 0x103000100000000, notAfter := BitVec.allOnes 64, handle := handleOf 1 1 0, secret := zeros 16, version := 1 }

/-- The command answers a next state in which this byte stands at `a`. -/
def leaves (i : Instr) (s : State) (a : Nat) (v : Byte) : Bool :=
  match exec i s with
  | .next t => t.mem.read a == v
  | _ => false
theorem read_of_leaves {i : Instr} {s t : State} {a : Nat} {v : Byte} (h : leaves i s a v = true) (ht : exec i s = .next t) :
    t.mem.read a = v := by
  simp only [leaves, ht, beq_iff_eq] at h
  exact h

section
variable {o : HRow} {s : State} {c : HCmd} {ks : List KeyObj}

/-- `HRow.Ready` for command 0 outside a session, its buffers apart and its keys valid for ever, as conditions that run. -/
def PlainReady (o : HRow) (s : State) (c : HCmd) (ks : List KeyObj) : Prop :=
  (s.hReady 0 o.op = some c ∧ s.vault.broken = false ∧ s.vault.entropy = 0 ∧ (s.creel c.creel).st = .running ∧ c.creel < 64 ∧
    s.hoop.sec = 0) ∧
  (fld (c.w 0) 37 35 = 0 ∧ fld (c.w 0) 47 38 = 0 ∧ fld (c.w 1) 31 24 = 1 ∧ fld (c.w 1) 23 0 = 0 ∧ fld (c.w 8) 31 0 = 0) ∧
  (c.sess = false ∧ fld (c.w 1) 63 32 = 0) ∧
  ((o.k1 = false → c.w 2 = 0) ∧ (o.k2 = false → c.w 3 = 0) ∧ (o.inp = false → c.w 4 = 0) ∧ (o.out = false → c.w 6 = 0) ∧
    (o.aux = false → c.w 7 = 0) ∧ ∀ i < 16, 9 ≤ i → i ∉ o.params → c.w i = 0) ∧
  (BufOk s c o.inp c.inAddr c.inLen false ∧ BufOk s c o.out c.outAddr c.outCap true ∧ BufOk s c o.aux c.auxAddr c.auxLen false) ∧
  (overlapR c.inAddr c.inLen c.outAddr c.outCap = false ∧ overlapR c.inAddr c.inLen c.auxAddr c.auxLen = false ∧
    overlapR c.outAddr c.outCap c.auxAddr c.auxLen = false) ∧
  (o.keys s c).map (s.objOf c.creel) = ks.map some ∧
  ∀ k ∈ ks, k.bad = false ∧ s.poisonedRange (s.skmBase + 4096 * handleIx k.handle) (64 + k.secret.length + k.pub.length) = false ∧
    k.notBefore = 0 ∧ k.notAfter = BitVec.allOnes 64 ∧ k.useLimit = 0

theorem ready_of_plainReady (h : PlainReady o s c ks) : o.Ready s 0 c ks := by
  obtain ⟨⟨hid, hbroken, hent, hst, hcr, hsec⟩, ⟨hw0, hw0', hw1, hw1', hw8⟩, hsess, ⟨hk1, hk2, hi, ho, ha, hp⟩, ⟨hin, hout, haux⟩,
    ⟨hio, hia, hoa⟩, hkeys, hgood⟩ := h
  refine ⟨hid, hbroken, hent, .inl hst, hcr, hw0, hw0', hw1, hw1', hw8, .inl hsess, hk1, hk2, hi, ho, ha,
    fun i h9 h15 => hp i (by omega) h9, hin, hout, haux, .inl hio, hia, hoa, hkeys, fun k hk => ?_⟩
  obtain ⟨hbad, hskm, hnb, hna, hlim⟩ := hgood k hk
  refine ⟨hbad, hskm, fun _ => ⟨.inl ⟨hnb, hna⟩, ?_, ?_, .inl hlim⟩⟩
  · rw [hnb]
    exact Nat.zero_le _
  · rw [hsec]
    exact Nat.zero_le _
/-- A row fails of a command that is ready and under its condition, when its execution leaves the byte 1 at 0x200000 and the effect has
another there. -/
theorem not_completes_of_leaves (hready : PlainReady o s c ks) (hok : o.ok s c ks) (hleaves : leaves (o.instr 0) s 0x200000 1 = true)
    (heffect : ∀ t, o.effect s 0 c ks t → t.mem.read 0x200000 ≠ 1) : ¬ o.Completes := by
  intro h
  obtain ⟨t, ht, he⟩ := h s 0 c ks (ready_of_plainReady hready) hok
  exact heffect t he (read_of_leaves hleaves ht)
/-- An output into the range at 0x200000 whose first byte is zero reads back so. -/
theorem read_of_wrote {objs : FMap KeyObj} {words : List W64} {t : State} {b : Bytes}
    (h : Wrote (holding objs (ringCmd words none)) (ringCmd words none) t b) (hout : (ringCmd words none).outAddr = 0x200000)
    (hlen : 0 < b.length ∧ b.length ≤ 4096) (hb : b.getD 0 0 = 0) : t.mem.read 0x200000 ≠ 1 := by
  have h0 := h rfl (by omega) (fun _ => rfl) 0 hlen.1
  rw [hout, hb] at h0
  rw [show t.mem.read 0x200000 = 0 from h0]
  decide

end

/-- KEY_INFO of the key into 64 bytes at 0x200000. -/
def infoCmd : HCmd := ringCmd [0x106000000000000, 0x1000000, handleOf 1 1 0, 0, 0, 64, 0x200000, 0, 0] none
/-- Decryption by SYM_GCM of no bytes and a tag of 16 zeros at 0x100000, into one byte at 0x200000. -/
def gcmCmd : HCmd := ringCmd [0x304000000000000, 0x1000000, handleOf 1 1 0, 0, 0x100000, 0x1000000001, 0x200000, 0, 0, 0x1001] none
/-- AUDIT_HEAD into 56 bytes at 0x200000. -/
def headCmd : HCmd := ringCmd [0x804000000000000, 0x1000000, 0, 0, 0, 56, 0x200000, 0, 0] none

/-- Refutes O43: KEY_INFO writes the first word of the key, whose lowest byte is zero and is lost in `fallingMem`. -/
theorem not_hamperKeysAndSessions : ¬ Obligations.HamperKeysAndSessions := by
  intro h
  refine not_completes_of_leaves (s := holding [(0, zeroKey)] infoCmd) (c := infoCmd) (ks := [zeroKey]) ?ready ?room ?leaves
    (fun t ht => ?effect) (h _ (.inl (List.mem_of_getElem? (i := 9) rfl)))
  case ready =>
    unfold PlainReady BufOk
    refine ⟨?_, ?_, ?_, ?_, ?_, ?_, ?_, ?_⟩ <;> decide +kernel
  case room => decide
  case leaves => decide +kernel
  case effect => exact read_of_wrote ht.2 (by decide) (by decide +kernel) (by decide +kernel)

/-- Refutes O44: a tag that does not match makes SYM_GCM wipe its output with a zero, which is lost in `fallingMem`. -/
theorem not_hamperCiphersAndPayments : ¬ Obligations.HamperCiphersAndPayments := by
  rintro ⟨h, -⟩
  refine not_completes_of_leaves (s := holding [(0, zeroKey)] gcmCmd) (c := gcmCmd) (ks := [zeroKey]) ?ready ?sized ?leaves
    (fun t ht => ?effect) (h _ (List.mem_of_getElem? (i := 8) rfl))
  case ready =>
    unfold PlainReady BufOk
    refine ⟨?_, ?_, ?_, ?_, ?_, ?_, ?_, ?_⟩ <;> decide +kernel
  case sized => decide +kernel
  case leaves => decide +kernel
  case effect => exact read_of_wrote (ht.2 (by decide +kernel)).2 (by decide) (by decide +kernel) (by decide +kernel)

/-- Refutes O45: AUDIT_HEAD of an empty chain writes the sequence number zero, whose first byte is lost in `fallingMem`. -/
theorem not_hamperSignaturesAndAudit : ¬ Obligations.HamperSignaturesAndAudit := by
  intro h
  refine not_completes_of_leaves (s := holding [] headCmd) (c := headCmd) (ks := []) ?ready ?room ?leaves (fun t ht => ?effect)
    (h _ (List.mem_of_getElem? (i := 9) rfl))
  case ready =>
    unfold PlainReady BufOk
    refine ⟨?_, ?_, ?_, ?_, ?_, ?_, ?_, ?_⟩ <;> decide +kernel
  case room => decide
  case leaves => decide +kernel
  case effect =>
    dsimp only [gives, Fits] at ht
    rw [if_pos (by decide +kernel)] at ht
    exact read_of_wrote ht.2 (by decide) (by decide +kernel) (by decide +kernel)

/-- A command that has ended with status 0 at the start of Hoop time, and whose record has joined the chain. -/
def endedCmd : HCmd :=
  ringCmd [0] (some
    { status := 0, result := 0, waits := false, unmirrored := false, recorded := true, sec := 0, frac := 0, st := 0, k1 := 0, k2 := 0,
      count1 := 0, sess := none })
/-- The device with that command alone, and the completion ring of ring 0 at 0x200000. -/
def endedDevice : State :=
  fallingDevice { vaultReset with rings := [(0, { ringReset with ring := 0x100004, cq := 0x200000, ctl := 1 })], active := [endedCmd] }

/-- Refutes O47: the entry of a command of ring index zero starts with a zero, which is lost in `fallingMem`. -/
theorem not_hamperRings : ¬ Obligations.HamperRings := by
  intro h
  obtain ⟨-, hdone⟩ := h endedDevice 0 1 (by unfold Holds; decide +kernel)
  obtain ⟨-, -, hwrites, -⟩ := hdone 0 endedCmd _ (by decide +kernel) rfl rfl rfl
  obtain ⟨t, ht, -, -, -, hlands, -⟩ := hwrites rfl rfl rfl rfl (by decide +kernel)
  have hleaves : leaves (.hamperCompletion 0) endedDevice 0x200000 1 = true := by decide +kernel
  have hzero : t.mem.read 0x200000 = 0 := hlands (by decide +kernel) (fun _ => rfl) 0 (by decide +kernel)
  rw [read_of_leaves hleaves ht] at hzero
  exact absurd hzero (by decide)

end Sys2Proof.Proofs

/-! ## What a write of a hub unit changes (05/R160, 08/R251, 15/R447, 17/R507) -/

namespace Sys2Proof.Machine

/-- `t` is `s` but for what a write of a hub unit or an error of a creel can change: memory, caches, channels, requests to lane groups,
the pairing unit, what is emitted, creels, event sources and the device log. The vault, the units and their jobs stay. -/
def HubOnly (s t : State) : Prop :=
  t = { s with seqs := t.seqs, mem := t.mem, tiles := t.tiles, slices := t.slices, chans := t.chans, creels := t.creels, lgs := t.lgs,
               emitted := t.emitted, sources := t.sources, log := t.log, pair := t.pair }

section
variable {s t u : State}

theorem HubOnly.refl (s : State) : HubOnly s s := rfl
theorem HubOnly.trans (h : HubOnly s t) (k : HubOnly t u) : HubOnly s u := by
  unfold HubOnly at h k ⊢
  rw [h] at k
  exact k
theorem HubOnly.foldl {α : Type} {f : State → α → State} (hf : ∀ s a, HubOnly s (f s a)) (l : List α) (s : State) :
    HubOnly s (l.foldl f s) := by
  induction l generalizing s with
  | nil => exact HubOnly.refl s
  | cons a r ih => exact (hf s a).trans (ih _)
theorem HubOnly.units (h : HubOnly s t) : t.units = s.units := by rw [h]
theorem HubOnly.vault (h : HubOnly s t) : t.vault = s.vault := by rw [h]
theorem CacheOnly.hub (h : CacheOnly s t) : HubOnly s t := by
  obtain ⟨h, -, -⟩ := h
  unfold HubOnly
  rw [h]
theorem LinkOnly.hub (h : LinkOnly s t) : HubOnly s t := by
  unfold LinkOnly at h
  unfold HubOnly
  rw [h]

end

section
variable (s : State)

theorem HubOnly.creelError (cr cls unit code addr inst detail : Nat) : HubOnly s (s.creelError cr cls unit code addr inst detail) := by
  obtain ⟨p, r, t, rfl, h | h⟩ := s.creelError_cases cr cls unit code addr inst detail
  · rw [h, State.raiseFixed_eq]
    rfl
  · rw [h]
    rfl
theorem HubOnly.wrMap (m : FMap Byte) : HubOnly s (s.wrMap m) := by
  induction m generalizing s with
  | nil => exact HubOnly.refl s
  | cons p r ih => exact HubOnly.trans (t := s.wr8 p.1 p.2) rfl (ih _)
theorem HubOnly.clearPoisons (l : List Nat) : HubOnly s (l.foldl State.clearPoison s) :=
  HubOnly.foldl (f := State.clearPoison) (fun _ _ => rfl) l s
theorem HubOnly.store (m : FMap Byte) : HubOnly s (s.store m) := (HubOnly.wrMap s m).trans (HubOnly.clearPoisons ..)
theorem HubOnly.storeBytes (a : Nat) (b : Bytes) : HubOnly s (s.storeBytes a b) := by
  have hwrite : HubOnly s (s.wrBytes a b) := by
    rw [State.wrBytes_eq]
    rfl
  exact hwrite.trans (HubOnly.clearPoisons ..)
theorem HubOnly.fencedWrite (cr : Option Nat) (line : Nat) : HubOnly s (s.fencedWrite cr line) := by
  have hcount : HubOnly s (s.setChan (channelOf line) { s.chan (channelOf line) with discarded := (s.chan (channelOf line)).discarded + 1 }) := rfl
  simp only [State.fencedWrite]
  split
  · exact hcount.trans (HubOnly.creelError ..)
  · rfl
theorem HubOnly.postStore (cr : Option Nat) (bytes : FMap Byte) : HubOnly s (s.postStore cr bytes) := by
  simp only [State.postStore]
  split
  · rfl
  · split
    · rfl
    · split
      · rfl
      · cases cr with
        | none => rfl
        | some c => exact HubOnly.creelError ..
theorem HubOnly.sendRequest (lg tag pa size : Nat) : HubOnly s (s.sendRequest lg tag pa size) := by
  simp only [State.sendRequest]
  split <;> rfl

end

theorem HubOnly.strictSend {l : List (Nat × Bytes)} {s t : State} {lg port what core creel window : Nat} {q : List StrictStore}
    (h : s.strictSend lg port what core creel window l = some (t, q)) : HubOnly s t := by
  induction l generalizing s t q with
  | nil =>
    obtain ⟨rfl, rfl⟩ : s = t ∧ [] = q := by simpa only [List.nil_eq, State.strictSend, Option.some.injEq, Prod.mk.injEq] using h
    exact HubOnly.refl s
  | cons p r ih =>
    rw [State.strictSend] at h
    split at h
    next => exact absurd h (Option.some_ne_none _).symm
    next =>
      obtain ⟨⟨u, q'⟩, hu, e⟩ := Option.map_eq_some_iff.1 h
      obtain ⟨rfl, -⟩ := Prod.mk.inj e
      refine HubOnly.trans ?_ (ih hu)
      exact (HubOnly.trans (t := s.addReq lg _) rfl (HubOnly.postStore ..)).trans (HubOnly.sendRequest ..)

section
variable (s : State)

theorem HubOnly.unitPost (cr a : Nat) (b : Bytes) : HubOnly s (s.unitPost cr a b) := by
  simp only [State.unitPost]
  split
  · split
    · split
      next h => exact HubOnly.strictSend h
      next => exact HubOnly.postStore ..
    · exact HubOnly.postStore ..
  · exact HubOnly.postStore ..
theorem HubOnly.unitWrite (cr a : Nat) (b : Bytes) : HubOnly s (s.unitWrite cr a b) := by
  have hhome := (CacheOnly.homeWriteRange s a b.length).hub
  simp only [State.unitWrite]
  split
  · exact HubOnly.unitPost ..
  · split
    · exact (hhome.trans (HubOnly.storeBytes ..)).trans (LinkOnly.capture ..).hub
    · exact ((hhome.trans (HubOnly.store ..)).trans (HubOnly.foldl (fun _ _ => HubOnly.fencedWrite ..) _ _)).trans (LinkOnly.capture ..).hub
theorem HubOnly.traceInstr (i : Nat) (pc : W64) (beats : Nat) (dest : Option Nat) : HubOnly s (s.traceInstr i pc beats dest) := by
  simp only [State.traceInstr]
  split
  · rfl
  · split
    · exact HubOnly.unitWrite ..
    · exact HubOnly.creelError ..

end

/-! ## Jobs of the Plaiter and their sequencers (13/R375, R403, R416) -/

section
variable (s : State)

@[simp] theorem State.unit_modUnit_self (u : Nat) (f : PUnit → PUnit) : (s.modUnit u f).unit u = f (s.unit u) :=
  FMap.get_set_self unitReset s.units u _
theorem State.unit_modUnit_ne {u v : Nat} (h : v ≠ u) (f : PUnit → PUnit) : (s.modUnit u f).unit v = s.unit v :=
  FMap.get_set_ne unitReset s.units _ h
@[simp] theorem State.job_modJob_self (u k : Nat) (f : Job → Job) : (s.modJob u k f).job u k = f (s.job u k) := by
  rw [State.job, State.modJob, State.setJob, State.unit_modUnit_self]
  exact FMap.get_set_self ..
theorem State.job_modJob_ne {u k v m : Nat} (h : ¬ (v = u ∧ m = k)) (f : Job → Job) : (s.modJob u k f).job v m = s.job v m := by
  rw [State.job, State.modJob, State.setJob]
  by_cases hu : v = u
  · subst hu
    rw [State.unit_modUnit_self]
    exact FMap.get_set_ne _ _ _ fun hk => h ⟨rfl, hk⟩
  · rw [State.unit_modUnit_ne s hu]
    rfl
@[simp] theorem State.job_localWrite (u k a m : Nat) (b : Bytes) : (s.localWrite u k a b).job u m = s.job u m := by
  rw [State.job, State.localWrite, State.unit_modUnit_self]
  rfl
@[simp] theorem State.job_modSeq (i : Nat) (f : Seq → Seq) (u k : Nat) : (s.modSeq i f).job u k = s.job u k := rfl
theorem HubOnly.job {s t : State} (h : HubOnly s t) (u k : Nat) : t.job u k = s.job u k := by
  rw [State.job, State.unit, h.units]
  rfl

theorem State.countInstr_job (i u k : Nat) : ∃ n, (s.countInstr i).job u k = { s.job u k with instrs := n } := by
  simp only [State.countInstr]
  split
  · by_cases h : u = unitOf i ∧ k = seqLane i
    · obtain ⟨rfl, rfl⟩ := h
      exact ⟨_, State.job_modJob_self ..⟩
    · exact ⟨_, State.job_modJob_ne _ h _⟩
  · exact ⟨_, rfl⟩
theorem State.countInstr_vault (i : Nat) : (s.countInstr i).vault = s.vault := by
  simp only [State.countInstr]
  split <;> rfl
/-- An instruction that completes is counted, and traced when its sequencer traces (13/R416). -/
theorem State.seqComplete_hub (i : Nat) (pc : W64) (beats : Nat) (len : Option Nat) (taken : Bool) (dest : Option Nat) :
    ∃ z, HubOnly ((s.setSeq i z).countInstr i) (s.seqComplete i pc beats len taken dest) := by
  obtain ⟨z, at_, b, hz⟩ : ∃ z at_ b, s.seqComplete i pc beats len taken dest =
      if tbit (s.seq i).mode 2 then ((s.setSeq i z).countInstr i).traceInstr i at_ b dest else (s.setSeq i z).countInstr i := ⟨_, _, _, rfl⟩
  rw [hz]
  split
  · exact ⟨z, HubOnly.traceInstr ..⟩
  · exact ⟨z, HubOnly.refl _⟩
/-- It changes of the jobs only their counts of instructions. -/
theorem State.seqComplete_job (i : Nat) (pc : W64) (beats : Nat) (len : Option Nat) (taken : Bool) (dest : Option Nat) (u k : Nat) :
    (s.seqComplete i pc beats len taken dest).job u k =
      { s.job u k with instrs := ((s.seqComplete i pc beats len taken dest).job u k).instrs } := by
  obtain ⟨z, hz⟩ := s.seqComplete_hub i pc beats len taken dest
  obtain ⟨n, hn⟩ := (s.setSeq i z).countInstr_job i u k
  rw [hz.job, hn]
  rfl
theorem State.seqComplete_vault (i : Nat) (pc : W64) (beats : Nat) (len : Option Nat) (taken : Bool) (dest : Option Nat) :
    (s.seqComplete i pc beats len taken dest).vault = s.vault := by
  obtain ⟨z, hz⟩ := s.seqComplete_hub i pc beats len taken dest
  exact hz.vault.trans (State.countInstr_vault ..)

end

end Sys2Proof.Machine

/-! ## Doors (13/R403, R404, R407) -/

namespace Sys2Proof.Machine

theorem unitOf_plaiterSeq {u k : Nat} (hk : k < 4) : unitOf (plaiterSeq u k) = u := by
  simp only [unitOf, plaiterSeq]
  omega
theorem seqLane_plaiterSeq {u k : Nat} (hk : k < 4) : seqLane (plaiterSeq u k) = k := by
  simp only [seqLane, plaiterSeq]
  omega

theorem doorResult_status {st : Nat} (h : st < 65536) : doorResult st 0 = w64 st := by
  simp only [doorResult, Nat.mod_eq_of_lt h, Nat.zero_mod, Nat.zero_mul, Nat.add_zero]
theorem doorResult_count (n : Nat) : doorResult 0 n = w64 (n * 65536) := by
  refine BitVec.eq_of_toNat_eq ?_
  simp only [doorResult, BitVec.toNat_ofNat]
  omega

theorem fld_low32 (x : W64) : fld x 31 0 = x.toNat % 2 ^ 32 := rfl
/-- The charsets of DECIMAL (13/R410). -/
theorem decimalCharset {cs : Nat} (h : charsetOk cs = true ∨ cs = 4) : (charsetOk cs || cs == 4) = true := by
  simpa only [Bool.or_eq_true, beq_iff_eq] using h
/-- The tokens that CANON takes lie in the segment of an XML message (13/R413). -/
theorem not_canonRefused {xml : Bool} {a b n : Nat} (hxml : xml = true) (hab : a < b) (hb : b ≤ n) : ¬ ((!xml) = true ∨ b ≤ a ∨ n < b) := by
  simp only [hxml, Bool.not_true, Bool.false_eq_true, false_or]
  omega

/-- What a door but CALL leaves and answers, by its number and the offset of its parameters (13/R407). -/
def State.doorAnswer (s : State) (u k door p : Nat) : State × W64 :=
  if door ≠ 0xC ∧ 0x10000 < p + (if door = 9 then 32 else 24) then (s, doorResult 0x0109 0)
  else if door = 9 then s.doorConvert u k p else if door = 0xA then s.doorDecimal u k p
  else if door = 0xB then s.doorEmit u k p else if door = 0xC then s.doorNext u k else s.doorCanon u k p
theorem State.doorAnswer_convert {s : State} {u k p : Nat} (h : p + 32 ≤ 0x10000) : s.doorAnswer u k 9 p = s.doorConvert u k p :=
  if_neg fun hp => Nat.not_lt.2 h hp.2
theorem State.doorAnswer_decimal {s : State} {u k p : Nat} (h : p + 24 ≤ 0x10000) : s.doorAnswer u k 0xA p = s.doorDecimal u k p :=
  if_neg fun hp => Nat.not_lt.2 h hp.2
theorem State.doorAnswer_emit {s : State} {u k p : Nat} (h : p + 24 ≤ 0x10000) : s.doorAnswer u k 0xB p = s.doorEmit u k p :=
  if_neg fun hp => Nat.not_lt.2 h hp.2
theorem State.doorAnswer_canon {s : State} {u k p : Nat} (h : p + 24 ≤ 0x10000) : s.doorAnswer u k 0xD p = s.doorCanon u k p :=
  if_neg fun hp => Nat.not_lt.2 h hp.2
/-- The operation is added to the job's, and its destination is busy (13/R407). -/
def State.doorQueued (s : State) (u k : Nat) (op : DoorOp) : State :=
  let t := s.modJob u k fun j => { j with ops := j.ops ++ [op] }
  if op.dest = 0 then t else t.modSeq (plaiterSeq u k) fun z => { z with busy := z.busy ++ [op.dest] }

section
variable (s : State) (u k p d : Nat)

theorem State.doorQueued_job (op : DoorOp) : (s.doorQueued u k op).job u k = { s.job u k with ops := (s.job u k).ops ++ [op] } := by
  simp only [State.doorQueued]
  split
  · rw [State.job_modJob_self]
  · rw [State.job_modSeq, State.job_modJob_self]
theorem State.doorQueued_vault (op : DoorOp) : (s.doorQueued u k op).vault = s.vault := by
  simp only [State.doorQueued]
  split <;> rfl
theorem State.doorCall_job : (s.doorCall u k p d).1.job u k = { s.job u k with calls := (s.job u k).calls + 1 } := State.job_modJob_self ..

end

section
variable {s y : State} {u k d : Nat} {door p : Nat}

theorem State.doorLoad_answer {r : W64} (hk : k < 4) (hdoor : 9 ≤ door ∧ door ≤ 0xD) (hp : p < 0x10000) (halign : p % 8 = 0)
    (hnext : door = 0xC → p = 0) (hroom : (s.job u k).ops.length < 4) (hans : s.doorAnswer u k door p = (y, r))
    (hopen : (y.job u k).ending = none) :
    s.doorLoad (plaiterSeq u k) (door * 0x10000 + p) d =
      .busyDoor (y.doorQueued u k { dest := d, call := none, p := p, result := some r }) := by
  have hd : (door * 0x10000 + p) / 0x10000 = door := by omega
  have hm : (door * 0x10000 + p) % 0x10000 = p := by omega
  have h8 : door ≠ 8 := by omega
  have hbad : ¬ (door = 0xF ∨ (door = 0xC ∧ p ≠ 0) ∨ p % 8 ≠ 0) := by omega
  simp only [State.doorAnswer] at hans
  simp only [State.doorLoad, hd, hm, unitOf_plaiterSeq hk, seqLane_plaiterSeq hk, if_neg h8, if_neg hbad, if_neg (Nat.not_le.2 hroom), hans,
    hopen, Option.isSome_none, Bool.false_eq_true, if_false]
  rfl
theorem State.doorLoad_call (hk : k < 4) (hp : p < 0x10000) (halign : p % 128 = 0) (hroom : (s.job u k).ops.length < 4)
    (hopen : (s.job u k).ending = none) :
    s.doorLoad (plaiterSeq u k) (0x80000 + p) d =
      .busyDoor ((s.doorCall u k p d).1.doorQueued u k { dest := d, call := some s.vault.nextId, p := p, result := none }) := by
  have hd : (0x80000 + p) / 0x10000 = 8 := by omega
  have hm : (0x80000 + p) % 0x10000 = p := by omega
  have hbad : ¬ (8 = 0xF ∨ (8 = 0xC ∧ p ≠ 0) ∨ p % 128 ≠ 0) := by omega
  have hcall : ((s.doorCall u k p d).1.job u k).ending = none := by
    rw [State.doorCall_job]
    exact hopen
  simp only [State.doorLoad, hd, hm, unitOf_plaiterSeq hk, seqLane_plaiterSeq hk, if_true, if_neg hbad, if_neg (Nat.not_le.2 hroom), hcall,
    Option.isSome_none, Bool.false_eq_true, if_false]
  rfl

/-- A load of 8 bytes at a door address, in the local space (13/R403, R407). -/
theorem State.localLoad_door {ea : Nat} (hu : u < 16) (hk : k < 4) (hjob : s.hasJob u k = true) (hlo : 0x80000 ≤ ea) (hhi : ea < 0xE0000) :
    s.localLoad (plaiterSeq u k) ea 8 (.reg d 8 false) = s.doorLoad (plaiterSeq u k) ea d := by
  have hstake : plaiterSeq u k ≠ 86 := by unfold plaiterSeq; omega
  have hplaiter : isPlaiter (plaiterSeq u k) = true := by
    unfold plaiterSeq
    simp only [isPlaiter, Bool.and_eq_true, decide_eq_true_eq]
    omega
  have hregion : localRegion ea 8 = none := by
    unfold localRegion
    rw [if_neg (by omega), if_neg (by omega), if_neg (by omega), if_neg (by omega)]
  have hdoor : inDoor ea = true := by
    simp only [inDoor, Bool.or_eq_true, Bool.and_eq_true, decide_eq_true_eq]
    omega
  simp only [State.localLoad, if_neg hstake, unitOf_plaiterSeq hk, seqLane_plaiterSeq hk, hplaiter, hjob, hregion, hdoor, Bool.not_true,
    Bool.false_eq_true, or_self, if_false]
end

end Sys2Proof.Machine

namespace Sys2Proof.Claims

open Sys2Proof Sys2Proof.Machine

theorem seqIx_plSeq (u : Fin 16) (k : Fin 4) : seqIx (plSeq u k) = plaiterSeq u k := by
  have hu : u.val % 18 = u.val := Nat.mod_eq_of_lt (by omega)
  have hk : k.val % 4 = k.val := Nat.mod_eq_of_lt k.isLt
  simp only [plSeq, seqIx, plaiterSeq, Fin.ofNat, hu, hk]
theorem doorAfter_eq (y : State) (u : Fin 16) (k : Fin 4) (d : Reg) (pc : W64) (op : DoorOp) (hd : op.dest = d.toNat) :
    doorAfter y u k d pc op = seqNext (y.doorQueued u k op) (plSeq u k) pc 4 (some d.toNat) := by
  simp only [doorAfter, State.doorQueued, seqIx_plSeq, hd]

namespace DoorRuns
section
variable {s w y : State} {u : Fin 16} {k : Fin 4} {g : PReg} {d : Reg} {p : BitVec 16} {r : W64}

theorem stillOpen (h : DoorRuns s u k g d w) : ((seqBody w (plSeq u k) [d.toNat]).job u k).ending = none := h.open_
/-- The frame of a door's load: what the door leaves, in four beats (13/R407). -/
theorem row (h : DoorRuns s u k g d w) {ea : Nat} (hlo : 0x80000 ≤ ea) (hhi : ea < 0xE0000)
    (hload : (seqBody w (plSeq u k) [d.toNat]).doorLoad (plaiterSeq u k) ea d.toNat = .busyDoor y) :
    doorRow u k g d ea s =
      .next (seqNext y (plSeq u k) (((seqBody w (plSeq u k) [d.toNat]).seq (seqIx (plSeq u k))).x.pc + 4) 4 (some d.toNat)) := by
  have hea : (w64 ea).toNat = ea := by
    rw [BitVec.toNat_ofNat]
    omega
  have hmode : tbit ((seqBody w (plSeq u k) [d.toNat]).seq (plaiterSeq u k)).mode 1 = false := by
    rw [← seqIx_plSeq, seqBody, State.seq_modSeq_self]
    exact h.localMode
  have hmark : markAcq 0 = false := rfl
  have hlocal := State.localLoad_door (s := seqBody w (plSeq u k) [d.toNat]) (d := d.toNat) u.isLt k.isLt h.job hlo hhi
  have hbody : (seqBody w (plSeq u k) [d.toNat]).loadBy (.seq (plSeq u k)) (w64 ea) (.reg d.toNat 8 false) 0 false = .done y [] := by
    simp only [State.loadBy, seqIx_plSeq, hmode, Bool.false_eq_true, if_false, hea, hmark, false_and, sizeOfDest, hlocal, hload]
  have hrun := SeqRuns.done (o := { agent := .seq (plSeq u k), guard := g, writes := [d.toNat], beats := 4 })
    (body := fun s _ => s.loadBy (.seq (plSeq u k)) (w64 ea) (.reg d.toNat 8 false) 0 false) h.seq rfl rfl rfl rfl hbody
  rw [seqBody, State.seq_modSeq_self]
  exact hrun
/-- CALL: the descriptor becomes a command, and the operation waits for it (13/R408). -/
theorem call (h : DoorRuns s u k g d w) (halign : p.toNat % 128 = 0) :
    exec (.callDoor u k g d p) s = .next (seqNext
      ((((seqBody w (plSeq u k) [d.toNat]).doorCall u k p.toNat d.toNat).1).doorQueued u k
        { dest := d.toNat, call := some w.vault.nextId, p := p.toNat, result := none })
      (plSeq u k) (((seqBody w (plSeq u k) [d.toNat]).seq (seqIx (plSeq u k))).x.pc + 4) 4 (some d.toNat)) := by
  have hp : p.toNat < 0x10000 := p.isLt
  exact h.row (by omega) (by omega) (State.doorLoad_call k.isLt hp halign h.room h.open_)
/-- A door but CALL gives what its answer says. -/
theorem gives (h : DoorRuns s u k g d w) {i : Instr} {door : Nat} (hi : exec i s = doorRow u k g d (door * 0x10000 + p.toNat) s)
    (hdoor : 9 ≤ door ∧ door ≤ 0xD) (halign : p.toNat % 8 = 0) (hnext : door = 0xC → p.toNat = 0)
    (hans : (seqBody w (plSeq u k) [d.toNat]).doorAnswer u k door p.toNat = (y, r)) (hopen : (y.job u k).ending = none) :
    DoorGives i s (seqBody w (plSeq u k) [d.toNat]) y u k d p r := by
  have hp : p.toNat < 0x10000 := p.isLt
  have hroom : ((seqBody w (plSeq u k) [d.toNat]).job u k).ops.length < 4 := h.room
  have hload := State.doorLoad_answer (d := d.toNat) k.isLt hdoor hp halign hnext hroom hans hopen
  rw [DoorGives, doorAfter_eq _ _ _ _ _ _ rfl, hi]
  exact h.row (by omega) (by omega) hload

theorem convert (h : DoorRuns s u k g d w) (halign : p.toNat % 8 = 0) (hroom : p.toNat + 32 ≤ 0x10000)
    (hans : (seqBody w (plSeq u k) [d.toNat]).doorConvert u k p.toNat = (y, r)) (hopen : (y.job u k).ending = none) :
    DoorGives (.convert u k g d p) s (seqBody w (plSeq u k) [d.toNat]) y u k d p r :=
  h.gives (door := 9) rfl (by decide) halign (by omega) ((State.doorAnswer_convert hroom).trans hans) hopen
theorem decimal (h : DoorRuns s u k g d w) (halign : p.toNat % 8 = 0) (hroom : p.toNat + 24 ≤ 0x10000)
    (hans : (seqBody w (plSeq u k) [d.toNat]).doorDecimal u k p.toNat = (y, r)) (hopen : (y.job u k).ending = none) :
    DoorGives (.decimal u k g d p) s (seqBody w (plSeq u k) [d.toNat]) y u k d p r :=
  h.gives (door := 0xA) rfl (by decide) halign (by omega) ((State.doorAnswer_decimal hroom).trans hans) hopen
theorem emit (h : DoorRuns s u k g d w) (halign : p.toNat % 8 = 0) (hroom : p.toNat + 24 ≤ 0x10000)
    (hans : (seqBody w (plSeq u k) [d.toNat]).doorEmit u k p.toNat = (y, r)) (hopen : (y.job u k).ending = none) :
    DoorGives (.emit u k g d p) s (seqBody w (plSeq u k) [d.toNat]) y u k d p r :=
  h.gives (door := 0xB) rfl (by decide) halign (by omega) ((State.doorAnswer_emit hroom).trans hans) hopen
theorem next (h : DoorRuns s u k g d w) (hans : (seqBody w (plSeq u k) [d.toNat]).doorNext u k = (y, r))
    (hopen : (y.job u k).ending = none) : DoorGives (.next u k g d) s (seqBody w (plSeq u k) [d.toNat]) y u k d 0 r :=
  h.gives (door := 0xC) rfl (by decide) (by decide) (fun _ => rfl) hans hopen
theorem canon (h : DoorRuns s u k g d w) (halign : p.toNat % 8 = 0) (hroom : p.toNat + 24 ≤ 0x10000)
    (hans : (seqBody w (plSeq u k) [d.toNat]).doorCanon u k p.toNat = (y, r)) (hopen : (y.job u k).ending = none) :
    DoorGives (.canon u k g d p) s (seqBody w (plSeq u k) [d.toNat]) y u k d p r :=
  h.gives (door := 0xD) rfl (by decide) halign (by omega) ((State.doorAnswer_canon hroom).trans hans) hopen

end
end DoorRuns
end Sys2Proof.Claims

/-! ## The doors of the Plaiter (O50) -/

namespace Sys2Proof.Proofs

open Sys2Proof Sys2Proof.Machine Sys2Proof.Claims

/-- Settles O50: a door load gives what the door's operation leaves and answers, and each operation answers by its branch. -/
theorem plaiterDoors : Obligations.PlaiterDoors := by
  intro s w u k g d p
  refine ⟨fun o ho => ?completes, fun h => ?doors⟩
  case completes =>
    simp only [Gives, exec, execDoorOperationCompletion, ho]
    by_cases hd : o.dest = 0
    · rw [if_pos hd]
      exact ⟨_, rfl, by rw [State.job_modJob_self], rfl, fun hne => absurd hd hne⟩
    · rw [if_neg hd]
      exact ⟨_, rfl, by rw [State.job_modSeq, State.job_modJob_self], rfl, fun _ => State.seq_modSeq_self ..⟩
  case doors =>
    have hopen := h.stillOpen
    have hwritten (a : Nat) (b : Bytes) : (((seqBody w (plSeq u k) [d.toNat]).localWrite u k a b).job u k).ending = none := by
      rw [State.job_localWrite, hopen]
    simp only [← fld_low32]
    refine ⟨fun hal => ?call, fun hal hroom => ⟨fun hcs => ?reserved, fun hcs hrange => ?outside, fun b hcs hrange hb =>
        ⟨fun hfit => ?converted, fun hlong => ?noSpace⟩⟩,
      fun hal hroom hcs hconv => ⟨fun hop hsrc hdst => ⟨fun neg c e hval => ?parsed, fun hval => ?notDecimal⟩,
        fun b hop hsrc hdst hb => ?formatted⟩,
      fun hal hroom => ⟨fun hseal => ?noSeal, fun e b hseal => ⟨fun hem => ?notEmittable, fun hem hb hform hbase hdst =>
        ⟨fun hfit => ?emitted, fun hlong => ?noRoom⟩, fun hem hb hform hfit hbase hdst => ?emittedShared⟩⟩,
      ⟨fun hlast => ?lastSegment, fun e x hmore he hload hend hlen => ?nextSegment⟩,
      fun e hal hroom he => ⟨fun hfmt => ?notXml, fun hfmt hab hb hdst => ⟨fun hown => ?sealedToken, fun hown hfirst hfit => ?canonical⟩⟩⟩
    case call =>
      refine ⟨_, h.call hal, ?_⟩
      dsimp only [seqNext]
      rw [State.seqComplete_job, State.seqComplete_vault, State.doorQueued_job, State.doorCall_job, State.doorQueued_vault]
      exact ⟨rfl, rfl, _, rfl, rfl, rfl, rfl, rfl⟩
    case reserved =>
      refine h.convert hal hroom ?_ hopen
      have hbad : ¬ (charsetOk (fld ((seqBody w (plSeq u k) [d.toNat]).paramWord u k p.toNat 0) 63 60) &&
          charsetOk (fld ((seqBody w (plSeq u k) [d.toNat]).paramWord u k p.toNat 0) 59 56)) = true := by rwa [Bool.and_eq_true]
      simp only [State.doorConvert]
      rw [← Bool.not_and, if_pos (by rw [Bool.eq_false_iff.2 hbad]; rfl), doorResult_status (by decide)]
    case outside =>
      refine h.convert hal hroom ?_ hopen
      rw [← Bool.and_eq_true] at hrange
      simp only [State.doorConvert, hcs, Bool.not_true, Bool.or_self, Bool.false_eq_true, if_false]
      rw [← Bool.not_and, if_pos (by rw [Bool.eq_false_iff.2 hrange]; rfl), doorResult_status (by decide)]
    case converted =>
      refine h.convert hal hroom ?_ (hwritten ..)
      simp only [State.doorConvert, hcs, hrange, Bool.not_true, Bool.or_self, Bool.false_eq_true, if_false, hb, Nat.not_lt.2 hfit, doorResult_count]
    case noSpace =>
      refine h.convert hal hroom ?_ hopen
      simp only [State.doorConvert, hcs, hrange, Bool.not_true, Bool.or_self, Bool.false_eq_true, if_false, hb, if_pos hlong]
      rw [doorResult_status (by decide)]
    case parsed =>
      refine h.decimal hal hroom ?_ (hwritten ..)
      simp only [State.doorDecimal, hop, Nat.not_lt_zero, decimalCharset hcs, Nat.not_lt.2 hconv, hsrc, hdst, hval, Bool.not_true,
        Bool.false_eq_true, or_self, Bool.or_self, if_true, if_false]
      rfl
    case notDecimal =>
      refine h.decimal hal hroom ?_ hopen
      simp only [State.doorDecimal, hop, Nat.not_lt_zero, decimalCharset hcs, Nat.not_lt.2 hconv, hsrc, hdst, hval, Bool.not_true,
        Bool.false_eq_true, or_self, Bool.or_self, if_true, if_false]
      rw [doorResult_status (by decide)]
    case formatted =>
      refine h.decimal hal hroom ?_ (hwritten ..)
      simp only [State.doorDecimal, hop, Nat.lt_irrefl, decimalCharset hcs, Nat.not_lt.2 hconv, hsrc, hdst, hb, Bool.not_true,
        Bool.false_eq_true, or_self, Bool.or_self, Nat.one_ne_zero, if_false]
      rfl
    case noSeal =>
      refine h.emit hal hroom ?_ hopen
      simp only [State.doorEmit, hseal]
      rw [doorResult_status (by decide)]
    case notEmittable =>
      refine h.emit hal hroom ?_ hopen
      simp only [State.doorEmit, hseal, hem, Bool.not_false, if_true]
      rw [doorResult_status (by decide)]
    case emitted =>
      refine h.emit hal hroom ?_ (hwritten ..)
      simp only [State.doorEmit, hseal, hem, Nat.not_lt.2 hform, hbase, hdst, hb, Nat.not_lt.2 hfit, Bool.not_true, Bool.false_eq_true,
        if_true, if_false, doorResult_count]
    case noRoom =>
      refine h.emit hal hroom ?_ hopen
      simp only [State.doorEmit, hseal, hem, Nat.not_lt.2 hform, hbase, hdst, hb, if_pos hlong, Bool.not_true, Bool.false_eq_true,
        if_true, if_false]
      rw [doorResult_status (by decide)]
    case emittedShared =>
      refine h.emit hal hroom ?_ (by rw [(HubOnly.unitWrite ..).job, hopen])
      simp only [State.doorEmit, hseal, hem, Nat.not_lt.2 hform, Nat.not_le.2 hbase, hdst, hb, Nat.not_lt.2 hfit, Bool.or_true,
        Bool.not_true, Bool.false_eq_true, if_false, doorResult_count]
    case lastSegment =>
      refine h.next ?_ hopen
      rw [State.doorNext, if_pos hlast, doorResult_status (by decide)]
    case nextSegment =>
      refine h.next ?_ (by rw [State.job_modJob_self, hend])
      simp only [State.doorNext, Nat.not_le.2 hmore, if_false, he, hload, State.job_modJob_self, doorResult_count]
    case notXml =>
      refine h.canon hal hroom ?_ hopen
      simp only [State.doorCanon, he, beq_eq_false_iff_ne.2 hfmt, Bool.not_false, true_or, if_true]
      rw [doorResult_status (by decide)]
    case sealedToken =>
      refine h.canon hal hroom ?_ hopen
      simp only [State.doorCanon, he]
      rw [if_neg (not_canonRefused (beq_iff_eq.2 hfmt) hab hb), if_neg (by rw [hdst]; decide), if_pos (List.any_eq_true.2 hown),
        doorResult_status (by decide)]
    case canonical =>
      refine h.canon hal hroom ?_ (by rw [State.job_modJob_self, hwritten])
      simp only [State.doorCanon, he]
      rw [if_neg (not_canonRefused (beq_iff_eq.2 hfmt) hab hb), if_neg (by rw [hdst]; decide),
        if_neg (by rw [List.any_eq_true]; exact fun ⟨x, hx, hsome⟩ => Option.isSome_iff_ne_none.1 hsome (hown x hx))]
      simp only [hfirst, if_true, List.length_nil, List.drop_zero, Nat.not_lt.2 hfit, if_false, doorResult_count]

end Sys2Proof.Proofs

/-! ## Memory out of its canonical form: the completion of a Plaiter job (O49) -/

namespace Sys2Proof.Proofs

open Sys2Proof Sys2Proof.Machine Sys2Proof.Claims

/-- Job 0 of queue 0, whose program has ended by END with no output. -/
def endedJob : Job := { jobReset with phase := .run, ending := some (jobFailed 0 0) }
/-- The device with that job alone, on sequencer 0 of unit 0, and the completion ring of queue 0 at 0x200000. -/
def endedJobDevice : State :=
  { fallingDevice vaultReset with
    unitCreel := [(0, 1)], units := [(0, { unitReset with jobs := [(0, endedJob)] })], pqHolder := [(0, 1)],
    pqs := [(0, { pqReset with ring := { ringReset with ring := 0x100004, cq := 0x200000, ctl := 1 } })] }

/-- Refutes O49: the entry of job 0 of a queue starts with a zero, which is lost in `fallingMem`. -/
theorem not_plaiterJobs : ¬ Obligations.PlaiterJobs := by
  intro h
  obtain ⟨-, -, -, -, hend, -⟩ := h endedJobDevice 0 0
  obtain ⟨t, ht, -, -, -, hlands⟩ :=
    hend (jobFailed 0 0) (by decide +kernel) rfl rfl rfl rfl rfl rfl (by decide +kernel) (by decide +kernel) (by decide +kernel)
  have hleaves : leaves (.end_ 0 0) endedJobDevice 0x200000 1 = true := by decide +kernel
  have hzero : t.mem.read 0x200000 = 0 := hlands (by decide +kernel) (fun _ => rfl) 0 (by decide +kernel)
  rw [read_of_leaves hleaves ht] at hzero
  exact absurd hzero (by decide)

end Sys2Proof.Proofs

/-! ## The discipline of the Hoop (14/R426, R430 to R433) -/

namespace Sys2Proof

theorem FMap.has_map_snd {α β : Type} (f : α → β) (m : FMap α) (k : Nat) : FMap.has (m.map fun p => (p.1, f p.2)) k = FMap.has m k := by
  induction m with
  | nil => rfl
  | cons p r ih => simp only [List.map_cons, FMap.has, ih]
/-- Where the values of a map are changed, a key reads as its value changed if it is listed, and as the default if it is not. -/
theorem FMap.get_map_snd_or {α : Type} (f : α → α) (d : α) (m : FMap α) (k : Nat) :
    FMap.get d (m.map fun p => (p.1, f p.2)) k = f (FMap.get d m k) ∨ FMap.get d (m.map fun p => (p.1, f p.2)) k = d := by
  induction m with
  | nil => exact .inr rfl
  | cons p r ih =>
    simp only [List.map_cons, FMap.get]
    split
    · exact .inl rfl
    · exact ih

end Sys2Proof

namespace Sys2Proof.Machine

theorem NotesOnly.hoop {s t : State} (h : NotesOnly s t) : t.hoop = s.hoop := by rw [h]
theorem NotesOnly.clock {s t : State} (h : NotesOnly s t) : t.clock = s.clock := by rw [h]

/-- The sources of `t` are those of `s`: which are qualified, what REF and PTP have counted, and of which an offset is known. State,
time and the offsets themselves may differ. -/
structure SourcesKept (s t : State) : Prop where
  qual : t.hoop.qual = s.hoop.qual
  ref : t.hoop.ref = s.hoop.ref
  sync : t.hoop.sync = s.hoop.sync
  lastSync : t.hoop.lastSync = s.hoop.lastSync
  has : ∀ c, t.hoop.offs.has c = s.hoop.offs.has c
  clock : t.clock = s.clock

section
variable {s t u : State}

theorem SourcesKept.refl (s : State) : SourcesKept s s := ⟨rfl, rfl, rfl, rfl, fun _ => rfl, rfl⟩
theorem SourcesKept.trans (h : SourcesKept s t) (k : SourcesKept t u) : SourcesKept s u :=
  ⟨k.qual.trans h.qual, k.ref.trans h.ref, k.sync.trans h.sync, k.lastSync.trans h.lastSync, fun c => (k.has c).trans (h.has c),
    k.clock.trans h.clock⟩
end

section
variable (s : State)

/-! The events and the record of a change leave the Hoop as it is (14/R432). -/

theorem NotesOnly.notices (l : List Nat) (bit k : Nat) : NotesOnly s (l.foldl (fun s c => s.notice c bit k) s) :=
  NotesOnly.foldl (fun _ _ => NotesOnly.notice ..) l s
theorem NotesOnly.hoopChanged : NotesOnly s s.hoopChanged := (NotesOnly.notices ..).trans (NotesOnly.auditEvent _)
theorem State.hoopTo_clock (st src : Nat) : (s.hoopTo st src).clock = s.clock := by
  simp only [State.hoopTo]
  split
  · rfl
  · exact (NotesOnly.hoopChanged _).clock
theorem State.hoopTo_hoop (st src : Nat) : ∃ lostAt alarm,
    (s.hoopTo st src).hoop = { s.hoop with st := st, src := src, lostAt := lostAt, alarm := alarm } := by
  simp only [State.hoopTo]
  split
  next h =>
    obtain ⟨rfl, rfl⟩ := h
    exact ⟨_, _, rfl⟩
  next => exact ⟨_, _, (NotesOnly.hoopChanged _).hoop⟩

/-! What the discipline keeps. -/

theorem SourcesKept.hoopTo (st src : Nat) : SourcesKept s (s.hoopTo st src) := by
  obtain ⟨lostAt, alarm, h⟩ := s.hoopTo_hoop st src
  exact ⟨by rw [h], by rw [h], by rw [h], by rw [h], fun c => by rw [h], s.hoopTo_clock st src⟩
theorem SourcesKept.hoopFar : SourcesKept s s.hoopFar := ⟨rfl, rfl, rfl, rfl, fun _ => rfl, rfl⟩
theorem SourcesKept.hoopStepBy (d : Int) : SourcesKept s (s.hoopStepBy d) :=
  ⟨rfl, rfl, rfl, rfl, fun c => FMap.has_map_snd (fun x : Int => x - d) s.hoop.offs c, rfl⟩
theorem SourcesKept.setSlew (slew cal : Bool) : SourcesKept s (s.modHoop fun h => { h with slew := slew, cal := cal }) :=
  ⟨rfl, rfl, rfl, rfl, fun _ => rfl, rfl⟩
theorem SourcesKept.hoopEval : SourcesKept s s.hoopEval := by
  simp only [State.hoopEval]
  split
  · split
    · exact SourcesKept.refl s
    · exact ((SourcesKept.hoopStepBy ..).trans (SourcesKept.hoopTo ..)).trans (SourcesKept.hoopFar _)
  · refine (SourcesKept.hoopFar s).trans ?_
    split
    · exact (SourcesKept.setSlew ..).trans (SourcesKept.hoopTo ..)
    · split
      · exact (SourcesKept.setSlew ..).trans (SourcesKept.hoopTo ..)
      · exact (SourcesKept.setSlew ..).trans (SourcesKept.hoopTo ..)

/-! ## Sources that qualify and sources that are lost (14/R429) -/

theorem testBit_sub_two_pow {q c : Nat} (h : q.testBit c = true) : (q - 2 ^ c).testBit c = false := by
  have hsplit := Nat.testBit_two_pow_add_eq (q - 2 ^ c) c
  rw [Nat.add_sub_cancel' (Nat.ge_two_pow_of_testBit h), h] at hsplit
  exact Bool.not_eq_eq_eq_not.1 hsplit.symm
theorem State.hoopLose_clock (c : Nat) : (s.hoopLose c).clock = s.clock := by
  simp only [State.hoopLose]
  split
  · exact (SourcesKept.hoopEval _).clock
  · exact (SourcesKept.hoopEval _).clock
/-- A source that is lost is not qualified, and no offset of it is known. -/
theorem State.hoopLose_source (c : Nat) : (s.hoopLose c).hoop.qual.testBit c = false ∧ (s.hoopLose c).hoop.offs.has c = false := by
  let lost := s.modHoop fun h => { h with qual := if h.qual.testBit c then h.qual - 2 ^ c else h.qual, offs := h.offs.erase c }
  have hqual : lost.hoop.qual.testBit c = false := by
    show (if s.hoop.qual.testBit c then s.hoop.qual - 2 ^ c else s.hoop.qual).testBit c = false
    split
    next h => exact testBit_sub_two_pow h
    next h => exact Bool.not_eq_true _ ▸ h
  have hev := SourcesKept.hoopEval lost
  have h : lost.hoopEval.hoop.qual.testBit c = false ∧ lost.hoopEval.hoop.offs.has c = false :=
    ⟨hev.qual ▸ hqual, (hev.has c).trans (FMap.has_erase_self ..)⟩
  simp only [State.hoopLose]
  split
  · exact h
  · exact h
theorem State.loseRef_clock : s.loseRef.clock = s.clock := State.hoopLose_clock ..
/-- A measurement of a source is evaluated where the source is qualified, and qualifies it where `ready` says so. -/
theorem State.measured_next (c : Nat) (ready : Prop) [Decidable ready] : ∃ t,
    (if s.hoopQual c then .next s.hoopEval else if ready then .next (s.hoopQualify c) else .next s : Out) = .next t ∧
      t.hoop.ref = s.hoop.ref ∧ t.hoop.sync = s.hoop.sync ∧ t.hoop.lastSync = s.hoop.lastSync ∧
      (s.hoop.qual.testBit c = true ∨ ready → t.hoop.qual.testBit c = true) := by
  split
  next hq =>
    have h := SourcesKept.hoopEval s
    exact ⟨_, rfl, h.ref, h.sync, h.lastSync, fun _ => h.qual ▸ hq⟩
  next hq =>
    split
    next =>
      have h := SourcesKept.hoopEval (s.modHoop fun h => { h with qual := h.qual ||| 2 ^ c })
      refine ⟨_, rfl, h.ref, h.sync, h.lastSync, fun _ => ?_⟩
      rw [State.hoopQualify, h.qual, State.modHoop_hoop, Nat.testBit_or, Nat.testBit_two_pow_self, Bool.or_true]
    next hr => exact ⟨_, rfl, rfl, rfl, rfl, fun h => absurd h (not_or.2 ⟨hq, hr⟩)⟩

/-! ## Edges of HOOP_PPS (14/R429, R430) -/

/-- The edges in a row, with one that comes after so many cycles of HOOP_10M. -/
def edgesWith (r : RefSrc) (cycles : Nat) (tenM : Bool) : Nat :=
  if tenM && r.last.isSome && decide (9999998 ≤ cycles ∧ cycles ≤ 10000002) then r.edges + 1 else 1
/-- An edge is counted, then its offset is noted if its seconds are known; what follows is a measurement of REF. -/
theorem State.exec_hoopPps_counts (cycles : Nat) (tenM : Bool) {u : State} (hu : u = if s.refDue then s.loseRef else s) : ∃ v : State,
    exec (.hoopPps cycles tenM) s = (if v.hoopQual 1 then .next v.hoopEval
      else if 4 ≤ edgesWith u.hoop.ref cycles tenM ∧ tenM = true then .next (v.hoopQualify 1) else .next v) ∧
    v.hoop.ref.edges = edgesWith u.hoop.ref cycles tenM ∧ v.hoop.ref.last = some u.clock ∧ v.hoop.qual = u.hoop.qual := by
  simp only [exec_hoopPps, execHoopPps, ← hu]
  cases u.edgeSec with
  | some v => exact ⟨_, rfl, rfl, rfl, rfl⟩
  | none => exact ⟨_, rfl, rfl, rfl, rfl⟩
theorem State.exec_hoopPps_next (cycles : Nat) (tenM : Bool) {u : State} (hu : u = if s.refDue then s.loseRef else s) : ∃ t,
    exec (.hoopPps cycles tenM) s = .next t ∧ t.hoop.ref.edges = edgesWith u.hoop.ref cycles tenM ∧ t.hoop.ref.last = some s.clock ∧
      (u.hoop.qual.testBit 1 = true ∨ (4 ≤ edgesWith u.hoop.ref cycles tenM ∧ tenM = true) → t.hoop.qual.testBit 1 = true) := by
  have hclock : u.clock = s.clock := by
    rw [hu]
    split
    · exact s.loseRef_clock
    · rfl
  obtain ⟨v, hv, hedges, hlast, hqual⟩ := s.exec_hoopPps_counts cycles tenM hu
  obtain ⟨t, ht, href, -, -, hq⟩ := v.measured_next 1 (4 ≤ edgesWith u.hoop.ref cycles tenM ∧ tenM = true)
  exact ⟨t, hv.trans ht, href ▸ hedges, hclock ▸ href ▸ hlast, hqual ▸ hq⟩

/-! ## The end of a slew (14/R433) -/

theorem exec_slewComplete_next {s : State} (hslew : s.hoop.slew = true ∨ s.hoop.cal = true) (hsrc : s.hoop.src ≠ 0) : ∃ t,
    exec .slewComplete s = .next t ∧ t.hoop.st = 1 ∧ t.hoop.src = s.hoop.src ∧ t.hoop.slew = false ∧ t.hoop.cal = false ∧
      (t.hoop.offs.get 0 s.hoop.src).natAbs ≤ 42 := by
  have hon : ¬ ((!(s.hoop.slew || s.hoop.cal)) = true ∨ s.hoop.src = 0) := by
    rw [Bool.not_eq_true', Bool.eq_false_iff, not_or, Classical.not_not, Bool.or_eq_true]
    exact ⟨hslew, hsrc⟩
  obtain ⟨u, d, he, hd, hu⟩ : ∃ (u : State) (d : Int), exec .slewComplete s = .next (u.hoopTo 1 u.hoop.src) ∧ d.natAbs ≤ 42 ∧
      u.hoop = { s.hoop with
        slew := false, cal := false, offs := s.hoop.offs.map fun p => (p.1, p.2 - (s.hoopOff s.hoop.src - d)) } := by
    simp only [exec_slewComplete, execSlewComplete, if_neg hon]
    exact ⟨_, (s.drawn .measured % 85 : Nat) - (42 : Int), rfl, by omega, rfl⟩
  obtain ⟨lostAt, alarm, h⟩ := u.hoopTo_hoop 1 u.hoop.src
  refine ⟨_, he, ?_⟩
  rw [h, hu]
  refine ⟨rfl, rfl, rfl, rfl, ?_⟩
  rcases FMap.get_map_snd_or (fun x : Int => x - (s.hoopOff s.hoop.src - d)) 0 s.hoop.offs s.hoop.src with hoff | hoff
  · rw [hoff, State.hoopOff, Int.sub_sub_self]
    exact hd
  · rw [hoff]
    decide

end

end Sys2Proof.Machine

/-! ## The events of the Hoop (O36) -/

namespace Sys2Proof.Proofs

open Sys2Proof Sys2Proof.Machine Sys2Proof.Claims

/-- Settles O36: an edge or a Sync that is measured counts before the source is evaluated, and the evaluation keeps what the sources have
counted; what a change of state raises and records leaves the Hoop. -/
theorem hoopSourceEvents : Obligations.HoopSourceEvents := by
  intro s
  refine ⟨fun cycles hlast hdue hlo hhi => ?edge, fun cycles => ?badEdge, fun d u => ⟨_, rfl, rfl⟩, fun d hdue => ?sync, fun n => ?lost,
    fun v d hgiven hold => ?discard, fun hslew hsrc => exec_slewComplete_next hslew hsrc, fun hst halarm hage => ?alarm, fun hsave => ?save,
    fun hsec => ?pulse⟩
  case edge =>
    obtain ⟨t, ht, hedges, hat, hqual⟩ := s.exec_hoopPps_next cycles true (u := s) (by rw [hdue]; rfl)
    have hcount : edgesWith s.hoop.ref cycles true = s.hoop.ref.edges + 1 := by
      rw [edgesWith, hlast, decide_eq_true ⟨hlo, hhi⟩]
      rfl
    rw [hcount] at hedges hqual
    exact ⟨t, ht, hedges, hat, fun h => hqual (h.imp_right fun h3 => ⟨by omega, rfl⟩)⟩
  case badEdge =>
    obtain ⟨t, ht, hedges, hat, -⟩ := s.exec_hoopPps_next cycles false rfl
    exact ⟨t, ht, hedges, hat⟩
  case sync =>
    intro l
    simp only [Gives, exec_ptpMessage, execPtpMessage, hdue]
    obtain ⟨t, ht, -, hsync, hat, hqual⟩ := State.measured_next
      ((s.modHoop fun h => { h with sync := l, lastSync := s.clock }).hoopOffset 2 (d + s.stake.hoopCfg.ptpAsym.toInt)) 2
      (l.length = 16 ∧ withinNs (spread l) 100 = true)
    exact ⟨t, ht, hsync, hat, fun hlen hnear => hqual (.inr ⟨hlen, hnear⟩)⟩
  case lost =>
    match n with
    | 0 => exact ⟨_, rfl, State.hoopLose_source ..⟩
    | 1 => exact ⟨_, rfl, State.hoopLose_source ..⟩
    | 2 => exact ⟨_, rfl, State.hoopLose_source ..⟩
  case discard =>
    have hold : d + secs 3 / 2 ≤ s.clock := hold
    simp only [Gives, exec_hoopSecondsDiscard, execHoopSecondsDiscard, hgiven, if_pos hold]
    exact ⟨_, rfl, rfl, rfl, rfl⟩
  case alarm =>
    have hdue : s.stake.hoopCfg.alarm ≤ s.holdoverAge := by
      rw [State.holdoverAge, if_pos hst, Nat.le_div_iff_mul_le (by decide)]
      omega
    have hgo : s.hoop.st = 2 ∧ (!s.hoop.alarm) = true ∧ s.stake.hoopCfg.alarm ≤ s.holdoverAge := ⟨hst, by rw [halarm]; rfl, hdue⟩
    simp only [Gives, exec_holdoverAlarm, execHoldoverAlarm, if_pos hgo]
    exact ⟨_, rfl, (NotesOnly.notices ..).hoop⟩
  case save =>
    refine ⟨_, rfl, ?_⟩
    rw [State.modHoop, Hoop.save, if_pos hsave]
  case pulse =>
    simp only [Gives, exec_hoopPpsOut, execHoopPpsOut, if_neg hsec]
    exact ⟨_, rfl, rfl, rfl, rfl, rfl⟩

end Sys2Proof.Proofs

/-! ## A source of the Hoop without a measured offset (O37) -/

namespace Sys2Proof.Proofs

open Sys2Proof Sys2Proof.Machine Sys2Proof.Claims

/-- HOOP_STEP of the officer port, accepted from its slot 0. -/
def stepCmd : Cmd := { port := 64, slot := 0, op := 0x0706, tag := 0, irq := false, creel := 0, words := [], life := 3 }
/-- A device in HOLDOVER with PTP and PAIR qualified: PTP is 2 s away, and no offset of PAIR is listed. No event of the Hoop leaves PAIR
so; O37 speaks of every state. -/
def unmeasuredPair : State :=
  { State.reset with
    hoop := { hoopReset with st := 2, qual := 2 ^ 2 + 2 ^ 3, offs := [(2, 2 ^ 33)], stepNeeded := true },
    stake := { stakeReset with accepted := [stepCmd] } }

/-- The command answers a next state with this source, in which no step is needed. -/
def settlesOn (i : Instr) (s : State) (src : Nat) : Bool :=
  match exec i s with
  | .next t => t.hoop.src == src && !t.hoop.stepNeeded
  | _ => false
theorem settled_of_settlesOn {i : Instr} {s t : State} {src : Nat} (h : settlesOn i s src = true) (ht : exec i s = .next t) :
    t.hoop.src = src ∧ t.hoop.stepNeeded = false := by
  simpa only [settlesOn, ht, Bool.and_eq_true, beq_iff_eq, Bool.not_eq_true'] using h

/-- Refutes O37 at HOOP_STEP (14/R433): the step onto PTP moves the offsets that are listed. The missing one of PAIR reads 0 still, so no
further step is needed; the statement takes the step off it all the same, and finds PAIR 2 s away. -/
theorem not_hoopAndPairCommands : ¬ Obligations.HoopAndPairCommands := by
  rintro ⟨hoop, -⟩
  simp only [HoopCommandEffects, hoopCommands, List.forall_mem_cons] at hoop
  obtain ⟨-, -, -, -, -, -, -, hstep, -⟩ := hoop
  have hfar : (2 : Nat) ^ 32 < (unmeasuredPair.hoop.offs.get 0 2).natAbs := by decide
  obtain ⟨t, ht, -, -, -, hneeded, -⟩ := hstep unmeasuredPair 64 0 stepCmd (by decide +kernel) (by decide +kernel)
    ⟨rfl, 2, by decide +kernel, hfar⟩
  obtain ⟨hsrc, hdone⟩ := settled_of_settlesOn (src := 2) (by decide +kernel) ht
  rw [hsrc, hdone] at hneeded
  exact absurd (hneeded.2 ⟨3, by decide +kernel, by decide +kernel⟩) Bool.false_ne_true

end Sys2Proof.Proofs
